-- ==== Sys2Proof/Word.lean ====
section
/-! DEFINITION. The word types of the ZW-64C's records (00_scope "Numbers and units": a word is 32 bits). -/

namespace Sys2Proof

/-- One byte of memory or of a record. -/
abbrev Byte := BitVec 8

/-- A two-byte field of a record. -/
abbrev Half := BitVec 16

/-- A 32-bit word: a command operand, the event mask, a record's word. -/
abbrev Word := BitVec 32

end Sys2Proof
end

