-- ==== Sys2Proof/Config.lean ====
section
/-! DEFINITION. What the spec leaves open: constants with no body, so that nothing can be proved of the values. -/

namespace Sys2Proof

/-- The glyph ROM's bit for glyph code `c`, glyph row `r` and column `x` (R176: "the masks are fixed in the ROM.
This manual names the shape of each and does not give its bits"). Free; log 5. -/
opaque Config.romBit (c r x : Nat) : Bool

/-- What a live-layer refresh finds of another block's work at the same frame complete (R180: either may be taken
first). `n` is the index of the choice, `block` is 0 for the timecode unit, 1 for the audio path, 2 for the ring
monitor. `true`: the other block came first, so the refresh shows the new value. Free; log 17. -/
opaque Config.otherBlockFirst (n block : Nat) : Bool

/-- Whether a held mount begins before the slots are checked at INIT_DONE (R34 and R134 put both there and give them no
order). Free; log 28. -/
opaque Config.mountBeforeSlots : Bool

/-- What the first-unit field of a clip that closes with no unit in its chain is (R148 and R150 leave it without a value),
taken modulo U into its coding 1..U. Free; log 26. -/
opaque Config.firstUnitOfEmptyChain : Half

end Sys2Proof
end

