-- ==== Sys2Proof/Syntax.lean ====
section
/-! DEFINITION. The commands of the block: one constructor of `Instr` per row of spec/opcode_table.json, in the
table's order. Operand words of a host command are the raw 32-bit words of its slot (R22, R186), so that a value out
of range is judged where the owning rule judges it. -/

namespace Sys2Proof

/-- The two step axes (05). -/
inductive AxisName
  | zoom
  | focus
  deriving DecidableEq, Repr

/-- The two view readers (03 section 3.4). -/
inductive Reader
  | enc
  | vf
  deriving DecidableEq, Repr

/-- The two gyro axes (04). -/
inductive GyroAxis
  | yaw
  | pitch
  deriving DecidableEq, Repr

/-- A command slot, 0 to 15 (02 section 2.1). -/
abbrev CmdSlot := Fin 16

/-- An audio channel, 0 to 3 (10 section 10.1). -/
abbrev ChannelNo := Fin 4

/-- One beat of a WRITE: 32 bytes and one enable for each (01 section 1.1). -/
structure WriteBeat where
  data : Vector Byte 32
  enables : Vector Bool 32
  deriving DecidableEq, Repr

/-- What a transaction asks: a READ of `n` beats or a WRITE of the listed beats (01 section 1.1). -/
inductive LinkOp
  | read (n : Nat)
  | write (beats : List WriteBeat)
  deriving DecidableEq, Repr

/-- What one gyro poll ends in (R53, R71). `overtaken`: an answer to a poll made before a change of the gyro rate. -/
inductive GyroAnswer
  | valid (yaw pitch : BitVec 16)
  | missing
  | overtaken
  deriving DecidableEq, Repr

/-- An answer of the card (R133): to the command in flight, or late, to a command that has timed out or was issued before
the last POWER_ON or PIN reset (R155). What a late answer carries plays no part (log 48). -/
inductive CardAnswer (α : Type)
  | inTime (answer : α)
  | late
  deriving DecidableEq, Repr

/-- The input pins a reset samples: the straps (R5) and, so that they have a level, the two home sensors. -/
structure Pins where
  strap1 : Bool
  strap0 : Bool
  zoomSensor : Bool
  focusSensor : Bool
  deriving DecidableEq, Repr

/-- The commands, one per row of spec/opcode_table.json. -/
inductive Instr
  -- resets and start-up
  | powerOn (pins : Pins)
  | pinReset (pins : Pins)
  | frameMemoryReady
  | initDone
  -- the link port: a transaction arrives; the port hands on its next beat
  | linkTransaction (addr : BitVec 30) (op : LinkOp)
  | physicalBeat
  | audioRingWrite
  | privateAreaWrite
  | holeBeat
  | captureWrite
  | viewRead
  -- the memory arbiter
  | linkRequestGrant
  | cardRequestGrant
  | partRequestGrant
  -- host commands, each in a command slot
  | region (slot : CmdSlot) (privBase audioBase audioSize ringBase ringSize slotBase slotCount vw vh cw ch : Word)
  | restart (slot : CmdSlot)
  | eventSet (slot : CmdSlot) (mask mode : Word)
  | eventAck (slot : CmdSlot) (factors : Word)
  | lensTable (slot : CmdSlot) (address : Word)
  | axisSet (slot : CmdSlot) (sel : Byte) (vStart vMax ramp dwell low high action quietCap : Word)
  | compareSet (slot : CmdSlot) (sel : Byte) (comparator value condition enable : Word)
  | home (slot : CmdSlot) (sel : Byte)
  | move (slot : CmdSlot) (sel : Byte) (target cap condition argument : Word)
  | jog (slot : CmdSlot) (sel : Byte) (direction speed : Word)
  | stop (slot : CmdSlot) (sel : Byte) (kind : Word)
  | focusTrack (slot : CmdSlot) (enable distance : Word)
  | iris (slot : CmdSlot) (target step : Word)
  | gripSet (slot : CmdSlot) (rocker button : Word)
  | stabSet (slot : CmdSlot) (enable rate lTrack lPan hold yaw pitch : Word)
  | stabCal (slot : CmdSlot)
  | prerecSet (slot : CmdSlot) (depth : Word)
  | recStart (slot : CmdSlot)
  | recStop (slot : CmdSlot)
  | cardFormat (slot : CmdSlot)
  | cardEject (slot : CmdSlot)
  | tcSet (slot : CmdSlot) (timecode mode rate : Word)
  | audioSet (slot : CmdSlot) (sel : Byte) (enable threshold release clearOver : Word)
  | text (slot : CmdSlot) (position form : Word) (codes : Vector Word 12)
  | textClear (slot : CmdSlot) (row : Word)
  | fieldSet (slot : CmdSlot) (field row column enable : Word)
  | zebraSet (slot : CmdSlot) (enable level : Word)
  | paletteSet (slot : CmdSlot) (entry y cb cr : Word)
  -- named cases of an event
  | pan (axis : GyroAxis)
  | trackReturn (axis : GyroAxis)
  | meterFall (channel : ChannelNo)
  -- gyro
  | gyroSample (answer : GyroAnswer)
  | calDone (yaw pitch : BitVec 16)
  | gyroLost
  | gyroBack
  -- lens and iris; `sensor` is the home sensor's level after the step
  | axisStep (axis : AxisName) (sensor : Bool)
  | homingFail (axis : AxisName) (sensor : Bool)
  | dwellExpire (axis : AxisName)
  | irisPwmPeriod
  -- grip; `readings` is how many 1 ms readings in a row show the button pressed (released)
  | rockerSample (level : Byte)
  | recButtonPress (readings : Nat)
  | recButtonRelease (readings : Nat)
  -- card; `samples` is how many 1 ms samples in a row show a card present (absent); no data: the answer ERROR
  | cardInsertion (samples : Nat)
  | cardRemoval (samples : Nat)
  | cardIdentAnswer (blocks : CardAnswer Nat) (writeProtect : Bool)
  | cardReadAnswer (data : CardAnswer (Option (List Byte)))
  | cardWriteAnswer (ok : CardAnswer Bool)
  | cardTimeout
  deriving DecidableEq, Repr

end Sys2Proof
end

