-- ==== Sys2Proof/WellFormed.lean ====
section
/-! DEFINITION. Which commands can occur at all: the bounds the spec puts on what the link's sender and the card
present (01 section 1.1, 08 section 8.1). Operands of host commands need no check here: their owners judge every
32-bit value (R22, R186). -/

namespace Sys2Proof

/-- How many beats a transaction has. -/
def LinkOp.beatCount : LinkOp → Nat
  | .read n => n
  | .write beats => beats.length

/-- A transaction is a READ or a WRITE of 1 to 8 beats (01 section 1.1). -/
def LinkOp.wf (op : LinkOp) : Bool :=
  decide (1 ≤ op.beatCount) && decide (op.beatCount ≤ 8)

/-- A READ answer carries the data of 1 to 256 blocks of 512 bytes, or ERROR (08 section 8.1). -/
def readAnswerWf : Option (List Byte) → Bool
  | none => true
  | some d => decide (512 ≤ d.length) && decide (d.length ≤ 256 * 512) && decide (d.length % 512 = 0)

/-- The well-formed commands. -/
def WellFormed : Instr → Bool
  | .linkTransaction _ op => op.wf
  | .cardReadAnswer (.inTime d) => readAnswerWf d
  | _ => true

end Sys2Proof
end

