-- ==== Sys2Proof/Decode.lean ====
section
/-! DEFINITION. What a command slot spells (12.1): the decoder of a slot's words, and the encoder that a host would use.
No row of the table gives bits, so no instruction word spells a command (`decodeTableWord`, log 2). -/

namespace Sys2Proof

/-- The command that an instruction word of the table spells: none, since no row gives bits (log 2). -/
def decodeTableWord (_nbits _w : Nat) : Option Instr := none

/-- The sixteen words of a command slot (12.1): word 0 the command word, word 1 the outcome word, then the operands. -/
abbrev SlotWords := Vector Word 16

/-- The kind of a command word (12.1). -/
def SlotWords.kind (w : SlotWords) : Byte := w[0].setWidth 8

/-- The selector of a command word (12.1). -/
def SlotWords.selector (w : SlotWords) : Byte := (w[0] >>> 8).setWidth 8

/-- The glyph code operands of a TEXT: operands 3 to 14. -/
def SlotWords.codes (w : SlotWords) : Vector Word 12 :=
  #v[w[4], w[5], w[6], w[7], w[8], w[9], w[10], w[11], w[12], w[13], w[14], w[15]]

/-- The command a slot's words spell (12.1): none where the kind has no command assigned to it. Flags, word 1 and operands
past the kind's last are disregarded (R186). Operand n is word n + 1. -/
def decodeSlot (slot : CmdSlot) (w : SlotWords) : Option Instr :=
  match w.kind.toNat with
  | 0x01 => some (.region slot w[2] w[3] w[4] w[5] w[6] w[7] w[8] w[9] w[10] w[11] w[12])
  | 0x02 => some (.restart slot)
  | 0x03 => some (.eventSet slot w[2] w[3])
  | 0x04 => some (.eventAck slot w[2])
  | 0x10 => some (.lensTable slot w[2])
  | 0x11 => some (.axisSet slot w.selector w[2] w[3] w[4] w[5] w[6] w[7] w[8] w[9])
  | 0x12 => some (.compareSet slot w.selector w[2] w[3] w[4] w[5])
  | 0x13 => some (.home slot w.selector)
  | 0x14 => some (.move slot w.selector w[2] w[3] w[4] w[5])
  | 0x15 => some (.jog slot w.selector w[2] w[3])
  | 0x16 => some (.stop slot w.selector w[2])
  | 0x17 => some (.focusTrack slot w[2] w[3])
  | 0x18 => some (.iris slot w[2] w[3])
  | 0x19 => some (.gripSet slot w[2] w[3])
  | 0x20 => some (.stabSet slot w[2] w[3] w[4] w[5] w[6] w[7] w[8])
  | 0x21 => some (.stabCal slot)
  | 0x30 => some (.prerecSet slot w[2])
  | 0x31 => some (.recStart slot)
  | 0x32 => some (.recStop slot)
  | 0x33 => some (.cardFormat slot)
  | 0x34 => some (.cardEject slot)
  | 0x40 => some (.tcSet slot w[2] w[3] w[4])
  | 0x50 => some (.audioSet slot w.selector w[2] w[3] w[4] w[5])
  | 0x60 => some (.text slot w[2] w[3] w.codes)
  | 0x61 => some (.textClear slot w[2])
  | 0x62 => some (.fieldSet slot w[2] w[3] w[4] w[5])
  | 0x63 => some (.zebraSet slot w[2] w[3])
  | 0x64 => some (.paletteSet slot w[2] w[3] w[4] w[5])
  | _ => none

/-- A command word: kind and selector, no flags (12.1). -/
def commandWord (kind : Nat) (sel : Byte) : Word := BitVec.ofNat 32 (kind + 256 * sel.toNat)

/-- Slot words with the operands given from operand 1 on, zero past the last. -/
def slotWords (kind : Nat) (sel : Byte) (ops : List Word) : SlotWords :=
  let o (n : Nat) : Word := ops.getD n 0
  #v[commandWord kind sel, 0, o 0, o 1, o 2, o 3, o 4, o 5, o 6, o 7, o 8, o 9, o 10, o 11, o 12, o 13]

/-- The slot and the words with which a host issues a host command (12.1); none for a row that is no host command. -/
def encodeSlot : Instr → Option (CmdSlot × SlotWords)
  | .region s a b c d e f g h i j k => some (s, slotWords 0x01 0 [a, b, c, d, e, f, g, h, i, j, k])
  | .restart s => some (s, slotWords 0x02 0 [])
  | .eventSet s a b => some (s, slotWords 0x03 0 [a, b])
  | .eventAck s a => some (s, slotWords 0x04 0 [a])
  | .lensTable s a => some (s, slotWords 0x10 0 [a])
  | .axisSet s x a b c d e f g h => some (s, slotWords 0x11 x [a, b, c, d, e, f, g, h])
  | .compareSet s x a b c d => some (s, slotWords 0x12 x [a, b, c, d])
  | .home s x => some (s, slotWords 0x13 x [])
  | .move s x a b c d => some (s, slotWords 0x14 x [a, b, c, d])
  | .jog s x a b => some (s, slotWords 0x15 x [a, b])
  | .stop s x a => some (s, slotWords 0x16 x [a])
  | .focusTrack s a b => some (s, slotWords 0x17 0 [a, b])
  | .iris s a b => some (s, slotWords 0x18 0 [a, b])
  | .gripSet s a b => some (s, slotWords 0x19 0 [a, b])
  | .stabSet s a b c d e f g => some (s, slotWords 0x20 0 [a, b, c, d, e, f, g])
  | .stabCal s => some (s, slotWords 0x21 0 [])
  | .prerecSet s a => some (s, slotWords 0x30 0 [a])
  | .recStart s => some (s, slotWords 0x31 0 [])
  | .recStop s => some (s, slotWords 0x32 0 [])
  | .cardFormat s => some (s, slotWords 0x33 0 [])
  | .cardEject s => some (s, slotWords 0x34 0 [])
  | .tcSet s a b c => some (s, slotWords 0x40 0 [a, b, c])
  | .audioSet s x a b c d => some (s, slotWords 0x50 x [a, b, c, d])
  | .text s a b v => some (s, slotWords 0x60 0 (a :: b :: v.toList))
  | .textClear s a => some (s, slotWords 0x61 0 [a])
  | .fieldSet s a b c d => some (s, slotWords 0x62 0 [a, b, c, d])
  | .zebraSet s a b => some (s, slotWords 0x63 0 [a, b])
  | .paletteSet s a b c d => some (s, slotWords 0x64 0 [a, b, c, d])
  | .powerOn _ | .pinReset _ | .frameMemoryReady | .initDone => none
  | .linkTransaction _ _ | .physicalBeat | .audioRingWrite | .privateAreaWrite | .holeBeat | .captureWrite | .viewRead => none
  | .linkRequestGrant | .cardRequestGrant | .partRequestGrant => none
  | .pan _ | .trackReturn _ | .meterFall _ | .gyroSample _ | .calDone _ _ | .gyroLost | .gyroBack => none
  | .axisStep _ _ | .homingFail _ _ | .dwellExpire _ | .irisPwmPeriod => none
  | .rockerSample _ | .recButtonPress _ | .recButtonRelease _ => none
  | .cardInsertion _ | .cardRemoval _ | .cardIdentAnswer _ _ | .cardReadAnswer _ | .cardWriteAnswer _ | .cardTimeout => none

end Sys2Proof
end

