-- ==== Sys2Proof/Machine/State.lean ====
section
/-! DEFINITION. The state of the ZW-64C as plain data: one structure per block (00_scope "Blocks"), the frame memory,
and the queue of commands that wait. Fields that are the model's own, beside the spec's, say so. -/

namespace Sys2Proof.Machine

/-! ### Names of codes and factors -/

/-- The outcome codes of R22's table. -/
inductive OutcomeCode
  | noOutcome
  | pending
  | done
  | aborted
  | superseded
  | failed
  | unknownKind
  | badValue
  | busy
  | notReady
  | notHomed
  | noLensTable
  | noCard
  | outOfLimit
  | overlap
  | cardFull
  | cardProtected
  deriving DecidableEq, Repr

/-- The thirty-two event factors of section 2.4, in order of their number. -/
inductive Factor
  | zoomDone
  | focusDone
  | homeDone
  | limitReached
  | mark
  | axisFault
  | gyroLost
  | gyroBack
  | calDone
  | calFailed
  | pan
  | frameTorn
  | captureSpill
  | encSkip
  | recStarted
  | recStopped
  | clipClosed
  | queueFull
  | ringOverrun
  | chunkReject
  | cardIn
  | cardOut
  | cardFilled
  | cardFault
  | unitRetired
  | audioOver
  | addressHole
  | privateWrite
  | slotCollision
  | cmdDone
  | gripRec
  | initDone
  deriving DecidableEq, Repr

/-- Where a start-up stands (R18, R33). `recordsWritten`: steps 2 to 4 are granted and INIT_DONE may be raised. The
init state of the status record is RUNNING in `running` and INITIALISING before. -/
inductive StartPhase
  | stalled
  | zeroing
  | recordsWritten
  | running
  deriving DecidableEq, Repr

/-- The reset the host is starting from (R25, R36). -/
inductive ResetCause
  | powerOn
  | pin
  | restart
  deriving DecidableEq, Repr

/-- How the pending set is cleared (R28). -/
inductive ClearMode
  | onRead
  | onAck
  deriving DecidableEq, Repr

/-! ### Memory -/

/-- Bytes at addresses, in the canonical form of `Memory.wf`: addresses strictly rising, no byte that an unlisted
address would read as. Used for the frame memory (R17), the command shadow (R19) and the card mirrors (R136). -/
abbrev Memory := List Host.Cell

/-! ### Link port -/

/-- A transaction the link port holds (R1, R2). -/
structure LinkTxn where
  /-- a WRITE, not a READ -/
  isWrite : Bool
  /-- the starting address, its low five bits taken as zero -/
  addr : Nat
  /-- the beats of a WRITE -/
  beats : List WriteBeat
  /-- how many beats the transaction has -/
  count : Nat
  /-- the index of the next beat to be decided -/
  next : Nat
  /-- the data of the READ beats answered so far, in order -/
  results : List (List Byte)
  /-- the completion mark so far is ERROR -/
  error : Bool
  /-- a beat has covered word 0 of a command slot whose last beat is still to come (R20) -/
  offered : Bool
  deriving DecidableEq, Repr

/-- A response (R2): the read data beats, none for a WRITE, and the mark. -/
structure LinkResponse where
  isWrite : Bool
  data : List (List Byte)
  error : Bool
  deriving DecidableEq, Repr

/-- The block that watches a granted WRITE beat (R9, R13). -/
inductive WriteWatch
  | unwatched
  /-- the command unit; the offset in the command area -/
  | command (offset : Nat)
  /-- the ring monitor; the offset in the record ring -/
  | ring (offset : Nat)
  /-- the slot manager; the slot the beat was redirected into and the offset in the frame -/
  | capture (slot offset : Nat)
  deriving DecidableEq, Repr

/-- The request of one link beat (R15). -/
inductive LinkReq
  | write (addr : Nat) (data : List Byte) (enables : List Bool) (watch : WriteWatch)
  /-- a READ beat; the offset in the report area when the report unit is given the data -/
  | read (addr : Nat) (report : Option Nat)
  /-- a view beat: the 32 bytes at `source`, one or two reads granted together (R14) -/
  | view (reader : Reader) (source line pixel : Nat)
  deriving DecidableEq, Repr

/-- The link port (R1 to R3). -/
structure LinkPort where
  /-- transactions not yet answered, oldest first; at most 16 -/
  held : List LinkTxn
  /-- transactions the sender keeps waiting while 16 are held (the model's own; log 21) -/
  waiting : List LinkTxn
  /-- the LINK request waiting for its grant -/
  request : Option LinkReq
  /-- the response returned last (the model's view of the port's output; log 41) -/
  response : Option LinkResponse
  deriving DecidableEq, Repr

/-! ### Region map -/

/-- The region map (R5) and its conflict state (R6). -/
structure RegionMap where
  controlBase : Nat
  privBase : Nat
  audioBase : Nat
  audioSize : Nat
  ringBase : Nat
  ringSize : Nat
  slotBase : Nat
  slotCount : Nat
  cw : Nat
  ch : Nat
  vw : Nat
  vh : Nat
  conflict : Bool
  deriving DecidableEq, Repr

/-! ### The part's requests, the command unit and the report unit -/

/-- The three classes of requester (R15). -/
inductive ReqClass
  | link
  | card
  | part
  deriving DecidableEq, Repr

/-- A PART request (R15). `zero` and `mirror` stand for a run of requests of up to 8 beats each, granted one after the
other from the place of the first (log 22). -/
inductive PartReq
  | zero (addr pieces : Nat)
  | zeroOutcome (slot : CmdSlot)
  | status
  | factor
  | lastClip (record : List Byte)
  /-- an outcome word, with the factor set that an EVENT_ACK noted (R32) -/
  | outcome (slot : CmdSlot) (code : OutcomeCode) (detail uses kind : Byte) (ack : Word)
  /-- a chunk stamp for queue entry number `entry`, at the header's address (R127); `overwritten` is set by an overrun of the
  entry while the write waits (R124) -/
  | stamp (entry addr : Nat) (timecode rateMode : Word) (estimated overwritten : Bool)
  | mirror (addr : Nat) (bytes : List Byte)
  /-- the lens table load; `discard` once a RESTART has ended its command (R101) -/
  | lensLoad (addr : Nat) (discard : Bool)
  deriving DecidableEq, Repr

/-- What the command unit holds for one slot besides the shadow (R19). `kind` is the kind of the command last taken,
for its final outcome word (R23). -/
structure SlotRecord where
  last : OutcomeCode
  uses : Byte
  kind : Byte
  deriving DecidableEq, Repr

/-- A RESTART in progress (R35): its slot, and how many PART requests from the front of the queue must still be granted
before it is complete. -/
structure RestartRecord where
  slot : CmdSlot
  awaiting : Nat
  deriving DecidableEq, Repr

/-- The command unit (R19). -/
structure CommandUnit where
  shadow : Memory
  slots : Vector SlotRecord 16
  restart : Option RestartRecord
  deriving DecidableEq, Repr

/-- The changed-group set (R27). -/
structure Groups where
  lens : Bool
  stab : Bool
  recd : Bool
  card : Bool
  audio : Bool
  frame : Bool
  deriving DecidableEq, Repr

/-! ### Slot manager -/

/-- A complete frame in a slot (3.1): what a READY or SHOWN slot holds. The reader set is the set of readers attached
to the slot; the slot is SHOWN while that set is not empty and READY otherwise (R37). -/
structure CompleteFrame where
  frame : Nat
  dx : Int
  dy : Int
  /-- the captured zoom position, absent when the zoom had none -/
  zoom : Option Nat
  seenEnc : Bool
  seenVf : Bool
  deriving DecidableEq, Repr

/-- One entry of the slot table (3.1). -/
inductive FrameSlot
  | free
  | filling (lastLine : Nat)
  | complete (f : CompleteFrame)
  deriving DecidableEq, Repr

/-- A reader (3.4). -/
structure ViewReader where
  slot : Option Nat
  lastLine : Nat
  deriving DecidableEq, Repr

/-- The slot manager (R37, R38, R45). -/
structure SlotManager where
  table : List FrameSlot
  /-- FREE slots, oldest first -/
  freeOrder : List Nat
  /-- READY and SHOWN slots in the order of completion -/
  completion : List Nat
  enc : ViewReader
  vf : ViewReader
  frameCounter : Nat
  torn : Nat
  unshown : Nat
  skips : Nat
  vfFrames : Nat
  deriving DecidableEq, Repr

/-! ### Stabiliser -/

/-- The stabiliser's modes (4.3). -/
inductive StabMode
  | off
  | active
  | hold
  | calibrating
  deriving DecidableEq, Repr

/-- The pan state of an axis (4.6). -/
inductive PanState
  | track
  | pan
  deriving DecidableEq, Repr

/-- The gyro rates (R53). -/
inductive GyroRate
  | hz512
  | hz1024
  | hz2048
  deriving DecidableEq, Repr

/-- What the stabiliser holds for one axis (4.2). -/
structure StabAxis where
  /-- orientation −1 (set) or +1 (clear) -/
  reversed : Bool
  bias : Int
  acc : Int
  lim : Nat
  clamped : Bool
  panState : PanState
  hitRun : Nat
  centreRun : Nat
  deriving DecidableEq, Repr

/-- The pending copy of a STAB_SET (R69). -/
structure StabCopy where
  enable : Bool
  lTrack : Nat
  lPan : Nat
  hold : Nat
  yawReversed : Bool
  pitchReversed : Bool
  deriving DecidableEq, Repr

/-- The calibration record, present while CALIBRATING (R72), with the return mode (`toActive`: ACTIVE, else OFF) and the
slot of the STAB_CAL in progress. -/
structure Calibration where
  slot : CmdSlot
  toActive : Bool
  count : Nat
  first : Option (Int × Int)
  sumYaw : Int
  sumPitch : Int
  deriving DecidableEq, Repr

/-- The stabiliser (4.2). -/
structure Stabiliser where
  mode : StabMode
  enable : Bool
  rate : GyroRate
  yaw : StabAxis
  pitch : StabAxis
  lTrack : Nat
  lPan : Nat
  hold : Nat
  copy : Option StabCopy
  missingRun : Nat
  validRun : Nat
  cal : Option Calibration
  deriving DecidableEq, Repr

/-! ### Lens drive unit and lens coordinator -/

/-- The states of a step axis (5.1). -/
inductive AxisState
  | unhomed
  | homing
  | idle
  | waiting
  | moving
  | dwell
  | fault
  deriving DecidableEq, Repr

/-- The phases of a motion (5.1). -/
inductive Phase
  | accel
  | cruise
  | decel
  deriving DecidableEq, Repr

/-- The directions of a step: up is toward higher positions (05). -/
inductive Dir
  | down
  | up
  deriving DecidableEq, Repr

/-- The limit action (R93). -/
inductive LimitAction
  | clamp
  | halt
  deriving DecidableEq, Repr

/-- The conditions of a comparator (5.6). -/
inductive CmpCond
  | off
  | eq
  | gt
  | lt
  deriving DecidableEq, Repr

/-- A comparator (R94). -/
structure Comparator where
  value : Nat
  cond : CmpCond
  enable : Bool
  met : Bool
  deriving DecidableEq, Repr

/-- The sources of marks (6.5). -/
inductive MarkSource
  | zoomA
  | zoomB
  | focusA
  | focusB
  | zoomAccelEnd
  | zoomDecelStart
  | frame
  | recStarted
  deriving DecidableEq, Repr

/-- The start condition of a waiting move, and the coordinator's watch on it (R88, R106). -/
inductive StartCond
  | afterStop (axis : AxisName)
  | onMark (source : MarkSource)
  deriving DecidableEq, Repr

/-- What follows a stop by deceleration at its stop point (R81). A cap of 0 is none. -/
inductive AfterStop
  /-- nothing: the axis becomes IDLE -/
  | rest
  /-- a reversal's move (R87) -/
  | goTo (target cap : Nat)
  /-- a reversal's jog (R90) -/
  | jogOn (dir : Dir) (cap : Nat)
  /-- the wait of the pending move (R88) -/
  | await
  deriving DecidableEq, Repr

/-- Where a motion is to end (R80, R81). -/
inductive Goal
  | none
  | moveTo (target : Nat)
  | jog
  | stopAt (point : Int) (next : AfterStop)
  deriving DecidableEq, Repr

/-- Who holds an axis: the slot of a host command with PENDING, or a request of the lens coordinator (5.1). -/
inductive Holder
  | host (slot : CmdSlot)
  | request
  deriving DecidableEq, Repr

/-- A pending move (R88). -/
structure PendingMove where
  target : Nat
  cap : Nat
  cond : StartCond
  slot : CmdSlot
  deriving DecidableEq, Repr

/-- The homing record (R83, R84). -/
inductive Homing
  /-- the deceleration that precedes homing; `drop` once a STOP with DECEL has ended the HOME (R84) -/
  | slowing (drop : Bool)
  /-- a new HOME waits for the step already due (R83) -/
  | again
  /-- a leg, TOWARD the sensor or AWAY from it; `dwell` while it waits out its reversal dwell -/
  | leg (toward : Bool) (steps : Nat) (dwell : Bool)
  deriving DecidableEq, Repr

/-- The axis record (5.1). `ownCap` is the move's own cap or the jog's speed, 0 for none (R78). -/
structure StepAxis where
  state : AxisState
  phase : Phase
  pos : Option Nat
  dir : Option Dir
  motionDir : Dir
  goal : Goal
  k : Nat
  speed : Nat
  ownCap : Nat
  vStart : Nat
  vMax : Nat
  ramp : Nat
  dwell : Nat
  low : Nat
  high : Nat
  action : LimitAction
  quietCap : Nat
  quiet : Bool
  cmpA : Comparator
  cmpB : Comparator
  holder : Option Holder
  pendingMove : Option PendingMove
  homing : Option Homing
  /-- the home sensor's level: active or not (log 13) -/
  sensor : Bool
  deriving DecidableEq, Repr

/-- The iris channel (R97). -/
structure Iris where
  duty : Nat
  target : Nat
  step : Nat
  loaded : Nat
  deriving DecidableEq, Repr

/-- A lens table point (06 section 6.1). -/
structure LensPoint where
  z : Nat
  k16 : Nat
  finf : Nat
  fnear : Nat
  deriving DecidableEq, Repr

/-- A lens table (06 section 6.1). -/
structure LensTable where
  zr : Nat
  fr : Nat
  zoomHome : Nat
  focusHome : Nat
  points : List LensPoint
  deriving DecidableEq, Repr

/-- The load record of a LENS_TABLE in progress (R100). -/
structure LoadRecord where
  addr : Nat
  slot : CmdSlot
  deriving DecidableEq, Repr

/-- The rocker states (6.6). -/
inductive RockerState
  | off
  | centre
  | hold
  | lockout
  deriving DecidableEq, Repr

/-- The lens coordinator (6.1). The watch of an axis is the start condition of its pending move. -/
structure Coordinator where
  table : Option LensTable
  load : Option LoadRecord
  tracking : Bool
  distance : Nat
  suspended : Bool
  rocker : RockerState
  level : Nat
  /-- a rocker sample has been taken since the reset (the model's own; log 15) -/
  sampled : Bool
  recEnable : Bool
  recPressed : Bool
  recRun : Nat
  recLockout : Bool
  deriving DecidableEq, Repr

/-- The lens side: the two axes, the iris and the coordinator. -/
structure Lens where
  zoom : StepAxis
  focus : StepAxis
  iris : Iris
  coord : Coordinator
  deriving DecidableEq, Repr

/-! ### Timecode unit -/

/-- A pair of binary-coded decimal digits (09). -/
structure Bcd where
  tens : Nat
  units : Nat
  deriving DecidableEq, Repr

/-- A timecode (09). -/
structure Timecode where
  hh : Bcd
  mm : Bcd
  ss : Bcd
  ff : Bcd
  deriving DecidableEq, Repr

/-- The timecode rates (9.1). -/
inductive TcRate
  | fps25
  | fps30
  | df2997
  deriving DecidableEq, Repr

/-- The timecode modes (9.3). -/
inductive TcMode
  | freeRun
  | recordRun
  deriving DecidableEq, Repr

/-- An entry of the frame log (R162). -/
structure LogEntry where
  frame : Nat
  timecode : Timecode
  rate : TcRate
  deriving DecidableEq, Repr

/-- The timecode unit (R156). The frame log is oldest first. -/
structure TimecodeUnit where
  current : Timecode
  recordRun : Timecode
  mode : TcMode
  rate : TcRate
  log : List LogEntry
  deriving DecidableEq, Repr

/-! ### Ring monitor -/

/-- Chunk kinds (7.1). -/
inductive ChunkKind
  | videoKey
  | videoDelta
  | audio
  | metadata
  deriving DecidableEq, Repr

/-- States of a queue entry (7.2). -/
inductive EntryState
  | retained
  | joined
  | stamped
  | draining
  | drained
  deriving DecidableEq, Repr

/-- The words of a stamp (R127, 12.2). -/
structure Stamp where
  timecode : Word
  rateMode : Word
  estimated : Bool
  deriving DecidableEq, Repr

/-- An entry of the chunk queue (7.2). `number` names the entry (log 19); `stampsWaiting` counts its stamp writes not yet
granted; `units` lists card units with their committed marks. -/
structure QueueEntry where
  number : Nat
  offset : Nat
  length : Nat
  span : Nat
  kind : ChunkKind
  frame : Nat
  freeStamp : Timecode
  estimated : Bool
  stamp : Option Stamp
  state : EntryState
  overwritten : Bool
  stampsWaiting : Nat
  units : List (Nat × Bool)
  deriving DecidableEq, Repr

/-- The ring monitor (R114). The drain front is `drainAhead` bytes ahead of the release front (log 18). -/
structure RingMonitor where
  writeFront : Nat
  releaseFront : Nat
  drainAhead : Nat
  shadow : List Byte
  queue : List QueueEntry
  depth : Nat
  frameBytes : Nat
  rBpf : Nat
  lastVideo : Option Timecode
  drops : Nat
  overruns : Nat
  nextEntry : Nat
  deriving DecidableEq, Repr

/-! ### Card engine -/

/-- Card states (8.3). -/
inductive CardState
  | absent
  | mounting
  | unformatted
  | ready
  | writeProtected
  | full
  | formatting
  | fault
  deriving DecidableEq, Repr

/-- Record states (8.5). -/
inductive RecState
  | idle
  | standby
  | armed
  | recording
  | stopping
  | closing
  deriving DecidableEq, Repr

/-- The two staging buffers (8.7). -/
inductive BufName
  | a
  | b
  deriving DecidableEq, Repr

/-- States of a staging buffer (8.7). -/
inductive BufState
  | empty
  | filling
  | waiting
  | writing
  deriving DecidableEq, Repr

/-- A staging buffer: its batch of the current unit, its bytes so far, and whether its WRITE has already answered ERROR
once (R148). -/
structure StagingBuffer where
  state : BufState
  batch : Nat
  data : List Byte
  retried : Bool
  deriving DecidableEq, Repr

/-- What a directory WRITE is for (R138, R140, R144, R152). -/
inductive DirPurpose
  | damaged
  | formatHead
  | formatMap
  | opening
  | closeHead
  | closeMap
  deriving DecidableEq, Repr

/-- A directory WRITE the card engine has ready: its blocks, the bytes read from the mirrors so far by CARD requests
(R133), and whether it has already answered ERROR once. -/
structure DirJob where
  purpose : DirPurpose
  first : Nat
  count : Nat
  data : List Byte
  retried : Bool
  deriving DecidableEq, Repr

/-- Card commands (8.1). The data of a WRITE is that of the directory job at the front, or of the named buffer. -/
inductive CardCmd
  | ident
  | read (first count : Nat)
  | writeDir (first count : Nat)
  | writeBatch (first : Nat) (buf : BufName)
  deriving DecidableEq, Repr

/-- The card command in flight (R133). -/
structure InFlight where
  cmd : CardCmd
  abandoned : Bool
  deriving DecidableEq, Repr

/-- A CARD request (R15): mirror bytes for the directory job at the front, or chunk bytes for a staging buffer. -/
inductive CardReq
  | dir (addr beats : Nat)
  | chunk (offset length unit : Nat) (buf : BufName)
  deriving DecidableEq, Repr

/-- The seven clip flags (8.2). -/
structure ClipFlags where
  gap : Bool
  tcEstimated : Bool
  audioOver : Bool
  skipped : Bool
  endedFull : Bool
  endedFault : Bool
  endedPulled : Bool
  deriving DecidableEq, Repr

/-- The open clip record (R144). `chain` lists the clip's units in order; `live` while its last unit is the current
unit, not yet committed. `headersCounted` is the entry number past the last chunk header counted (log 19). The fields
`unitBytes`, `nextBatch`, `finishing`, `opened` and `headerSeen` follow the filling (R146, R151). -/
structure OpenClip where
  number : Nat
  entry : Nat
  chain : List Nat
  live : Bool
  unitCount : Nat
  byteLength : Nat
  unitStart : Nat
  unitBytes : Nat
  nextBatch : Nat
  batchesDone : Nat
  relocated : Bool
  finishing : Bool
  opened : Bool
  headerSeen : Bool
  startTc : Word
  videoFrames : Nat
  skipped : Nat
  flags : ClipFlags
  headersCounted : Nat
  deriving DecidableEq, Repr

/-- Who asked for a START: a REC_START in a slot, or the grip's toggle (R141). -/
inductive StartSource
  | slot (n : CmdSlot)
  | toggle
  deriving DecidableEq, Repr

/-- The card engine (08). -/
structure CardEngine where
  state : CardState
  recState : RecState
  present : Bool
  detectRun : Nat
  ejected : Bool
  inFlight : Option InFlight
  /-- the mount command that is ready to be issued -/
  mountCmd : Option CardCmd
  dirJobs : List DirJob
  writeProtect : Bool
  unitTotal : Nat
  mirror : Option Memory
  /-- mirror writes requested and not yet granted (the model's own; log 24) -/
  mirrorWrites : Nat
  freeUnits : Nat
  retired : Nat
  clipNumber : Nat
  clip : Option OpenClip
  bufA : StagingBuffer
  bufB : StagingBuffer
  request : Option CardReq
  pendingStart : Option StartSource
  /-- the REC_START in progress in ARMED -/
  startSlot : Option CmdSlot
  stopSlot : Option CmdSlot
  ejectSlot : Option CmdSlot
  formatSlot : Option CmdSlot
  deriving DecidableEq, Repr

/-- The recording side: ring monitor, card engine and timecode unit. -/
structure Recorder where
  ring : RingMonitor
  card : CardEngine
  tc : TimecodeUnit
  deriving DecidableEq, Repr

/-! ### Audio path -/

/-- One audio channel (R164). -/
structure Channel where
  enable : Bool
  threshold : Nat
  release : Nat
  gain : Nat
  block : Option Nat
  peak : Nat
  held : Nat
  holdCount : Nat
  fallCount : Nat
  overSet : Bool
  deriving DecidableEq, Repr

/-! ### Overlay unit -/

/-- A cell content (11.1). -/
structure CellContent where
  glyph : Nat
  palette : Nat
  blink : Bool
  shade : Bool
  deriving DecidableEq, Repr

/-- A palette entry (11.1). -/
structure Colour where
  y : Byte
  cb : Byte
  cr : Byte
  deriving DecidableEq, Repr

/-- The placement of a live field (11.1). -/
structure Placement where
  row : Nat
  column : Nat
  enabled : Bool
  deriving DecidableEq, Repr

/-- A cell of the live layer (R180). -/
structure LiveCell where
  row : Nat
  column : Nat
  content : CellContent
  deriving DecidableEq, Repr

/-- The snapshot (R177). -/
structure Snapshot where
  host : List (List CellContent)
  live : List LiveCell
  palette : Vector Colour 4
  zebra : Bool
  level : Nat
  vfFrames : Nat
  deriving DecidableEq, Repr

/-- The overlay unit (R174). The host layer is a list of 27 rows of 48 cells. -/
structure Overlay where
  columns : Nat
  rows : Nat
  host : List (List CellContent)
  fields : Vector Placement 9
  live : List LiveCell
  palette : Vector Colour 4
  zebra : Bool
  level : Nat
  snapshot : Snapshot
  deriving DecidableEq, Repr

/-! ### Report unit -/

/-- The fields of group FRAME (R25). -/
structure FrameGroup where
  frame : Nat
  timecode : Timecode
  torn : Nat
  skips : Nat
  unshown : Nat
  deriving DecidableEq, Repr

/-- The fields of group STAB (R25). -/
structure StabGroup where
  mode : StabMode
  panYaw : PanState
  panPitch : PanState
  dx : Int
  dy : Int
  biasYaw : Int
  biasPitch : Int
  deriving DecidableEq, Repr

/-- The fields of group LENS (R25). -/
structure LensGroup where
  zoomPos : Option Nat
  zoomState : AxisState
  focusPos : Option Nat
  focusState : AxisState
  duty : Nat
  distance : Nat
  deriving DecidableEq, Repr

/-- The fields of group REC (R25). -/
structure RecGroup where
  recState : RecState
  clipNumber : Nat
  minutes : Nat
  freeLimit : Nat
  drops : Nat
  overruns : Nat
  deriving DecidableEq, Repr

/-- The fields of group CARD (R25). -/
structure CardGroup where
  state : CardState
  freeUnits : Nat
  retired : Nat
  deriving DecidableEq, Repr

/-- The fields of group AUDIO (R25), channels 0 to 3. -/
structure AudioGroup where
  held : List Nat
  overs : List Bool
  deriving DecidableEq, Repr

/-- The status record (R25). -/
structure StatusRecord where
  cause : ResetCause
  running : Bool
  conflict : Bool
  groups : Groups
  frame : FrameGroup
  stab : StabGroup
  lens : LensGroup
  recd : RecGroup
  card : CardGroup
  audio : AudioGroup
  deriving DecidableEq, Repr

/-- The report unit (R25 to R32). -/
structure ReportUnit where
  pending : Word
  mask : Word
  clearMode : ClearMode
  cause : ResetCause
  groups : Groups
  /-- the image of the last status record written -/
  image : Option StatusRecord
  deriving DecidableEq, Repr

/-- The units every block speaks to: the command unit, the report unit, and the PART requests waiting, oldest first. -/
structure Bus where
  cmd : CommandUnit
  report : ReportUnit
  partQ : List PartReq
  deriving DecidableEq, Repr

/-! ### The part and the machine -/

/-- The ZW-64C: all of its blocks. -/
structure Part where
  phase : StartPhase
  bus : Bus
  link : LinkPort
  map : RegionMap
  /-- the class the memory arbiter granted last (R16) -/
  lastGrant : ReqClass
  slots : SlotManager
  stab : Stabiliser
  lens : Lens
  recd : Recorder
  audio : Vector Channel 4
  overlay : Overlay
  /-- the index of the next free choice (the model's own; log 17) -/
  choices : Nat
  deriving DecidableEq, Repr

/-- The machine: the part, the frame memory in its package, and the commands that wait, first in first out. -/
structure State where
  part : Part
  mem : Memory
  pending : List Instr
  deriving DecidableEq, Repr

/-- Why a command faults. -/
inductive Fault
  /-- Raised by CAPTURE_WRITE where a frame start finds neither a FREE nor a READY slot to claim, which R40 says cannot
  be (log 36). Safe: the model stops where the spec has no behaviour. -/
  | noClaimableSlot
  deriving DecidableEq, Repr

/-- Why a command is refused. -/
inductive Refusal
  /-- Raised by `exec` for a row that has no meaning yet. Safe: nothing can be claimed of that row. -/
  | notModelled (mnemonic : String)
  /-- Raised by LINK_TRANSACTION for a transaction not of 1 to 8 beats, and by CARD_READ_ANSWER for data that is not the
  blocks asked for: no sender presents them (01 section 1.1, 08 section 8.1; log 35). Safe. -/
  | illFormed
  deriving DecidableEq, Repr

/-! ### The values after a reset -/

/-- A comparator after reset (R75). -/
def Comparator.reset : Comparator := ⟨0, .off, false, false⟩

/-- A step axis after reset (R75), its home sensor at the level given (log 13, log 40). -/
def StepAxis.reset (sensor : Bool) : StepAxis where
  state := .unhomed
  phase := .cruise
  pos := none
  dir := none
  motionDir := .down
  goal := .none
  k := 0
  speed := 0
  ownCap := 0
  vStart := 200
  vMax := 4000
  ramp := 400
  dwell := 20
  low := 0
  high := 0
  action := .clamp
  quietCap := 600
  quiet := false
  cmpA := .reset
  cmpB := .reset
  holder := none
  pendingMove := none
  homing := none
  sensor := sensor

/-- The lens coordinator after reset (6.1). -/
def Coordinator.reset : Coordinator where
  table := none
  load := none
  tracking := false
  distance := 0
  suspended := false
  rocker := .off
  level := 128
  sampled := false
  recEnable := false
  recPressed := false
  recRun := 0
  recLockout := false

/-- The lens side after reset (R75, R97, 6.1). -/
def Lens.reset (pins : Pins) : Lens where
  zoom := .reset pins.zoomSensor
  focus := .reset pins.focusSensor
  iris := ⟨0, 0, 8, 0⟩
  coord := .reset

/-- One stabiliser axis after reset (R54). -/
def StabAxis.reset : StabAxis := ⟨false, 0, 0, 0, false, .track, 0, 0⟩

/-- The stabiliser after reset (R54). -/
def Stabiliser.reset : Stabiliser where
  mode := .off
  enable := false
  rate := .hz1024
  yaw := .reset
  pitch := .reset
  lTrack := 14
  lPan := 8
  hold := 4
  copy := none
  missingRun := 0
  validRun := 0
  cal := none

/-- The slot manager with `n` FREE slots and every counter at 0 (R37, R38, R52). -/
def SlotManager.reset (n : Nat) : SlotManager where
  table := List.replicate n .free
  freeOrder := List.range n
  completion := []
  enc := ⟨none, 0⟩
  vf := ⟨none, 0⟩
  frameCounter := 0
  torn := 0
  unshown := 0
  skips := 0
  vfFrames := 0

/-- 00:00:00:00. -/
def Timecode.zero : Timecode := ⟨⟨0, 0⟩, ⟨0, 0⟩, ⟨0, 0⟩, ⟨0, 0⟩⟩

/-- The timecode unit after reset (9.1). -/
def TimecodeUnit.reset : TimecodeUnit := ⟨.zero, .zero, .freeRun, .fps25, []⟩

/-- The ring monitor after reset (R114). -/
def RingMonitor.reset : RingMonitor where
  writeFront := 0
  releaseFront := 0
  drainAhead := 0
  shadow := List.replicate 32 0
  queue := []
  depth := 0
  frameBytes := 0
  rBpf := 0
  lastVideo := none
  drops := 0
  overruns := 0
  nextEntry := 0

/-- An EMPTY staging buffer. -/
def StagingBuffer.blank : StagingBuffer := ⟨.empty, 0, [], false⟩

/-- The card engine after reset (R134, R137, R155). -/
def CardEngine.reset : CardEngine where
  state := .absent
  recState := .idle
  present := false
  detectRun := 0
  ejected := false
  inFlight := none
  mountCmd := none
  dirJobs := []
  writeProtect := false
  unitTotal := 0
  mirror := none
  mirrorWrites := 0
  freeUnits := 0
  retired := 0
  clipNumber := 0
  clip := none
  bufA := .blank
  bufB := .blank
  request := none
  pendingStart := none
  startSlot := none
  stopSlot := none
  ejectSlot := none
  formatSlot := none

/-- The recording side after reset. -/
def Recorder.reset : Recorder := ⟨.reset, .reset, .reset⟩

/-- An audio channel after reset (R164). -/
def Channel.reset : Channel where
  enable := false
  threshold := 8388607
  release := 32
  gain := 32768
  block := none
  peak := 0
  held := 0
  holdCount := 0
  fallCount := 0
  overSet := false

/-- An empty cell (11.1). -/
def CellContent.blank : CellContent := ⟨0, 0, false, false⟩

/-- The empty host layer: 27 rows of 48 cells. -/
def Overlay.blankLayer : List (List CellContent) := List.replicate 27 (List.replicate 48 .blank)

/-- The palette after reset (R184). -/
def Overlay.defaultPalette : Vector Colour 4 :=
  #v[⟨235, 128, 128⟩, ⟨81, 90, 240⟩, ⟨210, 16, 146⟩, ⟨145, 54, 34⟩]

/-- The overlay unit after reset (R174; the level in the snapshot: log 58). -/
def Overlay.reset : Overlay where
  columns := 48
  rows := 27
  host := blankLayer
  fields := Vector.replicate 9 ⟨0, 0, false⟩
  live := []
  palette := defaultPalette
  zebra := false
  level := 235
  snapshot := ⟨blankLayer, [], defaultPalette, false, 235, 0⟩

/-- The control block base the straps choose (R5). -/
def strapBase (strap1 strap0 : Bool) : Nat :=
  match strap1, strap0 with
  | false, false => 0x00000000
  | false, true => 0x00100000
  | true, false => 0x08000000
  | true, true => 0x0FFFF800

/-- The region map after a reset that samples these straps (R5, R6). Only the setting 1,1 overlaps a default region. -/
def RegionMap.reset (pins : Pins) : RegionMap where
  controlBase := strapBase pins.strap1 pins.strap0
  privBase := 0x0FFC0000
  audioBase := 0x03000000
  audioSize := 0x10000
  ringBase := 0x04000000
  ringSize := 0x02000000
  slotBase := 0x01000000
  slotCount := 4
  cw := 2112
  ch := 1188
  vw := 1920
  vh := 1080
  conflict := pins.strap1 && pins.strap0

/-- The command unit after reset (R19). -/
def CommandUnit.reset : CommandUnit := ⟨[], Vector.replicate 16 ⟨.noOutcome, 0, 0⟩, none⟩

/-- The report unit after a reset of the kind given (R27, R28, R33). -/
def ReportUnit.reset (cause : ResetCause) : ReportUnit where
  pending := 0
  mask := 0xFFFFFFFF
  clearMode := .onRead
  cause := cause
  groups := ⟨false, false, false, false, false, false⟩
  image := none

/-- The part after a POWER_ON or PIN reset that samples the pins given. -/
def Part.reset (cause : ResetCause) (pins : Pins) : Part where
  phase := .stalled
  bus := ⟨.reset, .reset cause, []⟩
  link := ⟨[], [], none, none⟩
  map := .reset pins
  lastGrant := .part
  slots := .reset 4
  stab := .reset
  lens := .reset pins
  recd := .reset
  audio := Vector.replicate 4 .reset
  overlay := .reset
  choices := 0

/-- The machine right after POWER_ON with straps 0,0 and both home sensors inactive (log 3): the start-up stall, memory
with nothing listed, no command waiting. -/
def State.reset : State where
  part := .reset .powerOn ⟨false, false, false, false⟩
  mem := []
  pending := []

end Sys2Proof.Machine
end

