-- ==== Sys2Proof/Machine/Arith.lean ====
section
/-! DEFINITION. The arithmetic the manual names (00_scope "Arithmetic"), and the byte order of its records
(00_scope "Numbers and units": least significant byte first). -/

namespace Sys2Proof.Machine

/-- trunc: a division rounded toward zero. -/
def truncDiv (a b : Int) : Int := Int.tdiv a b

/-- The distance of `n / d` from zero rounded to the nearest integer, halves up (`d` above 0). -/
def roundNat (n d : Nat) : Nat := (2 * n + d) / (2 * d)

/-- round: `n / d` rounded to the nearest integer, ties away from zero (`d` above 0). -/
def roundDiv (n : Int) (d : Nat) : Int :=
  if n < 0 then -(roundNat n.natAbs d : Int) else (roundNat n.natAbs d : Int)

/-- Limited to the range `lo..hi`. -/
def clampInt (lo hi v : Int) : Int := max lo (min hi v)

/-- sat16 (00_scope "Arithmetic"). -/
def sat16 (v : Int) : Int := clampInt (-32768) 32767 v

/-- The bit length of a number; that of 0 is taken as 0. -/
def bitLength (n : Nat) : Nat := if n = 0 then 0 else Nat.log2 n + 1

/-- Rounded up to a multiple of `m`. -/
def upToMultiple (m v : Nat) : Nat := (v + m - 1) / m * m

/-- A 32-bit counter that stays at 4,294,967,295 (R38, R114, R136). -/
def saturate32 (n : Nat) : Nat := min 4294967295 (n + 1)

/-- The `k` bytes of `n`, least significant first. -/
def leBytes : Nat → Nat → List Byte
  | 0, _ => []
  | k + 1, n => BitVec.ofNat 8 n :: leBytes k (n / 256)

/-- The number that bytes stand for, least significant first. -/
def leNat : List Byte → Nat
  | [] => 0
  | b :: bs => b.toNat + 256 * leNat bs

/-- The bytes `i` to `i + k - 1` of a list; a byte past its end is 0. -/
def bytesAt (bs : List Byte) (i k : Nat) : List Byte :=
  (List.range k).map fun j => bs.getD (i + j) 0

/-- The number in the `k` bytes at `i`. -/
def fieldAt (bs : List Byte) (i k : Nat) : Nat := leNat (bytesAt bs i k)

/-- `v` in two's complement in `k` bytes (12: a signed field). -/
def signedBytes (k : Nat) (v : Int) : List Byte := leBytes k (v % (256 ^ k : Nat)).toNat

/-- A flag as one byte. -/
def flagByte (b : Bool) : Byte := if b then 1 else 0

/-- Byte `i` of a beat's data. -/
def WriteBeat.bytes (b : WriteBeat) : List Byte := b.data.toList

/-- The enables of a beat, byte 0 first. -/
def WriteBeat.flags (b : WriteBeat) : List Bool := b.enables.toList

/-- Whether the enables of the `k` bytes at `i` are all set: the beat covers them (R1). -/
def coversAt (en : List Bool) (i k : Nat) : Bool :=
  (List.range k).all fun j => en.getD (i + j) false

/-- The bytes at `i` of `old` replaced by `new`. -/
def putBytes (old new : List Byte) (i : Nat) : List Byte :=
  old.take i ++ new ++ old.drop (i + new.length)

/-- `new` where the enable is set, `old` elsewhere. -/
def mergeBytes : List Byte → List Byte → List Bool → List Byte
  | o :: os, n :: ns, e :: es => (if e then n else o) :: mergeBytes os ns es
  | os, _, _ => os

/-- A signed 16-bit reading as a number (R53). -/
def gyroRaw (v : BitVec 16) : Int := v.toInt

end Sys2Proof.Machine
end

