-- ==== Sys2Proof/Machine/Memory.lean ====
section
/-! DEFINITION. Bytes at addresses in one canonical form. The frame memory (R17), the command shadow (R19) and the card
mirrors (R136) are held this way. -/

namespace Sys2Proof.Machine

/-- What a byte that nothing has written reads as. R18 and R36 leave the frame memory undefined after POWER_ON; the
model reads 0x00 there. DESIGN CHOICE, unsafe (log 4). For the shadow it is the reset value R19 gives. -/
def Memory.unlisted : Byte := 0x00

/-- The canonical form: addresses strictly rising, and no listed byte equal to what an unlisted one reads as. -/
def Memory.wf : Memory → Bool
  | [] => true
  | [c] => decide (c.2 ≠ Memory.unlisted)
  | c :: d :: m => decide (c.1 < d.1) && decide (c.2 ≠ Memory.unlisted) && Memory.wf (d :: m)

/-- The byte at an address (R17). -/
def Memory.read : Memory → Nat → Byte
  | [], _ => Memory.unlisted
  | c :: m, a => if c.1 = a then c.2 else Memory.read m a

/-- The memory after a byte is written (R17); the canonical form is kept. -/
def Memory.write : Memory → Nat → Byte → Memory
  | [], a, b => if b = Memory.unlisted then [] else [(a, b)]
  | c :: m, a, b =>
    if a < c.1 then (if b = Memory.unlisted then c :: m else (a, b) :: c :: m)
    else if a = c.1 then (if b = Memory.unlisted then m else (a, b) :: m)
    else c :: Memory.write m a b

/-- The `n` bytes from an address on. -/
def Memory.readBytes (m : Memory) (a n : Nat) : List Byte := (List.range n).map fun i => m.read (a + i)

/-- A number stored least significant byte first. -/
def Memory.readNat (m : Memory) (a n : Nat) : Nat := leNat (m.readBytes a n)

/-- Bytes written from an address on. -/
def Memory.writeBytes : Memory → Nat → List Byte → Memory
  | m, _, [] => m
  | m, a, b :: bs => Memory.writeBytes (m.write a b) (a + 1) bs

/-- Bytes written from an address on where their enable is set (R17). -/
def Memory.writeMasked : Memory → Nat → List Byte → List Bool → Memory
  | m, a, b :: bs, e :: es => Memory.writeMasked (if e then m.write a b else m) (a + 1) bs es
  | m, _, _, _ => m

end Sys2Proof.Machine
end

