-- ==== Sys2Proof/Machine/Flags.lean ====
section
/-! DEFINITION. The event factors, the INT line (section 2.4) and the changed-group set (R27). -/

namespace Sys2Proof.Machine

/-- The number of a factor (section 2.4). -/
def Factor.number : Factor → Nat
  | .zoomDone => 0
  | .focusDone => 1
  | .homeDone => 2
  | .limitReached => 3
  | .mark => 4
  | .axisFault => 5
  | .gyroLost => 6
  | .gyroBack => 7
  | .calDone => 8
  | .calFailed => 9
  | .pan => 10
  | .frameTorn => 11
  | .captureSpill => 12
  | .encSkip => 13
  | .recStarted => 14
  | .recStopped => 15
  | .clipClosed => 16
  | .queueFull => 17
  | .ringOverrun => 18
  | .chunkReject => 19
  | .cardIn => 20
  | .cardOut => 21
  | .cardFilled => 22
  | .cardFault => 23
  | .unitRetired => 24
  | .audioOver => 25
  | .addressHole => 26
  | .privateWrite => 27
  | .slotCollision => 28
  | .cmdDone => 29
  | .gripRec => 30
  | .initDone => 31

/-- The bit of a factor in the pending word and the mask (12.1). -/
def Factor.bit (f : Factor) : Word := 1#32 <<< f.number

/-- The E factors: AXIS_FAULT, GYRO_LOST, QUEUE_FULL, RING_OVERRUN, CARD_OUT, CARD_FAULT, ADDRESS_HOLE and
PRIVATE_WRITE (section 2.4). -/
def eFactors : Word :=
  Factor.axisFault.bit ||| Factor.gyroLost.bit ||| Factor.queueFull.bit ||| Factor.ringOverrun.bit |||
    Factor.cardOut.bit ||| Factor.cardFault.bit ||| Factor.addressHole.bit ||| Factor.privateWrite.bit

/-- INT (R29): an E factor is pending, or a V factor whose mask bit is clear. -/
def ReportUnit.int (r : ReportUnit) : Bool := r.pending &&& (eFactors ||| ~~~r.mask) != 0#32

/-- No flag of the changed-group set. -/
def Groups.none : Groups := ⟨false, false, false, false, false, false⟩

/-- All six flags (R27). -/
def Groups.all : Groups := ⟨true, true, true, true, true, true⟩

/-- The changed-group word (12.1): bit 0 LENS, 1 STAB, 2 REC, 3 CARD, 4 AUDIO, 5 FRAME. -/
def Groups.word (g : Groups) : Nat :=
  g.lens.toNat + 2 * g.stab.toNat + 4 * g.recd.toNat + 8 * g.card.toNat + 16 * g.audio.toNat + 32 * g.frame.toNat

/-- The set without the flags that a returned changed-group word shows (R27); only bits 0 to 5 count (R185). -/
def Groups.clear (g : Groups) (returned : Nat) : Groups where
  lens := g.lens && !returned.testBit 0
  stab := g.stab && !returned.testBit 1
  recd := g.recd && !returned.testBit 2
  card := g.card && !returned.testBit 3
  audio := g.audio && !returned.testBit 4
  frame := g.frame && !returned.testBit 5

/-- The set with the flag of every group in which a record differs from the image (R27): all six without an image. -/
def Groups.compare (g : Groups) (now : StatusRecord) : Option StatusRecord → Groups
  | .none => .all
  | some old =>
    { lens := g.lens || decide (now.lens ≠ old.lens)
      stab := g.stab || decide (now.stab ≠ old.stab)
      recd := g.recd || decide (now.recd ≠ old.recd)
      card := g.card || decide (now.card ≠ old.card)
      audio := g.audio || decide (now.audio ≠ old.audio)
      frame := g.frame || decide (now.frame ≠ old.frame) }

end Sys2Proof.Machine
end

