-- ==== Sys2Proof/Machine/Operands.lean ====
section
/-! DEFINITION. Reading and judging the operands of host commands (R22, R186): operand words are unsigned, and the
first that fails its test gives the refusal. -/

namespace Sys2Proof.Machine

/-- How the owning block answers a command at its take (R22): an outcome code, PENDING among them, and a detail. -/
structure Verdict where
  code : OutcomeCode
  detail : Nat
  deriving DecidableEq, Repr

/-- Carried out. -/
def Verdict.done : Verdict := ⟨.done, 0⟩

/-- Taken and left in progress. -/
def Verdict.pending : Verdict := ⟨.pending, 0⟩

/-- Refused with detail 0. -/
def Verdict.refuse (c : OutcomeCode) : Verdict := ⟨c, 0⟩

/-- Refused BAD_VALUE with the index of the operand. -/
def Verdict.badValue (index : Nat) : Verdict := ⟨.badValue, index⟩

/-- One test of a judgement: whether it passes, and the refusal if it fails. -/
abbrev Check := Bool × Verdict

/-- An operand's test: BAD_VALUE with its index unless it passes. -/
def operandTest (index : Nat) (ok : Bool) : Check := (ok, .badValue index)

/-- A test of the owner's state: refused with the code unless it passes. -/
def ownerTest (ok : Bool) (code : OutcomeCode) : Check := (ok, .refuse code)

/-- The first test that fails decides (R22). -/
def firstFailure : List Check → Option Verdict
  | [] => none
  | (true, _) :: cs => firstFailure cs
  | (false, v) :: _ => some v

/-- The sixteen command slots in order (02 section 2.1). -/
def allSlots : List CmdSlot := [0, 1, 2, 3, 4, 5, 6, 7, 8, 9, 10, 11, 12, 13, 14, 15]

/-- `lo ≤ v ≤ hi`. -/
def within (lo hi v : Nat) : Bool := decide (lo ≤ v) && decide (v ≤ hi)

/-- The axis a selector names: 0 zoom, 1 focus (12.1). -/
def axisOf (sel : Byte) : Option AxisName :=
  if sel = 0 then some .zoom else if sel = 1 then some .focus else none

/-- The other axis. -/
def otherAxis : AxisName → AxisName
  | .zoom => .focus
  | .focus => .zoom

/-- The channel a selector names (12.1). -/
def channelOf (sel : Byte) : Option ChannelNo :=
  if h : sel.toNat < 4 then some ⟨sel.toNat, h⟩ else none

/-- The start condition that operands 3 and 4 of a MOVE give, if they give a waiting one (section 6.5). -/
def startCondOf (condition argument : Nat) : Option StartCond :=
  match condition, argument with
  | 1, 0 => some (.afterStop .zoom)
  | 1, 1 => some (.afterStop .focus)
  | 2, 0 => some (.onMark .zoomA)
  | 2, 1 => some (.onMark .zoomB)
  | 2, 2 => some (.onMark .focusA)
  | 2, 3 => some (.onMark .focusB)
  | 2, 4 => some (.onMark .zoomAccelEnd)
  | 2, 5 => some (.onMark .zoomDecelStart)
  | 2, 6 => some (.onMark .frame)
  | 2, 7 => some (.onMark .recStarted)
  | _, _ => none

/-- A BCD pair from a byte (12). -/
def Bcd.ofNat (b : Nat) : Bcd := ⟨b / 16, b % 16⟩

/-- A BCD pair as a byte. -/
def Bcd.toNat (d : Bcd) : Nat := d.tens * 16 + d.units

/-- The number a BCD pair stands for. -/
def Bcd.value (d : Bcd) : Nat := d.tens * 10 + d.units

/-- A timecode field: byte 0 FF, byte 1 SS, byte 2 MM, byte 3 HH (12). -/
def Timecode.ofNat (w : Nat) : Timecode where
  ff := .ofNat (w % 256)
  ss := .ofNat (w / 256 % 256)
  mm := .ofNat (w / 65536 % 256)
  hh := .ofNat (w / 16777216 % 256)

/-- A timecode as a timecode field (12). -/
def Timecode.toNat (t : Timecode) : Nat :=
  t.ff.toNat + 256 * t.ss.toNat + 65536 * t.mm.toNat + 16777216 * t.hh.toNat

end Sys2Proof.Machine
end

