-- ==== Sys2Proof/Machine/Ops.lean ====
section
/-! DEFINITION. The operations every block uses: raising a factor, asking for a record write, ending a command, and the
taking of a command (02). -/

namespace Sys2Proof.Machine

/-- The number of an outcome code (R22). -/
def OutcomeCode.number : OutcomeCode → Nat
  | .noOutcome => 0
  | .pending => 1
  | .done => 2
  | .aborted => 3
  | .superseded => 4
  | .failed => 5
  | .unknownKind => 16
  | .badValue => 17
  | .busy => 18
  | .notReady => 19
  | .notHomed => 20
  | .noLensTable => 21
  | .noCard => 22
  | .outOfLimit => 23
  | .overlap => 24
  | .cardFull => 25
  | .cardProtected => 26

/-- The code refuses a command at its take (R22). -/
def OutcomeCode.refused (c : OutcomeCode) : Bool := decide (16 ≤ c.number)

/-- A PART request joins the class, newest last (R15, R16). -/
def Bus.request (r : PartReq) (b : Bus) : Bus := { b with partQ := b.partQ ++ [r] }

/-- A cause for a status record write: none is added while one waits (R25). -/
def Bus.requestStatus (b : Bus) : Bus := if .status ∈ b.partQ then b else b.request .status

/-- A cause for a factor record write: none is added while one waits (R28). -/
def Bus.requestFactor (b : Bus) : Bus := if .factor ∈ b.partQ then b else b.request .factor

/-- A new pending set; a change requests a factor record write (R28). -/
def Bus.setPending (w : Word) (b : Bus) : Bus :=
  if w = b.report.pending then b
  else Bus.requestFactor { b with report := { b.report with pending := w } }

/-- A factor is raised: it joins the pending set (R28). -/
def Bus.raise (f : Factor) (b : Bus) : Bus := b.setPending (b.report.pending ||| f.bit)

/-- A slot's last outcome and its outcome write, under the use count and kind of its take (R23, R24). -/
def Bus.answer (slot : CmdSlot) (v : Verdict) (ack : Word) (b : Bus) : Bus :=
  let r := b.cmd.slots[slot]
  Bus.request (.outcome slot v.code (BitVec.ofNat 8 v.detail) r.uses r.kind ack)
    { b with cmd := { b.cmd with slots := b.cmd.slots.set slot { r with last := v.code } } }

/-- A command in progress ends (R24). -/
def Bus.finish (slot : CmdSlot) (code : OutcomeCode) (detail : Nat) (b : Bus) : Bus := b.answer slot ⟨code, detail⟩ 0

/-- A take begins: the use count rises by 1, modulo 256, and the kind is kept (R22). -/
def Bus.beginTake (slot : CmdSlot) (kind : Byte) (b : Bus) : Bus :=
  let r := b.cmd.slots[slot]
  { b with cmd := { b.cmd with slots := b.cmd.slots.set slot { r with uses := r.uses + 1, kind := kind } } }

/-- A stamp write of queue entry `entry` that waits carries OVERWRITTEN (R124). -/
def PartReq.overwrite (entry : Nat) : PartReq → PartReq
  | .stamp n a timecode rateMode estimated overwritten =>
    .stamp n a timecode rateMode estimated (overwritten || decide (n = entry))
  | r => r

/-- What a block asks of the command unit, the report unit and the arbiter, in order. `overwrite`: the stamp write of an entry
that is still to be granted carries OVERWRITTEN (R124). -/
inductive Out
  | raise (f : Factor)
  | finish (slot : CmdSlot) (code : OutcomeCode) (detail : Nat)
  | status
  | request (r : PartReq)
  | overwrite (entry : Nat)
  deriving DecidableEq, Repr

/-- One such demand met. -/
def Bus.meet (b : Bus) : Out → Bus
  | .raise f => b.raise f
  | .finish slot code detail => b.finish slot code detail
  | .status => b.requestStatus
  | .request r => b.request r
  | .overwrite entry => { b with partQ := b.partQ.map (PartReq.overwrite entry) }

/-- A block's demands met in order. -/
def Bus.meetAll (outs : List Out) (b : Bus) : Bus := outs.foldl Bus.meet b

/-- A block at work: its state so far and what it has handed to the other blocks, oldest first. -/
structure Job (σ ε : Type) where
  st : σ
  out : List ε
  deriving DecidableEq, Repr

/-- A job that has handed over nothing. -/
def Job.start {σ ε : Type} (st : σ) : Job σ ε := ⟨st, []⟩

/-- The job hands something over. -/
def Job.emit {σ ε : Type} (j : Job σ ε) (e : ε) : Job σ ε := { j with out := j.out ++ [e] }

/-- The job changes its block. -/
def Job.change {σ ε : Type} (j : Job σ ε) (f : σ → σ) : Job σ ε := { j with st := f j.st }

/-- A take from its beginning to its first outcome write (R22, R23). `selOk`: the selector is in the kind's range;
`ack`: the factor set an EVENT_ACK notes; `carry`: the owning block's judgement and action. The outcome write is requested
after every request of the owning block (the model's choice, log 59). -/
def Part.take (slot : CmdSlot) (kind : Byte) (selOk : Bool) (ack : Word) (carry : Part → Part × Verdict) (p : Part) : Part :=
  let p := { p with bus := p.bus.beginTake slot kind }
  let r :=
    if (p.map.conflict && decide (kind ≠ 0x01)) || p.bus.cmd.restart.isSome then (p, Verdict.refuse .notReady)
    else if !selOk then (p, Verdict.badValue 0)
    else carry p
  { r.1 with bus := r.1.bus.answer slot r.2 (if r.2.code = .done then ack else 0) }

/-- A slot is checked with a command offered in it (R20, R21): nothing before INIT_DONE, a collision while the slot's
last outcome is PENDING, and otherwise the take. -/
def Part.offer (slot : CmdSlot) (taken : Part → Part) (p : Part) : Part :=
  if p.phase ≠ .running then p
  else if p.bus.cmd.slots[slot].last = .pending then { p with bus := p.bus.raise .slotCollision }
  else taken p

/-- A lens-side judgement carried out on the part. -/
def Part.onLens (f : Lens → Job Lens Out × Verdict) (p : Part) : Part × Verdict :=
  let r := f p.lens
  ({ p with lens := r.1.st, bus := p.bus.meetAll r.1.out }, r.2)

/-- A lens-side event carried out on the part. -/
def Part.lensJob (f : Job Lens Out → Job Lens Out) (p : Part) : Part :=
  let j := f (.start p.lens)
  { p with lens := j.st, bus := p.bus.meetAll j.out }

end Sys2Proof.Machine
end

