-- ==== Sys2Proof/Machine/Audio.lean ====
section
/-! DEFINITION. The audio path (10): samples in flight (R165 to R170), the meter (R171, R172), AUDIO_SET (R173), RESTART and
REGION (R164). -/

namespace Sys2Proof.Machine

/-- The lowest gain g_min (R164). -/
def minGain : Nat := 3277

/-- Unity gain. -/
def unityGain : Nat := 32768

/-- Full scale. -/
def fullScale : Nat := 8388607

/-- Block tracking (R166). -/
def Channel.track (block : Nat) (c : Channel) : Channel :=
  match c.block with
  | none => { c with block := some block }
  | some b => if b = block then c else { c with block := some block, gain := min unityGain (c.gain + c.release) }

/-- A sample scaled by a gain (R167 step 1). -/
def scaled (x : Int) (gain : Nat) : Int := roundDiv (x * gain) 32768

/-- A value clipped to a magnitude (R167 steps 3 and 4). -/
def clipTo (t : Nat) (y : Int) : Int := clampInt (-t) t y

/-- One sample through the limiter: the gain after it and the value written (R167, R168). -/
def Channel.limit (x : Int) (c : Channel) : Nat × Int :=
  if !c.enable then (c.gain, x)
  else
    let y := scaled x c.gain
    if y.natAbs ≤ c.threshold then (c.gain, clipTo fullScale y)
    else
      let g := max minGain (c.threshold * 32768 / x.natAbs)
      (g, clipTo fullScale (clipTo c.threshold (scaled x g)))

/-- The sample is an overload (R169). -/
def overloaded (x : Int) : Bool := decide (8388607 ≤ x.natAbs)

/-- The magnitude the meter takes (R170). -/
def meterLevel (y : Int) : Nat := min fullScale y.natAbs

/-- One sample of a channel in a limiter block (R165 to R170): the channel after it and the value written. -/
def Channel.sample (block : Nat) (x : Int) (c : Channel) : Channel × Int :=
  let c := c.track block
  let l := c.limit x
  ({ c with gain := l.1, overSet := c.overSet || overloaded x, peak := max c.peak (meterLevel l.2) }, l.2)

/-- The sample in the four bytes of a word: bytes 1 to 3, signed (10.1). -/
def sampleOf (word : List Byte) : Int :=
  let n := fieldAt word 1 3
  if n < 8388608 then n else (n : Int) - 16777216

/-- A word that holds a sample, its lowest byte zero (R165). -/
def sampleWord (y : Int) : List Byte := 0 :: signedBytes 3 y

/-- The audio path at work on a beat: the channels, the beat's bytes so far, and whether a sample was an overload. -/
structure AudioPass where
  channels : Vector Channel 4
  bytes : List Byte
  overload : Bool
  deriving DecidableEq, Repr

/-- The channel of a word at a ring offset (10.1). -/
def channelAt (o : Nat) : ChannelNo := ⟨o % 16 / 4, by omega⟩

/-- The words of a beat from ring offset `o` on, handled in address order (R165). A word that is not covered passes as
written. -/
def AudioPass.words : Nat → List Byte → List Bool → Nat → AudioPass → AudioPass
  | 0, _, _, _, p => p
  | n + 1, data, en, o, p =>
    let word := data.take 4
    let next :=
      if coversAt en 0 4 then
        let i := channelAt o
        let x := sampleOf word
        let r := p.channels[i].sample (o / 4096) x
        ⟨p.channels.set i r.1, p.bytes ++ sampleWord r.2, p.overload || overloaded x⟩
      else { p with bytes := p.bytes ++ word }
    AudioPass.words n (data.drop 4) (en.drop 4) (o + 4) next

/-- A WRITE beat in the audio ring at a ring offset (R10, R165). -/
def audioBeat (channels : Vector Channel 4) (o : Nat) (data : List Byte) (en : List Bool) : AudioPass :=
  AudioPass.words 8 data en o ⟨channels, [], false⟩

/-! ### Meter -/

/-- The segment of a peak (R171). -/
def segment (p : Nat) : Nat :=
  if p = 0 then 0
  else
    let b := bitLength p
    let h := if 2 ≤ b && p.testBit (b - 2) then 1 else 0
    (2 * b + h - 1) - 22

/-- A channel's metering period closes (R171, R172). -/
def Channel.frame (c : Channel) : Channel :=
  let s := segment c.peak
  let c := { c with peak := 0 }
  if c.held ≤ s then { c with held := s, holdCount := 25, fallCount := 0 }
  else if 0 < c.holdCount then { c with holdCount := c.holdCount - 1 }
  else if c.fallCount + 1 < 2 then { c with fallCount := c.fallCount + 1 }
  else { c with held := max s (c.held - 1), fallCount := 0 }

/-- A channel's held segment falls at a metering period's close (R172 step 3). -/
def Channel.falls (c : Channel) : Bool := decide (c.frame.held < c.held)

/-- All four channels changed alike. -/
def channelsMap (f : Channel → Channel) (v : Vector Channel 4) : Vector Channel 4 := #v[f v[0], f v[1], f v[2], f v[3]]

/-- A channel at the restart point (R164). -/
def Channel.restart (c : Channel) : Channel :=
  { Channel.reset with enable := c.enable, threshold := c.threshold, release := c.release }

/-- A channel after a REGION that moves or resizes the audio ring (R164). -/
def Channel.ringMoved (c : Channel) : Channel := { c with block := none }

/-! ### AUDIO_SET -/

/-- AUDIO_SET for a channel (R173). -/
def Channel.set (enable threshold release clearOver : Nat) (c : Channel) : Channel × Verdict :=
  let tests :=
    [operandTest 1 (decide (enable ≤ 1)), operandTest 2 (within 65536 8388607 threshold),
     operandTest 3 (within 1 512 release), operandTest 4 (decide (clearOver ≤ 1))]
  match firstFailure tests with
  | some v => (c, v)
  | none =>
    ({ c with
        enable := decide (enable = 1)
        threshold := threshold
        release := release
        overSet := c.overSet && decide (clearOver = 0) }, .done)

end Sys2Proof.Machine
end

