-- ==== Sys2Proof/Machine/Timecode.lean ====
section
/-! DEFINITION. The timecode unit (09): counting (R157, R158), validity (R156), the frame log (R162, R163), the action at
a frame complete (R159) and the record-run counter (R160). -/

namespace Sys2Proof.Machine

/-- The frames-per-second field of a rate (9.1). -/
def TcRate.fps : TcRate → Nat
  | .fps25 => 25
  | .fps30 | .df2997 => 30

/-- The code of a rate (12.2). -/
def TcRate.code : TcRate → Nat
  | .fps25 => 0
  | .fps30 => 1
  | .df2997 => 2

/-- The code of a mode (12.2). -/
def TcMode.code : TcMode → Nat
  | .freeRun => 0
  | .recordRun => 1

/-- The timecode words of a stamp's second word: byte 0 the rate, byte 1 the mode (12.2). -/
def TimecodeUnit.rateMode (t : TimecodeUnit) : Word := BitVec.ofNat 32 (t.rate.code + 256 * t.mode.code)

/-- 00. -/
def Bcd.zero : Bcd := ⟨0, 0⟩

/-- The units digit rises by 1, with the decimal adjust (R157). -/
def Bcd.next (d : Bcd) : Bcd := if d.units + 1 = 10 then ⟨d.tens + 1, 0⟩ else ⟨d.tens, d.units + 1⟩

/-- A field rises by 1: the field after it, and whether it wrapped at its limit and carries (R157). -/
def Bcd.count (limit : Nat) (d : Bcd) : Bcd × Bool := if d.next.value = limit then (.zero, true) else (d.next, false)

/-- A timecode incremented by one frame (R157, R158). -/
def Timecode.increment (rate : TcRate) (t : Timecode) : Timecode :=
  let f := t.ff.count rate.fps
  if !f.2 then { t with ff := f.1 }
  else
    let s := t.ss.count 60
    if !s.2 then { t with ff := f.1, ss := s.1 }
    else
      let m := t.mm.count 60
      let ff : Bcd := if rate = .df2997 ∧ m.1.units ≠ 0 then ⟨0, 2⟩ else f.1
      if !m.2 then { t with ff := ff, ss := s.1, mm := m.1 }
      else { ff := ff, ss := s.1, mm := m.1, hh := (t.hh.count 24).1 }

/-- Both digits lie in 0..9. -/
def Bcd.digits (d : Bcd) : Bool := decide (d.tens ≤ 9) && decide (d.units ≤ 9)

/-- A value that drop-frame counting skips (9.1). -/
def Timecode.skipped (t : Timecode) : Bool :=
  decide (t.ss.value = 0) && decide (t.ff.value ≤ 1) && decide (t.mm.units ≠ 0)

/-- A timecode valid at a rate (R156). -/
def Timecode.valid (rate : TcRate) (t : Timecode) : Bool :=
  t.hh.digits && t.mm.digits && t.ss.digits && t.ff.digits &&
    decide (t.hh.value ≤ 23) && decide (t.mm.value ≤ 59) && decide (t.ss.value ≤ 59) && decide (t.ff.value < rate.fps) &&
    !(decide (rate = .df2997) && t.skipped)

/-- A frame complete reaches the timecode unit (R159, R162). -/
def TimecodeUnit.frame (frame : Nat) (t : TimecodeUnit) : TimecodeUnit :=
  let now := match t.mode with
    | .freeRun => t.current.increment t.rate
    | .recordRun => t.current
  let kept := if t.log.length < 32 then t.log else t.log.drop 1
  { t with current := now, log := kept ++ [⟨frame, now, t.rate⟩] }

/-- The timecode of a frame number, and TC_ESTIMATED (R163). -/
def TimecodeUnit.lookup (frame : Nat) (t : TimecodeUnit) : Timecode × Bool :=
  match t.log.find? fun e => e.frame = frame with
  | some e => (e.timecode, false)
  | none => (t.current, true)

/-- The record-run counter is taken: it increments by one frame (R160). -/
def TimecodeUnit.takeRecordRun (t : TimecodeUnit) : TimecodeUnit := { t with recordRun := t.recordRun.increment t.rate }

/-- The timecode unit at the restart point (9.1). -/
def TimecodeUnit.restart (t : TimecodeUnit) : TimecodeUnit := { t with log := [] }

/-- The rate that operand 3 of TC_SET names (9.4). -/
def tcRateOf : Nat → TcRate
  | 1 => .fps30
  | 2 => .df2997
  | _ => .fps25

/-- The tests of TC_SET, in order (R161). -/
def tcSetTests (timecode mode rate : Nat) (r : RecState) : List Check :=
  [operandTest 2 (decide (mode ≤ 1)),
   operandTest 3 (decide (rate ≤ 2)),
   operandTest 1 ((Timecode.ofNat timecode).valid (tcRateOf rate)),
   ownerTest (decide (r ≠ .recording) && decide (r ≠ .stopping) && decide (r ≠ .closing)) .busy]

/-- An accepted TC_SET (R161). -/
def TimecodeUnit.set (timecode mode rate : Nat) (t : TimecodeUnit) : TimecodeUnit :=
  { t with
    current := .ofNat timecode
    recordRun := .ofNat timecode
    mode := if mode = 1 then .recordRun else .freeRun
    rate := tcRateOf rate }

/-- The nominal rate N of the remaining minutes (R132). -/
def TcRate.nominal (r : TcRate) : Nat := r.fps

end Sys2Proof.Machine
end

