-- ==== Sys2Proof/Machine/RingQueue.lean ====
section
/-! DEFINITION. The ring monitor's pointers and chunk queue (07): free space (R114), trimming (R116, R122, R123), release
and discard (R129, R130), and the drain front (R128). `R` is the ring size. Positions are counted forward from the
release front, so that order in the ring is order of numbers. -/

namespace Sys2Proof.Machine

/-- The kind a header's code gives (7.1). -/
def chunkKindOf : Nat → Option ChunkKind
  | 1 => some .videoKey
  | 2 => some .videoDelta
  | 3 => some .audio
  | 4 => some .metadata
  | _ => none

/-- The chunk is a picture (7.1). -/
def ChunkKind.isVideo : ChunkKind → Bool
  | .videoKey | .videoDelta => true
  | .audio | .metadata => false

/-- A chunk's span (R114). -/
def chunkSpan (length : Nat) : Nat := 32 + upToMultiple 32 length

/-- The entry is kept as pre-record. -/
def QueueEntry.isRetained (e : QueueEntry) : Bool := decide (e.state = .retained)

/-- The card engine may read the entry's bytes (R128). -/
def QueueEntry.readable (e : QueueEntry) : Bool :=
  match e.state with
  | .stamped | .draining | .drained => true
  | .retained | .joined => false

/-- The entry belongs to the open clip (R115). -/
def QueueEntry.isJoined (e : QueueEntry) : Bool := !e.isRetained

/-- How far an offset lies forward of the release front. -/
def RingMonitor.ahead (R : Nat) (m : RingMonitor) (offset : Nat) : Nat := (offset + R - m.releaseFront) % R

/-- The free space (R114). -/
def RingMonitor.freeSpace (R : Nat) (m : RingMonitor) : Nat :=
  if m.queue.isEmpty then R else (m.releaseFront + R - m.writeFront) % R

/-- The drain front (7.1). -/
def RingMonitor.drainFront (R : Nat) (m : RingMonitor) : Nat := (m.releaseFront + m.drainAhead) % R

/-- The queue holds a RETAINED entry. -/
def RingMonitor.hasRetained (m : RingMonitor) : Bool := m.queue.any QueueEntry.isRetained

/-- The release front moves to the oldest entry of a new queue, or to the write front (R116, R129). The drain front stays
where it is, or follows the release front where no joined entry is left. -/
def RingMonitor.withQueue (R : Nat) (q : List QueueEntry) (m : RingMonitor) : RingMonitor :=
  let front := (q.head?.map QueueEntry.offset).getD m.writeFront
  let moved := m.ahead R front
  { m with
    queue := q
    releaseFront := front
    drainAhead := if q.any QueueEntry.isJoined then m.drainAhead - moved else 0 }

/-- The queue split into what stands before its first RETAINED entry and the rest (R115). -/
def RingMonitor.joinedRun (m : RingMonitor) : List QueueEntry := m.queue.takeWhile QueueEntry.isJoined

/-- The RETAINED run (R115). -/
def RingMonitor.retainedRun (m : RingMonitor) : List QueueEntry := m.queue.dropWhile QueueEntry.isJoined

/-- What is left of a run of entries after the GOP at its front is removed (R116). -/
def afterGop : List QueueEntry → List QueueEntry
  | [] => []
  | _ :: q => q.dropWhile fun e => decide (e.kind ≠ .videoKey)

/-- The oldest RETAINED GOP is trimmed (R116). -/
def RingMonitor.trim (R : Nat) (m : RingMonitor) : RingMonitor := m.withQueue R (m.joinedRun ++ afterGop m.retainedRun)

/-- GOPs are trimmed until a span fits or the oldest entry is not RETAINED (R119); at most `fuel` of them. -/
def RingMonitor.makeRoom (R span : Nat) : Nat → RingMonitor → RingMonitor
  | 0, m => m
  | fuel + 1, m =>
    if m.freeSpace R < span && (m.queue.head?.map QueueEntry.isRetained).getD false then
      RingMonitor.makeRoom R span fuel (m.trim R)
    else m

/-- How many RETAINED VIDEO frames the queue holds (7.4). -/
def RingMonitor.videoFrames (m : RingMonitor) : Nat := m.queue.countP fun e => e.isRetained && e.kind.isVideo

/-- GOPs are trimmed while the RETAINED VIDEO frames exceed the depth (R122); at most `fuel` of them. -/
def RingMonitor.trimDepthFor (R : Nat) : Nat → RingMonitor → RingMonitor
  | 0, m => m
  | fuel + 1, m => if m.depth < m.videoFrames then RingMonitor.trimDepthFor R fuel (m.trim R) else m

/-- Trim for depth (R122). -/
def RingMonitor.trimDepth (R : Nat) (m : RingMonitor) : RingMonitor := m.trimDepthFor R m.queue.length

/-- Some enabled byte of a beat at a ring offset lies inside an entry's span (R117). -/
def QueueEntry.touched (R offset : Nat) (enables : List Bool) (e : QueueEntry) : Bool :=
  (List.range 32).any fun i => enables.getD i false && decide ((offset + i + R - e.offset) % R < e.span)

/-- What an overrun leaves of the RETAINED run (R123): everything up to the first VIDEO_KEY after the last entry it
touches is removed. -/
def overrunRetained (touched : QueueEntry → Bool) (q : List QueueEntry) : List QueueEntry :=
  if q.any touched then
    let tail := (q.reverse.takeWhile fun e => !touched e).reverse
    tail.dropWhile fun e => decide (e.kind ≠ .videoKey)
  else q

/-! ### Draining -/

/-- An entry that follows the drain front (R128). -/
def QueueEntry.follow (start drain : Nat) (e : QueueEntry) : QueueEntry :=
  if e.isRetained || decide (0 < e.stampsWaiting) then e
  else
    { e with
      state := if drain ≤ start then .stamped else if drain < start + e.span then .draining else .drained }

/-- Every joined entry whose latest stamp write is granted follows the drain front (R128). -/
def RingMonitor.follow (R : Nat) (m : RingMonitor) : RingMonitor :=
  { m with queue := m.queue.map fun e => e.follow (m.ahead R e.offset) m.drainAhead }

/-- Where the next byte to read stands, past any bytes between entries (R128). -/
def RingMonitor.nextByte (R : Nat) (m : RingMonitor) (drain : Nat) : List QueueEntry → Nat
  | [] => drain
  | e :: q => if drain < m.ahead R e.offset + e.span then max drain (m.ahead R e.offset) else m.nextByte R drain q

/-- Where a run of readable bytes that begins at `drain` ends (R146). -/
def RingMonitor.runEnd (R : Nat) (m : RingMonitor) (drain : Nat) : List QueueEntry → Nat
  | [] => drain
  | e :: q =>
    let start := m.ahead R e.offset
    if start + e.span ≤ drain then m.runEnd R drain q
    else if start ≤ drain && e.readable then m.runEnd R (start + e.span) q
    else drain

/-- The bytes the card engine may read next: a ring offset and a count, not past the ring's end; none where it must stop
(R128, R146). -/
def RingMonitor.nextRun (R : Nat) (m : RingMonitor) : Option (Nat × Nat) :=
  let start := m.nextByte R m.drainAhead m.queue
  let length := m.runEnd R start m.queue - start
  if length = 0 then none
  else
    let offset := (m.releaseFront + start) % R
    some (offset, min length (R - offset))

/-- Some joined entry still holds bytes at or after the drain front (R151). -/
def RingMonitor.unread (R : Nat) (m : RingMonitor) : Bool :=
  m.queue.any fun e => e.isJoined && decide (m.drainAhead < m.ahead R e.offset + e.span)

/-- A unit added to an entry's units. -/
def QueueEntry.addUnit (unit : Nat) (e : QueueEntry) : QueueEntry :=
  if e.units.any fun u => u.1 = unit then e else { e with units := e.units ++ [(unit, false)] }

/-- A read notice (R128): `length` bytes from a ring offset have been read into a unit. -/
def RingMonitor.readNotice (R offset length unit : Nat) (m : RingMonitor) : RingMonitor :=
  let start := m.ahead R offset
  let q := m.queue.map fun e =>
    let s := m.ahead R e.offset
    if s < start + length && start < s + e.span then e.addUnit unit else e
  let m := { m with queue := q }
  RingMonitor.follow R { m with drainAhead := m.nextByte R (start + length) m.queue }

/-- A relocation notice (R128). -/
def RingMonitor.relocationNotice (R failed offset : Nat) (m : RingMonitor) : RingMonitor :=
  RingMonitor.follow R { m with
    queue := m.queue.map fun e => { e with units := e.units.filter fun u => u.1 ≠ failed }
    drainAhead := m.ahead R offset }

/-- An entry is DRAINED and its units are all committed (R129). -/
def QueueEntry.releasable (e : QueueEntry) : Bool := decide (e.state = .drained) && e.units.all fun u => u.2

/-- A commit notice: the unit is marked committed, and drained entries are released from the oldest end (R129). -/
def RingMonitor.commitNotice (R unit : Nat) (m : RingMonitor) : RingMonitor :=
  let q := m.queue.map fun e => { e with units := e.units.map fun u => if u.1 = unit then (u.1, true) else u }
  m.withQueue R (q.dropWhile QueueEntry.releasable)

/-- A discard notice: every joined entry leaves the queue (R130). -/
def RingMonitor.discard (R : Nat) (m : RingMonitor) : RingMonitor := m.withQueue R (m.queue.filter QueueEntry.isRetained)

/-- A stamp write for entry `number` is granted (R127). -/
def RingMonitor.stampGranted (R number : Nat) (m : RingMonitor) : RingMonitor :=
  { m with
    queue := m.queue.map fun e =>
      if e.number = number then
        { e with stampsWaiting := e.stampsWaiting - 1 }.follow (m.ahead R e.offset) m.drainAhead
      else e }

/-! ### Rates and resets -/

/-- A frame complete closes the bytes of a frame (R131). -/
def RingMonitor.frame (m : RingMonitor) : RingMonitor :=
  { m with
    rBpf := ((m.rBpf : Int) + truncDiv ((m.frameBytes : Int) - m.rBpf) 16).toNat
    frameBytes := 0 }

/-- The remaining minutes (R132). -/
def RingMonitor.minutes (freeUnits : Nat) (rate : TcRate) (m : RingMonitor) : Nat :=
  min 999 (freeUnits * 2097152 / (max m.rBpf 1 * rate.nominal * 60))

/-- The ring monitor at the restart point: all but the depth as after a reset (R114); entries keep their numbering. -/
def RingMonitor.restart (m : RingMonitor) : RingMonitor :=
  { RingMonitor.reset with depth := m.depth, nextEntry := m.nextEntry }

/-- The pointers after a REGION that changes the record ring (R8, R114). -/
def RingMonitor.moved (m : RingMonitor) : RingMonitor :=
  { m with writeFront := 0, releaseFront := 0, drainAhead := 0, shadow := List.replicate 32 0 }

end Sys2Proof.Machine
end

