-- ==== Sys2Proof/Machine/Recorder.lean ====
section
/-! DEFINITION. The recording side at work: what it hands to the other blocks, the changes of the record state and the card
state (R137), the notices that set the open clip's flags (R145), the card mirrors (R136, R187, 12.4) and the join and stamp
of an entry (R125, R127). -/

namespace Sys2Proof.Machine

/-- What the recording side hands over: a demand on the units every block speaks to, a change of the record state for the
lens coordinator (R112), or the REC_STARTED mark (R106). -/
inductive RecOut
  | bus (o : Out)
  | recState (r : RecState)
  | recStarted
  deriving DecidableEq, Repr

/-- The recording side at work. -/
abbrev RecWork := Job Recorder RecOut

/-- A demand on the bus. -/
def Job.ask (j : RecWork) (o : Out) : RecWork := j.emit (.bus o)

/-- The ring monitor changed. -/
def Job.ring (j : RecWork) (f : RingMonitor → RingMonitor) : RecWork := j.change fun r => { r with ring := f r.ring }

/-- The card engine changed. -/
def Job.card (j : RecWork) (f : CardEngine → CardEngine) : RecWork := j.change fun r => { r with card := f r.card }

/-- The timecode unit changed. -/
def Job.tc (j : RecWork) (f : TimecodeUnit → TimecodeUnit) : RecWork := j.change fun r => { r with tc := f r.tc }

/-- The open clip record changed, if there is one. -/
def Job.clip (j : RecWork) (f : OpenClip → OpenClip) : RecWork := j.card fun c => { c with clip := c.clip.map f }

/-- The command in a slot ends, where there is one. -/
def Job.endSlot (j : RecWork) (slot : Option CmdSlot) (code : OutcomeCode) (detail : Nat) : RecWork :=
  match slot with
  | some s => j.ask (.finish s code detail)
  | none => j

/-! ### States -/

/-- The record state changes (R137): a status write, the lens coordinator told, REC_STOPPED out of RECORDING, REC_STARTED
and its mark into RECORDING. -/
def Job.setRec (j : RecWork) (r : RecState) : RecWork :=
  let old := j.st.card.recState
  if r = old then j
  else
    let j := (((j.card fun c => { c with recState := r }).ask .status).emit (.recState r))
    let j := if old = .recording then j.ask (.raise .recStopped) else j
    if r = .recording then (j.ask (.raise .recStarted)).emit .recStarted else j

/-- The card state changes (R137): a status write; READY makes an IDLE record state STANDBY, and leaving READY makes a
STANDBY record state IDLE. -/
def Job.setCard (j : RecWork) (s : CardState) : RecWork :=
  if s = j.st.card.state then j
  else
    let j := (j.card fun c => { c with state := s }).ask .status
    if s = .ready then (if j.st.card.recState = .idle then j.setRec .standby else j)
    else if j.st.card.recState = .standby then j.setRec .idle
    else j

/-! ### Notices -/

/-- A gap notice (R145). -/
def Job.gap (j : RecWork) : RecWork := j.clip fun c => { c with flags := { c.flags with gap := true } }

/-- An encoder-skip notice (R145). -/
def Job.skip (j : RecWork) : RecWork :=
  j.clip fun c => { c with flags := { c.flags with skipped := true }, skipped := c.skipped + 1 }

/-- An overload notice (R145). -/
def Job.overload (j : RecWork) : RecWork := j.clip fun c => { c with flags := { c.flags with audioOver := true } }

/-! ### Mirrors -/

/-- The byte of the mirror image where clip entry `e` begins (12.4). -/
def entryAt (e : Nat) : Nat := 512 * (1 + e / 4) + 128 * (e % 4)

/-- The byte of the mirror image where a unit's map entry stands (12.4). -/
def mapAt (unit : Nat) : Nat := 0x3200 + 2 * unit

/-- The map values END and BAD (12.4). -/
def mapEnd : Nat := 0xFFFF
def mapBad : Nat := 0xFFFE

/-- The mirror image; empty while the mirrors are dropped. -/
def CardEngine.image (c : CardEngine) : Memory := c.mirror.getD []

/-- A unit's map entry in the mirror. -/
def CardEngine.mapEntry (c : CardEngine) (unit : Nat) : Nat := c.image.readNat (mapAt unit) 2

/-- The state byte of an entry in the mirror: 0 FREE, 1 OPEN, 2 CLOSED, 3 DAMAGED. -/
def CardEngine.entryState (c : CardEngine) (e : Nat) : Nat := c.image.readNat (entryAt e + 2) 1

/-- The fields of a clip entry (12.4). -/
structure ClipFields where
  number : Nat
  state : Nat
  first : Nat
  units : Nat
  length : Nat
  startTc : Nat
  frames : Nat
  flags : Nat
  skipped : Nat

/-- A clip entry of 128 bytes, its reserved bytes zero (12.4, R187). -/
def ClipFields.bytes (f : ClipFields) : List Byte :=
  leBytes 2 f.number ++ leBytes 2 f.state ++ leBytes 2 f.first ++ leBytes 2 0 ++ leBytes 4 f.units ++ leBytes 8 f.length ++
    leBytes 4 f.startTc ++ leBytes 4 f.frames ++ leBytes 2 f.flags ++ leBytes 2 0 ++ leBytes 4 f.skipped ++
    List.replicate 92 0

/-- The fields of a clip entry as they stand in 128 bytes. -/
def ClipFields.ofBytes (b : List Byte) : ClipFields where
  number := fieldAt b 0x00 2
  state := fieldAt b 0x02 1
  first := fieldAt b 0x04 2
  units := fieldAt b 0x08 4
  length := fieldAt b 0x0C 8
  startTc := fieldAt b 0x14 4
  frames := fieldAt b 0x18 4
  flags := fieldAt b 0x1C 2
  skipped := fieldAt b 0x20 4

/-- A clip entry with its reserved bytes zero, and bits 7 to 15 of its flags (log 25); a FREE entry all zero (R187). -/
def tidyEntry (b : List Byte) : List Byte :=
  let f := ClipFields.ofBytes b
  if f.state = 0 then List.replicate 128 0 else { f with flags := f.flags % 128 }.bytes

/-- The clip flags as a field (12.4). -/
def ClipFlags.word (f : ClipFlags) : Nat :=
  f.gap.toNat + 2 * f.tcEstimated.toNat + 4 * f.audioOver.toNat + 8 * f.skipped.toNat + 16 * f.endedFull.toNat +
    32 * f.endedFault.toNat + 64 * f.endedPulled.toNat

/-- The first-unit field of the open clip on a card of `units` data units; where its chain is empty, a free value of the
coding 1..U (R185, 12.4; log 26). -/
def OpenClip.firstUnit (units : Nat) (c : OpenClip) : Nat :=
  c.chain.head?.getD (1 + Config.firstUnitOfEmptyChain.toNat % units)

/-- The open clip as a clip entry in the state given: 1 OPEN or 2 CLOSED (R152). -/
def OpenClip.entryBytes (units state : Nat) (c : OpenClip) : List Byte :=
  ClipFields.bytes ⟨c.number, state, c.firstUnit units, c.unitCount, c.byteLength, c.startTc.toNat, c.videoFrames,
    c.flags.word, c.skipped⟩

/-- The marker text of the directory header, ZESWANCD (12.4). -/
def cardMarker : List Byte := [0x5A, 0x45, 0x53, 0x57, 0x41, 0x4E, 0x43, 0x44]

/-- A directory header of 512 bytes, its reserved bytes zero (12.4). -/
def headerBytes (units next : Nat) : List Byte :=
  cardMarker ++ leBytes 2 1 ++ leBytes 2 0 ++ leBytes 4 units ++ leBytes 2 next ++ List.replicate 494 0

/-- Bytes written into the mirror image, and the PART write that shows them in the private area (R136). Bytes that are
there already need no write. -/
def Job.mirrorPut (j : RecWork) (map : RegionMap) (at_ : Nat) (bytes : List Byte) : RecWork :=
  if j.st.card.image.readBytes at_ bytes.length = bytes then j
  else
    (j.card fun c => { c with mirror := some (c.image.writeBytes at_ bytes), mirrorWrites := c.mirrorWrites + 1 }).ask
      (.request (.mirror (map.privBase + at_) bytes))

/-- A run of bytes laid over the mirror image by a READ answer or a format (R133, R138, R140). -/
def Job.mirrorFill (j : RecWork) (map : RegionMap) (at_ : Nat) (bytes : List Byte) : RecWork :=
  (j.card fun c => { c with mirror := some (c.image.writeBytes at_ bytes), mirrorWrites := c.mirrorWrites + 1 }).ask
    (.request (.mirror (map.privBase + at_) bytes))

/-- A unit's map entry set (R136). -/
def Job.setMap (j : RecWork) (map : RegionMap) (unit value : Nat) : RecWork := j.mirrorPut map (mapAt unit) (leBytes 2 value)

/-- The header with its reserved bytes zero (R187). -/
def Job.tidyHeader (j : RecWork) (map : RegionMap) : RecWork :=
  j.mirrorPut map 0 (headerBytes j.st.card.unitTotal (j.st.card.image.readNat 0x10 2))

/-- Every clip entry with its reserved bytes zero (R187). -/
def Job.tidyEntries (j : RecWork) (map : RegionMap) : RecWork :=
  (List.range 96).foldl (fun j e => j.mirrorPut map (entryAt e) (tidyEntry (j.st.card.image.readBytes (entryAt e) 128))) j

/-- The map entries of unit 0 and of units above U written as 0x0000 (R187). -/
def Job.tidyMap (j : RecWork) (map : RegionMap) : RecWork :=
  let u := j.st.card.unitTotal
  (j.setMap map 0 0).mirrorPut map (mapAt (u + 1)) (List.replicate (2 * (65535 - u)) 0)

/-- The directory data of an opening, a close or a DAMAGED rewrite: every reserved byte zero, and every map entry that
names no unit (R187; log 25). The order of these mirror writes, header, entries, map, and their place after the caller's own, are
the model's choice (log 69). -/
def Job.tidyDirectory (j : RecWork) (map : RegionMap) : RecWork := ((j.tidyHeader map).tidyEntries map).tidyMap map

/-- The lowest FREE unit in 1..U (R136). -/
def CardEngine.lowestFree (c : CardEngine) : Option Nat :=
  ((List.range c.unitTotal).map (· + 1)).find? fun u => c.mapEntry u = 0

/-- How many of the units 1..U are FREE (R138 step 5). -/
def CardEngine.countFree (c : CardEngine) : Nat := ((List.range c.unitTotal).map (· + 1)).countP fun u => c.mapEntry u = 0

/-- The lowest-indexed FREE entry (R144). -/
def CardEngine.freeEntry (c : CardEngine) : Option Nat := (List.range 96).find? fun e => c.entryState e = 0

/-! ### Joining and stamping -/

/-- Word `i` of a stamp write's bytes. -/
def stampFlags (estimated overwritten : Bool) : Nat := estimated.toNat + 2 * overwritten.toNat

/-- The stamp of an entry that joins now (R127, R160), and the timecode unit and last video record-run value after it. -/
def Recorder.formStamp (e : QueueEntry) (r : Recorder) : Stamp × Recorder :=
  let t := r.tc
  match t.mode with
  | .freeRun => (⟨BitVec.ofNat 32 e.freeStamp.toNat, t.rateMode, e.estimated⟩, r)
  | .recordRun =>
    if e.kind.isVideo then
      (⟨BitVec.ofNat 32 t.recordRun.toNat, t.rateMode, false⟩,
        { r with tc := t.takeRecordRun, ring := { r.ring with lastVideo := some t.recordRun } })
    else (⟨BitVec.ofNat 32 (r.ring.lastVideo.getD t.recordRun).toNat, t.rateMode, false⟩, r)

/-- The entry named by a number becomes JOINED, its stamp formed and its stamp write requested (R127). -/
def Job.stampEntry (j : RecWork) (map : RegionMap) (e : QueueEntry) : RecWork :=
  let s := j.st.formStamp e
  let joined := { e with state := .joined, stamp := some s.1, stampsWaiting := e.stampsWaiting + 1 }
  let j := (j.change fun _ => s.2).ring fun m =>
    { m with queue := m.queue.map fun x => if x.number = e.number then joined else x }
  j.ask (.request (.stamp e.number (map.ringBase + e.offset) s.1.timecode s.1.rateMode s.1.estimated e.overwritten))

/-- Every RETAINED entry joins, oldest first (R125). -/
def Job.joinRetained (j : RecWork) (map : RegionMap) : RecWork :=
  (j.st.ring.queue.filter QueueEntry.isRetained).foldl (fun j e => j.stampEntry map e) j

end Sys2Proof.Machine
end

