-- ==== Sys2Proof/Machine/Card.lean ====
section
/-! DEFINITION. The card engine between commands (08): units (R136, R147, R148), clips (R144, R149 to R152), the filling of
the staging buffers (R146), mounts (R138) and the issue of card commands (R133). -/

namespace Sys2Proof.Machine

/-- The bytes of one batch: 256 blocks of 512 (R135). -/
def batchBytes : Nat := 131072

/-- Both staging buffers become EMPTY, and a CARD request of theirs is withdrawn with them (log 56). -/
def Job.emptyBuffers (j : RecWork) : RecWork :=
  j.card fun c =>
    { c with
      bufA := .blank
      bufB := .blank
      request := match c.request with
        | some (.dir a n) => some (.dir a n)
        | _ => none }

/-- A card command in flight is abandoned (R133). -/
def CardEngine.abandon (c : CardEngine) : CardEngine :=
  { c with inFlight := c.inFlight.map fun f => { f with abandoned := true } }

/-- Directory writes and the mount are given up, with the CARD request made for them (log 56). -/
def CardEngine.dropDirectory (c : CardEngine) : CardEngine := { c with mountCmd := none, dirJobs := [], request := none }

/-- The mirrors are dropped, and with them the free units (R153, R154, R155; log 27). -/
def CardEngine.dropMirrors (c : CardEngine) : CardEngine := { c with mirror := none, freeUnits := 0 }

/-- The card engine joins a directory WRITE to those it has ready. -/
def Job.writeDirectory (j : RecWork) (purpose : DirPurpose) (first count : Nat) : RecWork :=
  j.card fun c => { c with dirJobs := c.dirJobs ++ [⟨purpose, first, count, [], false⟩] }

/-- The last-clip record's write is requested (R152): the clip entry of the open clip. -/
def Job.lastClip (j : RecWork) (state : Nat) : RecWork :=
  match j.st.card.clip with
  | some c => j.ask (.request (.lastClip (c.entryBytes j.st.card.unitTotal state)))
  | none => j

/-- The open clip is given up with one of its ending flags set: the last-clip record, the open clip record dropped, the
joined entries discarded, the buffers empty (R149, R153). -/
def Job.loseClip (j : RecWork) (map : RegionMap) (flag : ClipFlags → ClipFlags) : RecWork :=
  let j := (j.clip fun c => { c with flags := flag c.flags }).lastClip 1
  (((j.card fun c => { c with clip := none }).ring fun m => m.discard map.ringSize)).emptyBuffers

/-! ### REC requests in progress -/

/-- The slot of a pending start, if it has one. -/
def CardEngine.pendingSlot (c : CardEngine) : Option CmdSlot :=
  match c.pendingStart with
  | some (.slot s) => some s
  | _ => none

/-- The pending start is dropped with an outcome (R142, R143). -/
def Job.dropPendingStart (j : RecWork) (code : OutcomeCode) (detail : Nat) : RecWork :=
  (j.endSlot j.st.card.pendingSlot code detail).card fun c => { c with pendingStart := none }

/-- The REC_START in progress in ARMED ends. -/
def Job.endStart (j : RecWork) (code : OutcomeCode) (detail : Nat) : RecWork :=
  (j.endSlot j.st.card.startSlot code detail).card fun c => { c with startSlot := none }

/-- The REC_STOP in progress ends. -/
def Job.endStop (j : RecWork) (code : OutcomeCode) (detail : Nat) : RecWork :=
  (j.endSlot j.st.card.stopSlot code detail).card fun c => { c with stopSlot := none }

/-- The CARD_EJECT in progress ends. -/
def Job.endEject (j : RecWork) (code : OutcomeCode) (detail : Nat) : RecWork :=
  (j.endSlot j.st.card.ejectSlot code detail).card fun c => { c with ejectSlot := none }

/-- The CARD_FORMAT in progress ends. -/
def Job.endFormat (j : RecWork) (code : OutcomeCode) (detail : Nat) : RecWork :=
  (j.endSlot j.st.card.formatSlot code detail).card fun c => { c with formatSlot := none }

/-! ### Units -/

/-- A unit is allocated to the open clip (R136): its entry becomes END, the clip's last unit names it, and it becomes the
clip's current unit. Without a FREE unit nothing changes, and the answer is `false`. -/
def Job.allocate (j : RecWork) (map : RegionMap) (relocated : Bool) : RecWork × Bool :=
  match j.st.card.lowestFree, j.st.card.clip with
  | some u, some c =>
    let j := j.setMap map u mapEnd
    let j := match c.chain.getLast? with
      | some last => j.setMap map last u
      | none => j
    let j := j.card fun k => { k with freeUnits := k.freeUnits - 1 }
    (j.clip fun c =>
      { c with
        chain := c.chain ++ [u]
        live := true
        relocated := relocated
        unitBytes := 0
        nextBatch := 0
        batchesDone := 0
        finishing := false }, true)
  | _, _ => (j, false)

/-- A new open clip record (R144). Its start timecode is 0 until the clip's first header is read, the model's choice (log 62). -/
def OpenClip.fresh (number entry : Nat) : OpenClip where
  number := number
  entry := entry
  chain := []
  live := false
  unitCount := 0
  byteLength := 0
  unitStart := 0
  unitBytes := 0
  nextBatch := 0
  batchesDone := 0
  relocated := false
  finishing := false
  opened := false
  headerSeen := false
  startTc := 0
  videoFrames := 0
  skipped := 0
  flags := ⟨false, false, false, false, false, false, false⟩
  headersCounted := 0

/-- A clip is opened (R144), its PART writes requested in the order of the steps: the header, the unit, the entry. -/
def Job.openClip (j : RecWork) (map : RegionMap) : RecWork :=
  let c := j.st.card
  let number := c.image.readNat 0x10 2
  let entry := c.freeEntry.getD 0
  let j := j.card fun c => { c with clip := some (.fresh number entry), clipNumber := number }
  let j := j.mirrorPut map 0 (headerBytes c.unitTotal (if number = 9999 then 1 else number + 1))
  let j := (j.allocate map false).1
  let j := match j.st.card.clip with
    | some k => j.mirrorPut map (entryAt entry) (k.entryBytes c.unitTotal 1)
    | none => j
  (j.tidyDirectory map).writeDirectory .opening 0 25

/-- The change into RECORDING (R125, R137, R141, R144): a clip is opened, the record state changes, and every RETAINED
entry joins. -/
def Job.startRecording (j : RecWork) (map : RegionMap) : RecWork := ((j.openClip map).setRec .recording).joinRetained map

/-- The clip's closing writes begin (R152). -/
def Job.beginClose (j : RecWork) (map : RegionMap) : RecWork :=
  let j := j.setRec .closing
  let j := match j.st.card.clip with
    | some c => j.mirrorPut map (entryAt c.entry) (c.entryBytes j.st.card.unitTotal 2)
    | none => j
  ((j.tidyDirectory map).writeDirectory .closeHead 1 24).writeDirectory .closeMap 25 256

/-- The clip ends full (R150). -/
def Job.endFull (j : RecWork) (map : RegionMap) : RecWork :=
  let j := (j.clip fun c => { c with flags := { c.flags with endedFull := true }, live := false }).emptyBuffers
  let j := ((j.setCard .full).ask (.raise .cardFilled)).setRec .closing
  (j.ring fun m => m.discard map.ringSize).beginClose map

/-- The current unit is retired and replaced (R148). Where it was the clip's first, the entry's first-unit field is left as it is
between steps 1 and 3 and written once, after the map writes of the allocation: the model's choice (log 66). -/
def Job.relocate (j : RecWork) (map : RegionMap) : RecWork :=
  match j.st.card.clip with
  | none => j
  | some c =>
    let failed := c.chain.getLast?.getD 0
    let chain := c.chain.dropLast
    let j := j.setMap map failed mapBad
    let j := match chain.getLast? with
      | some last => j.setMap map last mapEnd
      | none => j
    let j := j.clip fun c => { c with chain := chain, live := false }
    let j := j.card fun k => { k with retired := saturate32 k.retired }
    let j := (j.ask (.raise .unitRetired)).emptyBuffers
    let r := j.allocate map true
    let j := r.1
    let j := match j.st.card.clip with
      | some k =>
        if chain.isEmpty then j.mirrorPut map (entryAt c.entry + 4) (leBytes 2 (k.firstUnit j.st.card.unitTotal)) else j
      | none => j
    let j := j.ring fun m => m.relocationNotice map.ringSize failed c.unitStart
    if r.2 then j else j.endFull map

/-- A card FAULT that ends the open clip (R149). -/
def Job.clipFault (j : RecWork) (map : RegionMap) : RecWork :=
  let j := (j.setCard .fault).ask (.raise .cardFault)
  let j := (j.loseClip map fun f => { f with endedFault := true }).setRec .idle
  let j := j.card CardEngine.dropDirectory
  (((j.endStart .failed 1).dropPendingStart .failed 1).endStop .failed 1).endEject .failed 1

/-- A card FAULT with no clip open: in a mount or a format (R138, R140). -/
def Job.plainFault (j : RecWork) : RecWork :=
  (((j.setCard .fault).ask (.raise .cardFault)).card CardEngine.dropDirectory).endFormat .failed 1

/-- The current unit commits (R147). -/
def Job.commitUnit (j : RecWork) (map : RegionMap) : RecWork :=
  match j.st.card.clip with
  | none => j
  | some c =>
    let unit := c.chain.getLast?.getD 0
    let j := j.clip fun c =>
      { c with
        unitCount := c.unitCount + 1
        byteLength := c.byteLength + c.unitBytes
        live := false
        relocated := false
        unitBytes := 0
        nextBatch := 0
        batchesDone := 0
        finishing := false }
    j.ring fun m => m.commitNotice map.ringSize unit

/-- The current unit has its last answer: 16 batches, or every batch that holds clip bytes (R147, R151). -/
def OpenClip.complete (c : OpenClip) : Bool :=
  c.live && (decide (16 ≤ c.batchesDone) || (c.finishing && decide (c.nextBatch ≤ c.batchesDone)))

/-- The current unit commits if it is complete. -/
def Job.commitIfComplete (j : RecWork) (map : RegionMap) : RecWork :=
  match j.st.card.clip with
  | some c => if c.complete then j.commitUnit map else j
  | none => j

/-! ### Staging buffers -/

/-- A staging buffer by name. -/
def CardEngine.buffer (c : CardEngine) : BufName → StagingBuffer
  | .a => c.bufA
  | .b => c.bufB

/-- A staging buffer replaced. -/
def CardEngine.setBuffer (n : BufName) (b : StagingBuffer) (c : CardEngine) : CardEngine :=
  match n with
  | .a => { c with bufA := b }
  | .b => { c with bufB := b }

/-- The buffer in a state; of two, the one with the lower batch. -/
def CardEngine.bufferIn (st : BufState) (c : CardEngine) : Option BufName :=
  match decide (c.bufA.state = st), decide (c.bufB.state = st) with
  | true, true => if c.bufA.batch ≤ c.bufB.batch then some .a else some .b
  | true, false => some .a
  | false, true => some .b
  | false, false => none

/-- A buffer padded with zeros and full (R151). -/
def StagingBuffer.padded (b : StagingBuffer) : StagingBuffer :=
  { b with state := .waiting, data := b.data ++ List.replicate (batchBytes - b.data.length) 0 }

/-- In STOPPING, with every joined byte read, the current unit is finished and the close begins (R151). -/
def Job.stopProgress (j : RecWork) (map : RegionMap) : RecWork :=
  match j.st.card.clip with
  | none => j
  | some c =>
    if decide (j.st.card.recState = .stopping) && c.opened && j.st.card.request.isNone &&
        !j.st.ring.unread map.ringSize then
      let j :=
        if c.live && !c.finishing then
          match j.st.card.bufferIn .filling with
          | some n =>
            (j.card fun k => k.setBuffer n (k.buffer n).padded).clip fun c => { c with finishing := true }
          | none => j.clip fun c => { c with finishing := true }
        else j
      let j := j.commitIfComplete map
      if (j.st.card.clip.map OpenClip.live).getD false then j else j.beginClose map
    else j

/-- The record states in which chunk bytes are read. -/
def RecState.drains : RecState → Bool
  | .recording | .stopping => true
  | .idle | .standby | .armed | .closing => false

/-- A next unit is allocated once the clip has none and readable bytes exist (R147); a clip that finds none ends full. -/
def Job.nextUnit (j : RecWork) (map : RegionMap) : RecWork :=
  match j.st.card.clip, j.st.ring.nextRun map.ringSize with
  | some c, some _ =>
    if c.opened && !c.live && j.st.card.recState.drains then
      let r := j.allocate map false
      if r.2 then r.1 else j.endFull map
    else j
  | _, _ => j

/-- The buffer to fill: the one FILLING, or an EMPTY one for the unit's next batch (R146). -/
def CardEngine.fillTarget (c : CardEngine) (clip : OpenClip) : Option (BufName × StagingBuffer × Bool) :=
  match c.bufferIn .filling with
  | some n => some (n, c.buffer n, false)
  | none =>
    if clip.nextBatch < 16 then
      (c.bufferIn .empty).map fun n => (n, ⟨.filling, clip.nextBatch, [], false⟩, true)
    else none

/-- A CARD request for chunk bytes (R146): at most 8 beats, to the end of the run, the ring or the buffer. -/
def Job.requestChunk (j : RecWork) (map : RegionMap) : RecWork :=
  match j.st.card.clip, j.st.ring.nextRun map.ringSize with
  | some c, some (offset, length) =>
    if c.opened && c.live && !c.finishing && j.st.card.recState.drains then
      match j.st.card.fillTarget c with
      | some (n, b, new) =>
        let unit := c.chain.getLast?.getD 0
        let j := j.card fun k =>
          { k.setBuffer n b with
            request := some (.chunk offset (min (min 256 length) (batchBytes - b.data.length)) unit n) }
        if new then j.clip fun c => { c with nextBatch := c.nextBatch + 1 } else j
      | none => j
    else j
  | _, _ => j

/-- The CARD request the card engine now makes, if none waits: mirror bytes for the directory WRITE at the front, once the
mirror writes are granted (R133), else chunk bytes. DESIGN CHOICE (log 73): of two directory WRITEs of one event (R140, R152) the
second's bytes are read only after the first has answered OK. -/
def Job.makeRequest (j : RecWork) (map : RegionMap) : RecWork :=
  let c := j.st.card
  if c.request.isSome then j
  else
    match c.dirJobs with
    | d :: _ =>
      if d.data.length < 512 * d.count then
        if c.mirrorWrites = 0 then
          let left := 512 * d.count - d.data.length
          j.card fun k =>
            { k with request := some (.dir (map.privBase + 512 * d.first + d.data.length) (min 8 (left / 32))) }
        else j
      else j.requestChunk map
    | [] => j.requestChunk map

/-- The card command the card engine now issues, if none is in flight (R133): the mount's, then a directory WRITE whose
data is read, then the WAITING batch. -/
def Job.issue (j : RecWork) : RecWork :=
  let c := j.st.card
  let send (cmd : CardCmd) (k : CardEngine) : CardEngine := { k with inFlight := some ⟨cmd, false⟩ }
  if c.inFlight.isSome then j
  else
    match c.mountCmd with
    | some cmd => j.card fun k => { send cmd k with mountCmd := none }
    | none =>
      let ready := (c.dirJobs.head?.filter fun d => decide (512 * d.count ≤ d.data.length))
      match ready with
      | some d => j.card (send (.writeDir d.first d.count))
      | none =>
        match c.bufferIn .waiting, c.clip with
        | some n, some clip =>
          let b := c.buffer n
          let first := clip.chain.getLast?.getD 0 * 4096 + b.batch * 256
          j.card fun k => send (.writeBatch first n) (k.setBuffer n { b with state := .writing })
        | _, _ => j

/-- All that the card engine does by itself after an event that reached the recording side. -/
def Job.pump (j : RecWork) (map : RegionMap) : RecWork :=
  (((j.stopProgress map).nextUnit map).makeRequest map).issue

/-! ### Mounts -/

/-- A mount begins: MOUNTING, and the IDENT is ready (R138). -/
def Job.startMount (j : RecWork) : RecWork :=
  (j.setCard .mounting).card fun c => { c.dropDirectory with mountCmd := some .ident }

/-- A mount that is held may begin (R134): a card is present, not ejected, and not yet mounted. -/
def CardEngine.mountDue (c : CardEngine) : Bool := c.present && !c.ejected && decide (c.state = .absent)

/-- The last steps of a mount (R138 steps 5 and 6). -/
def Job.finishMount (j : RecWork) : RecWork :=
  let c := j.st.card
  let free := c.countFree
  let j := j.card fun c => { c with freeUnits := free }
  let j :=
    if free = 0 ∨ c.freeEntry = none then j.setCard .full
    else if c.writeProtect then j.setCard .writeProtected
    else j.setCard .ready
  j.ask (.raise .cardIn)

/-- The header passes step 3 of R138. -/
def CardEngine.headerOk (c : CardEngine) : Bool :=
  decide (c.image.readBytes 0 8 = cardMarker) && decide (c.image.readNat 8 2 = 1) &&
    decide (c.image.readNat 0x0C 4 = c.unitTotal) && within 1 9999 (c.image.readNat 0x10 2)

/-- A clip entry passes step 3 of R138. -/
def CardEngine.entryOk (c : CardEngine) (e : Nat) : Bool :=
  let f := ClipFields.ofBytes (c.image.readBytes (entryAt e) 128)
  decide (f.state = 0) || (decide (f.state ≤ 3) && within 1 c.unitTotal f.first && within 1 9999 f.number)

/-- A map value passes step 3 of R138. -/
def CardEngine.mapOk (c : CardEngine) (unit : Nat) : Bool :=
  let v := c.mapEntry unit
  decide (v = 0) || decide (v = mapBad) || decide (v = mapEnd) || within 1 c.unitTotal v

/-- Step 3 of R138. -/
def CardEngine.directoryOk (c : CardEngine) : Bool :=
  c.headerOk && ((List.range 96).all c.entryOk) && ((List.range c.unitTotal).all fun i => c.mapOk (i + 1))

/-- Every OPEN entry becomes DAMAGED in the mirror (R138 step 4), in the order of the entries 0 to 95, which is a
DESIGN CHOICE (log 74). -/
def Job.markDamaged (j : RecWork) (map : RegionMap) : RecWork :=
  (List.range 96).foldl (fun j e =>
    if j.st.card.entryState e = 1 then
      let f := ClipFields.ofBytes (j.st.card.image.readBytes (entryAt e) 128)
      j.mirrorPut map (entryAt e) { f with state := 3, flags := f.flags % 128 }.bytes
    else j) j

/-- The directory is read: steps 3 to 6 of a mount (R138). -/
def Job.checkDirectory (j : RecWork) (map : RegionMap) : RecWork :=
  let c := j.st.card
  if !c.directoryOk then (j.setCard .unformatted).ask (.raise .cardIn)
  else if (List.range 96).any fun e => decide (c.entryState e = 1) then
    let j := (j.markDamaged map).tidyDirectory map
    if c.writeProtect then j.finishMount else j.writeDirectory .damaged 1 24
  else j.finishMount

/-! ### Ends -/

/-- The eject is carried out (R154). -/
def Job.ejectNow (j : RecWork) : RecWork :=
  let j := j.card fun c => { c.dropDirectory.dropMirrors with ejected := true }
  (j.setCard .absent).setRec .idle

/-- A START taken in STANDBY (R141); `source` arms if no VIDEO_KEY is retained. The answer says whether a clip opened. -/
def Job.startFromStandby (j : RecWork) (map : RegionMap) (source : StartSource) : RecWork × Bool :=
  if j.st.ring.hasRetained then (j.startRecording map, true)
  else
    let slot := match source with
      | .slot s => some s
      | .toggle => none
    ((j.card fun c => { c with startSlot := slot }).setRec .armed, false)

/-- The pending start is taken at the end of a close (R143). DESIGN CHOICE (log 78): where it opens a clip, its DONE outcome write
is requested after the opening's mirror writes and the stamp writes of the entries that join. -/
def Job.takePendingStart (j : RecWork) (map : RegionMap) : RecWork :=
  match j.st.card.pendingStart with
  | none => j
  | some source =>
    if j.st.card.recState = .standby then
      let slot := j.st.card.pendingSlot
      let r := (j.card fun c => { c with pendingStart := none }).startFromStandby map source
      if r.2 then r.1.endSlot slot .done 0 else r.1
    else j.dropPendingStart .failed 2

/-- The close is complete (R152, R150, R154). The last-clip record is formed here, from the open clip record as it stands (log 67),
and a REC_STOP's outcome is requested before a CARD_EJECT's (log 68): both the model's choices. -/
def Job.closeComplete (j : RecWork) (map : RegionMap) : RecWork :=
  let j := ((j.ask (.raise .clipClosed)).lastClip 2).card fun c => { c with clip := none }
  let c := j.st.card
  let full := decide (c.state = .full) || decide (c.freeUnits = 0) || decide (c.freeEntry = none)
  let j := if full then (j.setCard .full).setRec .idle else j.setRec .standby
  let j := j.endStop .done 0
  let j := if j.st.card.ejectSlot.isSome then j.ejectNow.endEject .done 0 else j
  j.takePendingStart map

/-- A format has answered OK twice (R140). -/
def Job.formatComplete (j : RecWork) : RecWork :=
  ((j.card fun c => { c with freeUnits := c.unitTotal }).setCard .ready).endFormat .done 0

end Sys2Proof.Machine
end

