-- ==== Sys2Proof/Machine/CardEvents.lean ====
section
/-! DEFINITION. What reaches the card engine: REC requests (R141 to R143), CARD_FORMAT (R140), CARD_EJECT (R154), the
card's answers (R133, R138, R146 to R149), granted reads (R128, R145, R146), the card-detect line (R134, R153) and RESTART
(R155). None of these lets the card engine go on by itself: `Job.pump` does that after each. -/

namespace Sys2Proof.Machine

/-- A recording command's answer. -/
abbrev RecAnswer := RecWork × Verdict

/-! ### REC requests -/

/-- The refusal of a START in IDLE (R141). -/
def CardState.idleRefusal : CardState → OutcomeCode
  | .writeProtected => .cardProtected
  | .full => .cardFull
  | .absent | .mounting | .unformatted | .ready | .formatting | .fault => .noCard

/-- A START, from a slot or from the toggle (R141). -/
def Job.takeStart (j : RecWork) (map : RegionMap) (source : StartSource) : RecAnswer :=
  let c := j.st.card
  match c.recState with
  | .idle => (j, .refuse c.state.idleRefusal)
  | .standby =>
    let r := j.startFromStandby map source
    (r.1, if r.2 then .done else .pending)
  | .armed | .recording => (j, .done)
  | .stopping | .closing =>
    if c.pendingStart.isSome then (j, .done)
    else (j.card fun c => { c with pendingStart := some source }, .pending)

/-- A STOP, from a slot or from the toggle (R142). -/
def Job.takeStop (j : RecWork) (slot : Option CmdSlot) : RecAnswer :=
  match j.st.card.recState with
  | .idle | .standby => (j, .done)
  | .armed => ((j.setRec .standby).endStart .aborted 0, .done)
  | .recording => ((j.setRec .stopping).card fun c => { c with stopSlot := slot }, .pending)
  | .stopping | .closing => (j.dropPendingStart .aborted 0, .done)

/-- REC_START (R141). -/
def Recorder.recStart (map : RegionMap) (slot : CmdSlot) (r : Recorder) : RecAnswer :=
  if r.card.ejectSlot.isSome then (.start r, .refuse .busy) else (Job.start r).takeStart map (.slot slot)

/-- REC_STOP (R142). -/
def Recorder.recStop (slot : CmdSlot) (r : Recorder) : RecAnswer := (Job.start r).takeStop (some slot)

/-- The grip's toggle (R111, R141, R142): a START or a STOP by the record state, disregarded in IDLE, and as a START while
a CARD_EJECT is in progress. -/
def Recorder.toggle (map : RegionMap) (r : Recorder) : RecWork :=
  match r.card.recState with
  | .idle => .start r
  | .standby | .stopping | .closing =>
    if r.card.ejectSlot.isSome then .start r else ((Job.start r).takeStart map .toggle).1
  | .armed | .recording => ((Job.start r).takeStop none).1

/-- CARD_FORMAT (R140). -/
def Recorder.cardFormat (map : RegionMap) (slot : CmdSlot) (r : Recorder) : RecAnswer :=
  let c := r.card
  let formattable := decide (c.state = .unformatted) || decide (c.state = .ready) || decide (c.state = .full)
  let quietRec := decide (c.recState = .idle) || decide (c.recState = .standby)
  let tests :=
    [ownerTest (decide (c.state ≠ .absent)) .noCard,
     ownerTest (decide (c.state ≠ .writeProtected)) .cardProtected,
     ownerTest (formattable && quietRec && c.ejectSlot.isNone) .busy]
  match firstFailure tests with
  | some v => (.start r, v)
  | none =>
    let j := (Job.start r).setCard .formatting
    let j := j.card fun c => { c with mirror := none, formatSlot := some slot }
    let j := j.mirrorFill map 0 (headerBytes c.unitTotal 1 ++ List.replicate (280 * 512) 0)
    ((j.writeDirectory .formatHead 0 256).writeDirectory .formatMap 256 25, .pending)

/-- CARD_EJECT (R154). -/
def Recorder.cardEject (slot : CmdSlot) (r : Recorder) : RecAnswer :=
  let c := r.card
  let tests :=
    [ownerTest (decide (c.state ≠ .absent)) .noCard,
     ownerTest (decide (c.state ≠ .mounting) && decide (c.state ≠ .formatting) && c.ejectSlot.isNone) .busy]
  match firstFailure tests with
  | some v => (.start r, v)
  | none =>
    let j : RecWork := .start r
    let wait (j : RecWork) : RecWork := j.card fun c => { c with ejectSlot := some slot }
    match c.recState with
    | .recording => (wait (j.setRec .stopping), .pending)
    | .stopping | .closing => (wait (j.dropPendingStart .aborted 0), .pending)
    | .armed => (((j.setRec .standby).endStart .aborted 0).ejectNow, .done)
    | .idle | .standby => (j.ejectNow, .done)

/-! ### Answers -/

/-- The card command in flight has its answer or its timeout. -/
def Job.landed (j : RecWork) : RecWork := j.card fun c => { c with inFlight := none }

/-- A directory WRITE has answered OK. -/
def Job.directoryWritten (j : RecWork) (map : RegionMap) : RecWork :=
  match j.st.card.dirJobs with
  | [] => j
  | d :: ds =>
    let j := j.card fun c => { c with dirJobs := ds }
    match d.purpose with
    | .damaged => j.finishMount
    | .formatHead => j
    | .formatMap => j.formatComplete
    | .opening => j.clip fun c => { c with opened := true }
    | .closeHead => j
    | .closeMap => j.closeComplete map

/-- A directory WRITE has answered ERROR: it is repeated once, and a second ERROR makes the card FAULT (R138, R140, R144,
R149, R152). -/
def Job.directoryFailed (j : RecWork) (map : RegionMap) : RecWork :=
  match j.st.card.dirJobs with
  | [] => j
  | d :: ds =>
    if !d.retried then j.card fun c => { c with dirJobs := { d with retried := true } :: ds }
    else
      match d.purpose with
      | .damaged | .formatHead | .formatMap => j.plainFault
      | .opening | .closeHead | .closeMap => j.clipFault map

/-- A batch WRITE has answered OK (R146, R147). -/
def Job.batchWritten (j : RecWork) (map : RegionMap) (n : BufName) : RecWork :=
  ((j.card fun c => c.setBuffer n .blank).clip fun c => { c with batchesDone := c.batchesDone + 1 }).commitIfComplete map

/-- A batch WRITE has answered ERROR (R148, R149). -/
def Job.batchFailed (j : RecWork) (map : RegionMap) (n : BufName) : RecWork :=
  let b := j.st.card.buffer n
  if !b.retried then j.card fun c => c.setBuffer n { b with state := .waiting, retried := true }
  else if (j.st.card.clip.map OpenClip.relocated).getD false then j.clipFault map
  else j.relocate map

/-- A card command has answered ERROR, or has timed out (R133). -/
def Job.commandFailed (j : RecWork) (map : RegionMap) (cmd : CardCmd) : RecWork :=
  match cmd with
  | .ident | .read _ _ => j.plainFault
  | .writeDir _ _ => j.directoryFailed map
  | .writeBatch _ n => j.batchFailed map n

/-- An IDENT answers (R138 step 1). An answer to another command, or to none, is discarded (R133). -/
def Job.identAnswer (j : RecWork) (blocks : Nat) (writeProtect : Bool) : RecWork :=
  match j.st.card.inFlight with
  | some ⟨.ident, abandoned⟩ =>
    if abandoned then j.landed
    else if blocks < 8192 then j.landed.plainFault
    else
      j.landed.card fun c =>
        { c with
          writeProtect := writeProtect
          unitTotal := min 65533 (blocks / 4096 - 1)
          mountCmd := some (.read 0 256) }
  | _ => j

/-- A READ answers with data, or ERROR where there is none (R138 steps 2 to 6). -/
def Job.readAnswer (j : RecWork) (map : RegionMap) (data : Option (List Byte)) : RecWork :=
  match j.st.card.inFlight with
  | some ⟨.read first _, abandoned⟩ =>
    if abandoned then j.landed
    else
      match data with
      | none => j.landed.plainFault
      | some bytes =>
        let j := j.landed.mirrorFill map (512 * first) bytes
        if first = 0 then j.card fun c => { c with mountCmd := some (.read 256 25) } else j.checkDirectory map
  | _ => j

/-- A WRITE answers OK or ERROR (R138, R140, R144, R146 to R149, R152). -/
def Job.writeAnswer (j : RecWork) (map : RegionMap) (ok : Bool) : RecWork :=
  match j.st.card.inFlight with
  | some ⟨.writeDir first count, abandoned⟩ =>
    if abandoned then j.landed
    else if ok then j.landed.directoryWritten map
    else j.landed.commandFailed map (.writeDir first count)
  | some ⟨.writeBatch first n, abandoned⟩ =>
    if abandoned then j.landed
    else if ok then j.landed.batchWritten map n
    else j.landed.commandFailed map (.writeBatch first n)
  | _ => j

/-- The timeout of the command in flight expires: it counts as ERROR (R133). -/
def Job.timeout (j : RecWork) (map : RegionMap) : RecWork :=
  match j.st.card.inFlight with
  | some ⟨cmd, abandoned⟩ => if abandoned then j.landed else j.landed.commandFailed map cmd
  | none => j

/-! ### Granted reads -/

/-- A chunk header that the card engine has read (R145). One that is read again counts for nothing more, its TC_ESTIMATED bit
included: the model's choice (log 65). -/
def OpenClip.readHeader (number : Nat) (h : List Byte) (c : OpenClip) : OpenClip :=
  if number < c.headersCounted then c
  else
    let kind := fieldAt h 4 1
    { c with
      headersCounted := number + 1
      headerSeen := true
      startTc := if c.headerSeen then c.startTc else BitVec.ofNat 32 (fieldAt h 0x10 4)
      videoFrames := if kind = 1 ∨ kind = 2 then c.videoFrames + 1 else c.videoFrames
      flags := { c.flags with tcEstimated := c.flags.tcEstimated || (fieldAt h 0x18 1).testBit 0 } }

/-- The headers among bytes read from a ring offset (R145): those of the entries whose header beat lies in them. -/
def OpenClip.readHeaders (R offset : Nat) (bytes : List Byte) (q : List QueueEntry) (c : OpenClip) : OpenClip :=
  q.foldl (fun c e =>
    let at_ := (e.offset + R - offset) % R
    if at_ + 32 ≤ bytes.length then c.readHeader e.number (bytesAt bytes at_ 32) else c) c

/-- A CARD request is granted with these bytes (R128, R133, R145, R146). -/
def Job.cardGranted (j : RecWork) (map : RegionMap) (req : CardReq) (bytes : List Byte) : RecWork :=
  let j := j.card fun c => { c with request := none }
  match req with
  | .dir _ _ =>
    j.card fun c =>
      { c with
        dirJobs := match c.dirJobs with
          | d :: ds => { d with data := d.data ++ bytes } :: ds
          | [] => [] }
  | .chunk offset length unit n =>
    let q := j.st.ring.queue.filter QueueEntry.isJoined
    let j := j.clip fun c =>
      { c.readHeaders map.ringSize offset bytes q with
        unitStart := if c.unitBytes = 0 then offset else c.unitStart
        unitBytes := c.unitBytes + length }
    let j := j.card fun c =>
      let b := c.buffer n
      let data := b.data ++ bytes
      c.setBuffer n { b with data := data, state := if batchBytes ≤ data.length then .waiting else .filling }
    j.ring fun m => m.readNotice map.ringSize offset length unit

/-- The last piece of a mirror write is granted (R133). -/
def Job.mirrorGranted (j : RecWork) : RecWork := j.card fun c => { c with mirrorWrites := c.mirrorWrites - 1 }

/-! ### Card detect -/

/-- `n` samples in a row at one level (R134; log 14): the card engine, and whether the debounced state changed. -/
def CardEngine.detect (level : Bool) (n : Nat) (c : CardEngine) : CardEngine × Bool :=
  if n = 0 then (c, false)
  else if c.present = level then ({ c with detectRun := 0 }, false)
  else if c.detectRun + n < 100 then ({ c with detectRun := c.detectRun + n }, false)
  else ({ c with present := level, detectRun := 0 }, true)

/-- An insertion (R134): a mount, unless it is held. `enabled`: INIT_DONE raised and no conflict. -/
def Job.insertion (j : RecWork) (enabled : Bool) : RecWork :=
  if enabled && !j.st.card.ejected then j.startMount else j

/-- A removal (R153). -/
def Job.removal (j : RecWork) (map : RegionMap) : RecWork :=
  let c := j.st.card
  let j := j.card CardEngine.abandon
  let j := match c.recState with
    | .recording | .stopping | .closing =>
      let j := (j.ask (.raise .cardOut)).loseClip map fun f => { f with endedPulled := true }
      let j := j.setRec .idle
      ((j.endStop .aborted 0).dropPendingStart .aborted 0).endEject .aborted 0
    | .armed => ((j.ask (.raise .cardOut)).setRec .idle).endStart .aborted 0
    | .idle | .standby =>
      if c.state = CardState.absent then j else (j.endFormat .aborted 0).ask (.raise .cardOut)
  let j := j.card fun c => { c.dropDirectory.dropMirrors with ejected := false }
  j.setCard .absent

/-- Samples of the card-detect line (R134, R153). -/
def Job.cardDetect (j : RecWork) (map : RegionMap) (level : Bool) (n : Nat) (enabled : Bool) : RecWork :=
  let r := j.st.card.detect level n
  let j := j.card fun _ => r.1
  if r.2 then (if level then j.insertion enabled else j.removal map) else j

/-! ### Resets and REGION -/

/-- The card engine at the restart point (R155); `conflict`: the region map is in the conflict state. A CARD request that
waits is withdrawn (log 56). -/
def CardEngine.restart (conflict : Bool) (c : CardEngine) : CardEngine :=
  let mounts := c.present && !c.ejected && !conflict
  { c.abandon.dropDirectory.dropMirrors with
    state := if mounts then CardState.mounting else CardState.absent
    recState := .idle
    mountCmd := if mounts then some .ident else none
    clip := none
    bufA := .blank
    bufB := .blank
    pendingStart := none
    startSlot := none
    stopSlot := none
    ejectSlot := none
    formatSlot := none }

/-- The recording side at the restart point (R114, R155, 9.1). -/
def Recorder.restart (conflict : Bool) (r : Recorder) : Recorder :=
  ⟨r.ring.restart, r.card.restart conflict, r.tc.restart⟩

/-- A REGION that moves the private area (R8): the mirrors are dropped, and a card that is present and not ejected is
mounted again. -/
def Job.privateMoved (j : RecWork) : RecWork :=
  let j := j.card CardEngine.dropMirrors
  if j.st.card.present && !j.st.card.ejected then (j.setRec .idle).startMount else j

/-- TC_SET (R161). -/
def Recorder.tcSet (timecode mode rate : Nat) (r : Recorder) : Recorder × Verdict :=
  match firstFailure (tcSetTests timecode mode rate r.card.recState) with
  | some v => (r, v)
  | none => ({ r with tc := r.tc.set timecode mode rate }, .done)

/-- PREREC_SET (R122). -/
def Recorder.prerecSet (map : RegionMap) (depth : Nat) (r : Recorder) : Recorder × Verdict :=
  match firstFailure [operandTest 1 (decide (depth ≤ 600))] with
  | some v => (r, v)
  | none =>
    let m := { r.ring with depth := depth }
    ({ r with ring := if r.card.recState = .armed then m else m.trimDepth map.ringSize }, .done)

end Sys2Proof.Machine
end

