-- ==== Sys2Proof/Machine/LensCurve.lean ====
section
/-! DEFINITION. The lens table: its layout in memory (12.3), the judgement at a load (R101), interpolation (R102), the
focus curve (R104) and the subject distance read back from it (R105). -/

namespace Sys2Proof.Machine

/-- A value of the lens table at zoom position `z` (R102). At or past the last point it is the last point's. -/
def interpolate (f : LensPoint → Nat) : List LensPoint → Nat → Nat
  | [], _ => 0
  | [p], _ => f p
  | p :: q :: ps, z =>
    if z < q.z then
      ((f p : Int) + roundDiv (((f q : Int) - f p) * ((z : Int) - p.z)) (q.z - p.z)).toNat
    else interpolate f (q :: ps) z

/-- K16 at the captured zoom position, or of point 0 when there is none (R62). -/
def LensTable.gain (t : LensTable) : Option Nat → Nat
  | some z => interpolate LensPoint.k16 t.points z
  | none => (t.points.head?.map LensPoint.k16).getD 0

/-- The focus position for a subject at infinity (R102). -/
def LensTable.finf (t : LensTable) (z : Nat) : Nat := interpolate LensPoint.finf t.points z

/-- The focus position for the nearest subject (R102). -/
def LensTable.fnear (t : LensTable) (z : Nat) : Nat := interpolate LensPoint.fnear t.points z

/-- F: the focus position for subject distance `d` at zoom position `z` (R104). -/
def LensTable.focusFor (t : LensTable) (z d : Nat) : Nat :=
  ((t.finf z : Int) + roundDiv (((t.fnear z : Int) - t.finf z) * d) 255).toNat

/-- The subject distance that focus position `p` stands for, kept where the curves meet (R105). -/
def LensTable.distanceFor (t : LensTable) (z p d : Nat) : Nat :=
  let near := t.fnear z
  let inf := t.finf z
  if near = inf then d
  else
    let n : Int := ((p : Int) - inf) * 255
    -- the manual's quotient has a divisor that a valid table makes positive
    if inf < near then (clampInt 0 255 (roundDiv n (near - inf))).toNat
    else (clampInt 0 255 (roundDiv (-n) (inf - near))).toNat

/-- The range of an axis: ZR or FR (5.1). -/
def LensTable.range (t : LensTable) : AxisName → Nat
  | .zoom => t.zr
  | .focus => t.fr

/-- The home value of an axis (6.1). -/
def LensTable.homeValue (t : LensTable) : AxisName → Nat
  | .zoom => t.zoomHome
  | .focus => t.focusHome

/-- A lens table record of 256 bytes (12.3). -/
def LensTable.ofBytes (b : List Byte) : LensTable where
  zr := fieldAt b 0x00 2
  fr := fieldAt b 0x02 2
  zoomHome := fieldAt b 0x04 2
  focusHome := fieldAt b 0x06 2
  points := (List.range 17).map fun i =>
    ⟨fieldAt b (0x10 + 8 * i) 2, fieldAt b (0x12 + 8 * i) 2, fieldAt b (0x14 + 8 * i) 2, fieldAt b (0x16 + 8 * i) 2⟩

/-- Each point's zoom position is above the one before it (R101 check 6). -/
def risingPoints : List LensPoint → Bool
  | p :: q :: ps => decide (p.z < q.z) && risingPoints (q :: ps)
  | _ => true

/-- The checks of R101 in order, each with its number. -/
def LensTable.checks (t : LensTable) (inMotion : Bool) : List (Nat × Bool) :=
  [(1, within 1 60000 t.zr),
   (2, within 1 60000 t.fr),
   (3, decide (t.zoomHome ≤ t.zr)),
   (4, decide (t.focusHome ≤ t.fr)),
   (5, t.points.head?.map LensPoint.z == some 0),
   (6, risingPoints t.points),
   (7, t.points.getLast?.map LensPoint.z == some t.zr),
   (8, t.points.all fun p => within 1 65535 p.k16),
   (9, t.points.all fun p => decide (p.finf ≤ p.fnear) && decide (p.fnear ≤ t.fr)),
   (16, !inMotion)]

/-- The number of the first check that fails (R101). -/
def LensTable.firstBad (t : LensTable) (inMotion : Bool) : Option Nat :=
  ((t.checks inMotion).find? fun c => !c.2).map Prod.fst

end Sys2Proof.Machine
end

