-- ==== Sys2Proof/Machine/Axis.lean ====
section
/-! DEFINITION. One step axis by itself: its speed profile (R78), starts (R79), the decision after a step (R80), stops by
deceleration (R81), homing (R83 to R85), moves and jogs (R87, R90, R91) and comparators (R94). -/

namespace Sys2Proof.Machine

/-- The speed at ramp index `k`: v(k) of R78. -/
def StepAxis.speedAt (ax : StepAxis) (k : Nat) : Nat := ax.vStart + (ax.vMax - ax.vStart) * k / ax.ramp

/-- A motion's cap c (R78): v_max, lowered by the motion's own cap and by the quiet cap while the quiet flag is set, and
never below v_start. -/
def StepAxis.cap (ax : StepAxis) : Nat :=
  let own := if ax.ownCap = 0 then ax.vMax else min ax.vMax ax.ownCap
  max ax.vStart (if ax.quiet then min own ax.quietCap else own)

/-- The cap index kc, the least k with v(k) ≥ c (R78), in closed form. -/
def StepAxis.capIndex (ax : StepAxis) : Nat :=
  if ax.cap ≤ ax.vStart then 0
  else ((ax.cap - ax.vStart) * ax.ramp + (ax.vMax - ax.vStart) - 1) / (ax.vMax - ax.vStart)

/-- The position, 0 where it is absent. -/
def StepAxis.at0 (ax : StepAxis) : Nat := ax.pos.getD 0

/-- The direction from one position to another. -/
def toward (p t : Nat) : Dir := if p < t then .up else .down

/-- The soft limit ahead of the motion. -/
def StepAxis.limitAhead (ax : StepAxis) : Nat :=
  match ax.motionDir with
  | .up => ax.high
  | .down => ax.low

/-- The axis stands at the soft limit in a direction (R90). -/
def StepAxis.atLimit (ax : StepAxis) (d : Dir) : Bool :=
  match d with
  | .up => decide (ax.high ≤ ax.at0)
  | .down => decide (ax.at0 ≤ ax.low)

/-- The axis may carry out a move or a jog: IDLE, WAITING, MOVING or DWELL (R86, R90). -/
def StepAxis.usable (ax : StepAxis) : Bool :=
  match ax.state with
  | .idle | .waiting | .moving | .dwell => true
  | .unhomed | .homing | .fault => false

/-- The axis is in motion: HOMING, MOVING or DWELL (5.1). -/
def StepAxis.inMotion (ax : StepAxis) : Bool :=
  match ax.state with
  | .homing | .moving | .dwell => true
  | .unhomed | .idle | .waiting | .fault => false

/-- At rest, with no motion in force. -/
def StepAxis.rest (st : AxisState) (ax : StepAxis) : StepAxis :=
  { ax with state := st, goal := .none, phase := .cruise, k := 0, speed := 0, ownCap := 0, homing := none }

/-- The position becomes absent, and with it the met flags (R77, R83, R94). -/
def StepAxis.losePosition (ax : StepAxis) : StepAxis :=
  { ax with pos := none, cmpA := { ax.cmpA with met := false }, cmpB := { ax.cmpB with met := false } }

/-- A motion in direction `d` must wait out a reversal dwell first (R79). -/
def StepAxis.needsDwell (ax : StepAxis) (d : Dir) : Bool :=
  ax.dir.isSome && decide (ax.dir ≠ some d) && decide (0 < ax.dwell)

/-- The motion starts: MOVING with k 0 at v_start, the first step due at once (R79; log 11). -/
def StepAxis.startNow (d : Dir) (ax : StepAxis) : StepAxis :=
  let ax := { ax with state := .moving, motionDir := d, k := 0, speed := ax.vStart, homing := none }
  { ax with phase := if 0 < ax.capIndex then .accel else .cruise }

/-- A motion begins from standstill, through DWELL where it reverses the last step (R79). -/
def StepAxis.startMotion (d : Dir) (goal : Goal) (cap : Nat) (ax : StepAxis) : StepAxis :=
  let ax := { ax with goal := goal, ownCap := cap, motionDir := d }
  if ax.needsDwell d then { ax with state := .dwell } else ax.startNow d

/-- The stop point, one stopping distance ahead (R81). -/
def StepAxis.stopPoint (ax : StepAxis) : Int :=
  match ax.motionDir with
  | .up => (ax.at0 : Int) + (ax.k + 1)
  | .down => (ax.at0 : Int) - (ax.k + 1)

/-- A stop by deceleration begins; one already running keeps its point (R81, R92). DESIGN CHOICE (log 71): the own cap of the
motion that stops governs up to the stop point, and the cap of what follows only from the start after it (R87, R90). -/
def StepAxis.decelerate (next : AfterStop) (ax : StepAxis) : StepAxis :=
  match ax.goal with
  | .stopAt p _ => { ax with goal := .stopAt p next }
  | _ => { ax with goal := .stopAt ax.stopPoint next }

/-- A move with start condition NOW on a usable axis (R79, R87); `true` where it arrives at once. -/
def StepAxis.goTo (target cap : Nat) (ax : StepAxis) : StepAxis × Bool :=
  match ax.state with
  | .moving =>
    let ahead : Int := match ax.motionDir with
      | .up => (target : Int) - ax.at0
      | .down => (ax.at0 : Int) - target
    if (ax.k : Int) + 1 ≤ ahead then ({ ax with goal := .moveTo target, ownCap := cap }, false)
    else (ax.decelerate (.goTo target cap), false)
  | .dwell =>
    if target = ax.at0 then (ax.rest .idle, true)
    else if toward ax.at0 target = ax.motionDir then ({ ax with goal := .moveTo target, ownCap := cap }, false)
    else (ax.startMotion (toward ax.at0 target) (.moveTo target) cap, false)
  | _ =>
    if target = ax.at0 then (ax.rest .idle, true)
    else (ax.startMotion (toward ax.at0 target) (.moveTo target) cap, false)

/-- A jog on a usable axis (R79, R90). -/
def StepAxis.jogTo (d : Dir) (cap : Nat) (ax : StepAxis) : StepAxis :=
  match ax.state with
  | .moving =>
    if ax.motionDir = d then { ax with goal := .jog, ownCap := cap } else ax.decelerate (.jogOn d cap)
  | .dwell =>
    if ax.motionDir = d then { ax with goal := .jog, ownCap := cap } else ax.startMotion d .jog cap
  | _ => ax.startMotion d .jog cap

/-- R: the number of steps from the position to where the motion must end; none for a jog under HALT (R80). -/
def StepAxis.remaining (ax : StepAxis) : Option Nat :=
  match ax.goal with
  | .moveTo t => some ((t : Int) - ax.at0).natAbs
  | .stopAt p _ => some (p - ax.at0).natAbs
  | .jog =>
    match ax.action with
    | .clamp => some ((ax.limitAhead : Int) - ax.at0).natAbs
    | .halt => none
  | .none => none

/-- Cases 2 to 4 of R80's decision, for R above 0 or without bound. -/
def StepAxis.decideNext (ax : StepAxis) : StepAxis :=
  let kc := ax.capIndex
  let close := match ax.remaining with
    | some r => decide (r ≤ ax.k)
    | none => false
  let room := match ax.remaining with
    | some r => decide (ax.k + 1 < r)
    | none => true
  let next : Nat × Phase :=
    if close || decide (kc < ax.k) then (ax.k - 1, .decel)
    else if room && decide (ax.k < kc) then (ax.k + 1, if ax.k + 1 = kc then .cruise else .accel)
    else (ax.k, .cruise)
  { ax with k := next.1, phase := next.2, speed := min ax.cap (ax.speedAt next.1) }

/-- Whether a comparator's condition holds at a position (5.6). -/
def Comparator.holds (c : Comparator) (p : Nat) : Bool :=
  match c.cond with
  | .off => false
  | .eq => decide (p = c.value)
  | .gt => decide (c.value < p)
  | .lt => decide (p < c.value)

/-- One evaluation at a position: the comparator after it, and whether it fires (R94). -/
def Comparator.evaluate (c : Comparator) (p : Nat) : Comparator × Bool :=
  ({ c with met := c.holds p }, c.holds p && !c.met)

/-- Both comparators evaluated, if the position is present (R94): the axis, and whether A and B fire. -/
def StepAxis.compare (ax : StepAxis) : StepAxis × Bool × Bool :=
  match ax.pos with
  | none => (ax, false, false)
  | some p =>
    let a := ax.cmpA.evaluate p
    let b := ax.cmpB.evaluate p
    ({ ax with cmpA := a.1, cmpB := b.1 }, a.2, b.2)

/-- What a step's decision brings about besides the axis itself. -/
structure StepResult where
  ax : StepAxis
  /-- the comparators that fire at a home edge (R84) -/
  firedA : Bool
  firedB : Bool
  accelEnd : Bool
  decelStart : Bool
  /-- the axis has entered IDLE, at a home edge or not -/
  enteredIdle : Bool
  homeEdge : Bool
  /-- factors raised after the entry into IDLE -/
  raises : List Factor
  /-- the end of the host command that held the axis -/
  finish : Option (CmdSlot × OutcomeCode × Nat)

/-- The slot of the host command in force. -/
def StepAxis.hostSlot (ax : StepAxis) : Option CmdSlot :=
  match ax.holder with
  | some (.host s) => some s
  | _ => none

/-- The factor an arrival raises (R89). -/
def arrivalFactor : AxisName → Factor
  | .zoom => .zoomDone
  | .focus => .focusDone

/-- A step with nothing more to it. -/
def StepResult.plain (ax : StepAxis) : StepResult := ⟨ax, false, false, false, false, false, false, [], none⟩

/-- The axis comes to rest IDLE, its command ended with the code given (R89, R91). -/
def StepResult.idleWith (r : StepResult) (raises : List Factor) (code : Option (OutcomeCode × Nat)) : StepResult :=
  { r with
    ax := { r.ax.rest .idle with holder := none }
    enteredIdle := true
    raises := r.raises ++ raises
    finish := match r.ax.hostSlot, code with
      | some s, some c => some (s, c.1, c.2)
      | _, _ => none }

/-- What follows at a stop point, or at the limit that halted the stop short of it (R81, R87, R88, R90, R91). A stop that
ends at its first decision hands its DECEL start mark there (R81; log 49). The stop of a rocker that has released the zoom is
a request, and arrives at its stop point (R89, R110; log 50). -/
def StepResult.stopped (n : AxisName) (next : AfterStop) (atPoint : Bool) (r : StepResult) : StepResult :=
  let r : StepResult := { r with decelStart := decide (r.ax.phase ≠ .decel) }
  match next with
  | .rest => r.idleWith (if atPoint && decide (r.ax.holder = some .request) then [arrivalFactor n] else []) none
  | .goTo target cap =>
    if target = r.ax.at0 then r.idleWith [arrivalFactor n] (some (.done, 0))
    else { r with ax := (r.ax.rest .idle).startMotion (toward r.ax.at0 target) (.moveTo target) cap }
  | .jogOn d cap => { r with ax := (r.ax.rest .idle).startMotion d .jog cap }
  | .await => { r with ax := r.ax.rest .waiting }

/-- The position after a step in the motion direction. -/
def StepAxis.stepped (ax : StepAxis) : StepAxis :=
  { ax with
    pos := some (match ax.motionDir with
      | .up => ax.at0 + 1
      | .down => ax.at0 - 1)
    dir := some ax.motionDir }

/-- The decision after a step that does not end the motion, with the marks it hands over (R80). -/
def StepResult.decided (r : StepResult) : StepResult :=
  let ax := r.ax.decideNext
  { r with
    ax := ax
    accelEnd := decide (r.ax.phase = .accel) && decide (ax.phase ≠ .accel)
    decelStart := decide (r.ax.phase ≠ .decel) && decide (ax.phase = .decel) }

/-- The position has reached the soft limit ahead. -/
def StepAxis.onLimit (ax : StepAxis) : Bool := ax.atLimit ax.motionDir

/-- The decision of a MOVING axis after a step (R80, R89, R91). A motion that ends in phase ACCEL hands no ACCEL end mark
(log 49). -/
def StepAxis.motionDecision (n : AxisName) (ax : StepAxis) : StepResult :=
  let r : StepResult := .plain ax
  match ax.goal with
  | .moveTo t => if t = ax.at0 then r.idleWith [arrivalFactor n] (some (.done, 0)) else r.decided
  | .jog =>
    if ax.onLimit then
      -- a coordinator's jog stays in force on the limit (R90, R110)
      let kept := if ax.holder = some .request then some Holder.request else none
      let e := match ax.action with
        | .clamp => r.idleWith [.limitReached] (some (.done, 0))
        | .halt => r.idleWith [.axisFault] (some (.failed, 2))
      { e with ax := { e.ax with holder := kept } }
    else r.decided
  | .stopAt p next =>
    if p = ax.at0 then r.stopped n next true
    else if ax.action = .halt && ax.onLimit then
      -- a stop halted on the limit: a waiting move waits there (R91; log 51)
      let e := r.stopped n next false
      { e with raises := .axisFault :: e.raises }
    else r.decided
  | .none => r.decided

/-! ### Homing -/

/-- The homing direction: down for zoom, up for focus (R83). -/
def homingDir : AxisName → Dir
  | .zoom => .down
  | .focus => .up

/-- The opposite direction. -/
def Dir.opposite : Dir → Dir
  | .down => .up
  | .up => .down

/-- A homing leg begins, through its reversal dwell where there is one (R83, R84). -/
def StepAxis.startLeg (d : Dir) (towardSensor : Bool) (steps : Nat) (ax : StepAxis) : StepAxis :=
  { ax with
    state := .homing
    motionDir := d
    goal := .none
    k := 0
    speed := ax.vStart
    ownCap := 0
    phase := .cruise
    homing := some (.leg towardSensor steps (ax.needsDwell d)) }

/-- Homing begins: the position becomes absent and the sensor chooses the leg (R83). -/
def StepAxis.beginHoming (n : AxisName) (ax : StepAxis) : StepAxis :=
  let d := if ax.sensor then (homingDir n).opposite else homingDir n
  ax.losePosition.startLeg d (!ax.sensor) 0

/-- The step budget of a homing (R85). -/
def homingBudget (range : Nat) : Nat := range * 11 / 10

/-- One step of a homing leg, the sensor read after it (R84, R85). A step that reaches the budget fails unless it is the home
edge, and so does one that ends the AWAY leg there (log 52). -/
def StepAxis.legStep (n : AxisName) (range homeValue : Nat) (towardSensor : Bool) (steps : Nat) (ax : StepAxis) : StepResult :=
  let ax := { ax with dir := some ax.motionDir, homing := some (.leg towardSensor (steps + 1) false) }
  if towardSensor && ax.sensor then
    let c := ({ ax.losePosition with pos := some homeValue, dir := some (homingDir n) }).compare
    let r : StepResult := { StepResult.plain c.1 with firedA := c.2.1, firedB := c.2.2 }
    { r.idleWith [.homeDone] (some (.done, 0)) with homeEdge := true }
  else if homingBudget range ≤ steps + 1 then
    { StepResult.plain ((ax.rest .fault).losePosition) with
      ax := { (ax.rest .fault).losePosition with holder := none }
      raises := [.axisFault]
      finish := ax.hostSlot.map fun s => (s, .failed, 1) }
  else if !towardSensor && !ax.sensor then StepResult.plain (ax.startLeg (homingDir n) true (steps + 1))
  else StepResult.plain ax

/-- The decision after a step of the deceleration that precedes homing (R83, R84): at the stop point homing begins, or the
axis becomes UNHOMED where a STOP has ended the HOME. -/
def StepAxis.slowingDecision (n : AxisName) (drop : Bool) (ax : StepAxis) : StepResult :=
  let r : StepResult := .plain ax
  let done : StepResult :=
    { r with
      ax := if drop then (ax.rest .unhomed).losePosition else ax.beginHoming n
      decelStart := decide (ax.phase ≠ .decel) }
  match ax.goal with
  | .stopAt p _ =>
    if p = ax.at0 then done
    else if ax.action = .halt && ax.onLimit then { done with raises := [.axisFault] }
    else r.decided
  | _ => done

end Sys2Proof.Machine
end

