-- ==== Sys2Proof/Machine/LensEvents.lean ====
section
/-! DEFINITION. The lens coordinator and the two axes together (06): focus tracking (R104, R105), the release of pending
moves (R106, R107), the settling of a step (R80, R84, R89, R91, R96), the install of a lens table (R77, R101), the rocker
(R109, R110), the REC button (R111), the quiet flag (R112) and the RESTART values (R76, R113). -/

namespace Sys2Proof.Machine

/-- The lens side at work. -/
abbrev LensWork := Job Lens Out

/-- The record of an axis. -/
def Lens.axis (l : Lens) : AxisName → StepAxis
  | .zoom => l.zoom
  | .focus => l.focus

/-- The lens side with the record of an axis replaced. -/
def Lens.setAxis (n : AxisName) (ax : StepAxis) (l : Lens) : Lens :=
  match n with
  | .zoom => { l with zoom := ax }
  | .focus => { l with focus := ax }

/-- The range of an axis, 0 where no table is loaded. -/
def Lens.range (l : Lens) (n : AxisName) : Nat := (l.coord.table.map fun t => t.range n).getD 0

/-- The home value of an axis, 0 where no table is loaded. -/
def Lens.homeValue (l : Lens) (n : AxisName) : Nat := (l.coord.table.map fun t => t.homeValue n).getD 0

/-- Either axis is in motion (5.1). -/
def Lens.inMotion (l : Lens) : Bool := l.zoom.inMotion || l.focus.inMotion

/-- The rocker holds the axis (R109). -/
def Lens.held (l : Lens) : AxisName → Bool
  | .zoom => decide (l.coord.rocker = .hold)
  | .focus => false

/-- The record of an axis replaced. -/
def Job.putAxis (n : AxisName) (ax : StepAxis) (j : LensWork) : LensWork := j.change (Lens.setAxis n ax)

/-- The coordinator changed. -/
def Job.coord (f : Coordinator → Coordinator) (j : LensWork) : LensWork := j.change fun l => { l with coord := f l.coord }

/-- The host command in force and the pending move of an axis end with a code, and a coordinator request in force is
dropped (R83, R86, R90, R92, R109). -/
def Job.endMotions (n : AxisName) (code : OutcomeCode) (j : LensWork) : LensWork :=
  let ax := j.st.axis n
  let j := match ax.hostSlot with
    | some s => j.emit (.finish s code 0)
    | none => j
  let j := match ax.pendingMove with
    | some m => j.emit (.finish m.slot code 0)
    | none => j
  j.putAxis n { ax with holder := none, pendingMove := none }

/-- d read back from the focus position, while both positions are present (R105). -/
def Lens.derive (l : Lens) : Lens :=
  match l.coord.table, l.zoom.pos, l.focus.pos with
  | some t, some z, some p => { l with coord := { l.coord with distance := t.distanceFor z p l.coord.distance } }
  | _, _, _ => l

/-- What follows an axis's entry into IDLE, as a parameter of the actions that can bring one about. -/
abbrev OnIdle := AxisName → LensWork → LensWork

/-- A move with start condition NOW on a usable axis, for a host command or for the coordinator (R87, R89). `true`: it
has arrived at once. -/
def Job.goTo (onIdle : OnIdle) (n : AxisName) (target cap : Nat) (holder : Holder) (j : LensWork) : LensWork × Bool :=
  let r := (j.st.axis n).goTo target cap
  if r.2 then ((onIdle n (j.putAxis n { r.1 with holder := none })).emit (.raise (arrivalFactor n)), true)
  else (j.putAxis n { r.1 with holder := some holder }, false)

/-- The target of the coordinator request in force on the focus, or the focus position (R104). -/
def StepAxis.requestTarget (ax : StepAxis) : Nat :=
  if ax.holder = some .request then
    match ax.goal with
    | .moveTo t => t
    | .stopAt _ (.goTo t _) => t
    | _ => ax.at0
  else ax.at0

/-- Focus is retargeted at zoom position `z` (R104). A request ends a host command in force ABORTED (R89). -/
def Job.retargetAt (onIdle : OnIdle) (z : Nat) (j : LensWork) : LensWork :=
  let c := j.st.coord
  let ax := j.st.focus
  match c.table with
  | none => j
  | some t =>
    if c.tracking && !c.suspended && ax.usable then
      let f := t.focusFor z c.distance
      let g := max ax.low (min ax.high f)
      if g = ax.requestTarget then j
      else
        let j := j.endMotions .focus .aborted
        let j := if g = f then j else j.emit (.raise .limitReached)
        (j.goTo onIdle .focus g 0 .request).1
    else j

/-- Focus is retargeted at the zoom position in force, if the zoom is homed (R104). -/
def Job.retarget (onIdle : OnIdle) (j : LensWork) : LensWork :=
  match j.st.zoom.pos with
  | some z => j.retargetAt onIdle z
  | none => j

/-- The pending move of an axis is released (R88). -/
def Job.release (onIdle : OnIdle) (n : AxisName) (j : LensWork) : LensWork :=
  let ax := j.st.axis n
  match ax.pendingMove with
  | none => j
  | some m =>
    let r := (j.putAxis n { ax with pendingMove := none }).goTo onIdle n m.target m.cap (.host m.slot)
    if r.2 then r.1.emit (.finish m.slot .done 0) else r.1

/-- The pending move of an axis is released if it waits on the condition given (R107). -/
def Job.releaseOn (onIdle : OnIdle) (cond : StartCond) (n : AxisName) (j : LensWork) : LensWork :=
  if ((j.st.axis n).pendingMove.map PendingMove.cond) = some cond then j.release onIdle n else j

/-- An axis's entry into IDLE, handed to the coordinator (R96): on the focus axis tracking resumes (R105) or, at a home
edge, retargets (R104); then AFTER_STOP watches on the axis are met (R107). `fuel` bounds the entries that one entry can
bring about; no chain is longer than three. -/
def Job.idleEntryWith : Nat → Bool → OnIdle
  | 0, _, _, j => j
  | fuel + 1, homeEdge, n, j =>
    let onIdle := Job.idleEntryWith fuel false
    let j := match n with
      | .zoom => j
      | .focus =>
        if j.st.coord.suspended then
          (j.change Lens.derive).coord fun c => { c with suspended := false }
        else if homeEdge then j.retarget onIdle
        else j
    j.releaseOn onIdle (.afterStop n) (otherAxis n)

/-- An axis's entry into IDLE. -/
def Job.idleEntry (n : AxisName) (j : LensWork) : LensWork := j.idleEntryWith 4 false n

/-- A mark handed to the coordinator (R106, R107): the watches of both axes, zoom before focus (the model's choice, log 61). -/
def Job.mark (src : MarkSource) (j : LensWork) : LensWork :=
  (j.releaseOn Job.idleEntry (.onMark src) .zoom).releaseOn Job.idleEntry (.onMark src) .focus

/-- The mark source of comparator A or B of an axis (6.5). -/
def comparatorSource (n : AxisName) (b : Bool) : MarkSource :=
  match n, b with
  | .zoom, false => .zoomA
  | .zoom, true => .zoomB
  | .focus, false => .focusA
  | .focus, true => .focusB

/-- A comparator fires (R94): MARK if its factor enable is set, and then its mark; that MARK comes first is the model's choice
(log 64). -/
def Job.fire (n : AxisName) (b enable : Bool) (j : LensWork) : LensWork :=
  (if enable then j.emit (.raise .mark) else j).mark (comparatorSource n b)

/-- A step moves the position (R80): both comparators are evaluated and their marks handed over (R94), and after a zoom
step its position (R96, R104), all before the axis decides. DESIGN CHOICE (log 77): where both comparators fire, A's mark and MARK
come before B's. -/
def Job.takeStep (n : AxisName) (j : LensWork) : LensWork :=
  let c := (j.st.axis n).stepped.compare
  let j := j.putAxis n c.1
  let j := if c.2.1 then j.fire n false c.1.cmpA.enable else j
  let j := if c.2.2 then j.fire n true c.1.cmpB.enable else j
  match n, c.1.pos with
  | .zoom, some z => j.retargetAt Job.idleEntry z
  | _, _ => j

/-- A decision settled over the lens side (R80, R84, R89, R91, R94, R96): the axis, the comparators' marks of a home edge,
the zoom's ACCEL end and DECEL start marks, the entry into IDLE, the factors and the command's end (log 12). The position of a
zoom that is homed is handed over last, the model's choice (log 63), and A's mark before B's (log 77). -/
def Job.settle (n : AxisName) (r : StepResult) (j : LensWork) : LensWork :=
  let j := j.putAxis n r.ax
  let j := if r.firedA then j.fire n false r.ax.cmpA.enable else j
  let j := if r.firedB then j.fire n true r.ax.cmpB.enable else j
  let j := if r.accelEnd && decide (n = .zoom) then j.mark .zoomAccelEnd else j
  let j := if r.decelStart && decide (n = .zoom) then j.mark .zoomDecelStart else j
  let j := if r.enteredIdle then j.idleEntryWith 4 r.homeEdge n else j
  let j := { j with out := j.out ++ r.raises.map Out.raise }
  let j := match r.finish with
    | some (s, code, detail) => j.emit (.finish s code detail)
    | none => j
  if r.homeEdge && decide (n = .zoom) then j.retarget Job.idleEntry else j

/-- The next due step of an axis is issued, the home sensor at the level given after it (R80, R83, R84). Where no step is
due, the sensor's level alone changes (log 10, log 13). -/
def Job.axisStep (n : AxisName) (sensor : Bool) (j : LensWork) : LensWork :=
  let ax := { j.st.axis n with sensor := sensor }
  let j := j.putAxis n ax
  match ax.state, ax.homing with
  | .moving, _ =>
    let j := j.takeStep n
    j.settle n ((j.st.axis n).motionDecision n)
  | .homing, some (.slowing drop) =>
    let j := j.takeStep n
    j.settle n ((j.st.axis n).slowingDecision n drop)
  | .homing, some .again => j.settle n (.plain ({ ax with dir := some ax.motionDir }.beginHoming n))
  | .homing, some (.leg towardSensor steps false) =>
    j.settle n (ax.legStep n (j.st.range n) (j.st.homeValue n) towardSensor steps)
  | _, _ => j

/-- The dwell timer of an axis expires (R79, R83). -/
def StepAxis.dwellDone (ax : StepAxis) : StepAxis :=
  match ax.state, ax.homing with
  | .dwell, _ => ax.startNow ax.motionDir
  | .homing, some (.leg towardSensor steps true) => { ax with homing := some (.leg towardSensor steps false) }
  | _, _ => ax

/-! ### Lens table -/

/-- Whether an axis's range and home value are those of the table before (R77). -/
def sameTravel (n : AxisName) (t : LensTable) (old : Option LensTable) : Bool :=
  match old with
  | some o => decide (o.range n = t.range n) && decide (o.homeValue n = t.homeValue n)
  | none => false

/-- An axis is reset to the table (R77). -/
def Job.resetAxis (n : AxisName) (t : LensTable) (j : LensWork) : LensWork :=
  let j := j.endMotions n .aborted
  let ax := ((j.st.axis n).rest .unhomed).losePosition
  let j := j.putAxis n { ax with dir := none, low := 0, high := t.range n }
  match n with
  | .zoom => j.coord fun c => { c with rocker := if c.rocker = .hold then .lockout else c.rocker }
  | .focus => j.coord fun c => { c with suspended := false }

/-- A lens table is installed (R77, R101): the axes whose travel it changes are reset, zoom before focus (the model's choice,
log 60), and focus retargets. -/
def Job.install (t : LensTable) (j : LensWork) : LensWork :=
  let old := j.st.coord.table
  let j := j.coord fun c => { c with table := some t }
  let j := if sameTravel .zoom t old then j else j.resetAxis .zoom t
  let j := if sameTravel .focus t old then j else j.resetAxis .focus t
  j.retarget Job.idleEntry

/-- The load of a LENS_TABLE is granted with these 256 bytes and judged (R101). -/
def Job.judgeLoad (bytes : List Byte) (j : LensWork) : LensWork :=
  match j.st.coord.load with
  | none => j
  | some load =>
    let t := LensTable.ofBytes bytes
    let bad := t.firstBad j.st.inMotion
    let j := j.coord fun c => { c with load := none }
    match bad with
    | some check => j.emit (.finish load.slot .failed check)
    | none => (j.install t).emit (.finish load.slot .done 0)

/-! ### Grip -/

/-- The dead band of the rocker: |l − 128| ≤ 8 (R109). -/
def deadBand (level : Nat) : Bool := within 120 136 level

/-- The rocker's speed (R109): round((|l − 128| − 8) × v_max / 119), no higher than v_max, no lower than v_start. -/
def StepAxis.rockerSpeed (ax : StepAxis) (level : Nat) : Nat :=
  max ax.vStart (min ax.vMax (roundNat ((((level : Int) - 128).natAbs - 8) * ax.vMax) 119))

/-- The coordinator's zoom jog request at a rocker level (R90, R109, R110). Standing on the soft limit ahead it makes no
motion and stays in force; from WAITING or DWELL the axis then becomes IDLE (log 30). -/
def Job.rockerJog (level : Nat) (j : LensWork) : LensWork :=
  let d : Dir := if 128 < level then .up else .down
  let ax : StepAxis := { j.st.zoom with holder := some .request }
  if ax.atLimit d && decide (ax.state ≠ .moving) then
    match ax.state with
    | .idle => j.putAxis .zoom ax
    | _ => (j.putAxis .zoom (ax.rest .idle)).idleEntry .zoom
  else j.putAxis .zoom (ax.jogTo d (ax.rockerSpeed level))

/-- The rocker's hold ends (R108, R110): a zoom in motion stops by deceleration, and one that dwells becomes IDLE, each as a
request of the coordinator that arrives (R89; log 50). -/
def Job.rockerRelease (j : LensWork) : LensWork :=
  let ax := j.st.zoom
  match ax.state with
  | .moving => j.putAxis .zoom { ax.decelerate .rest with holder := some .request }
  | .dwell => ((j.putAxis .zoom { ax.rest .idle with holder := none }).idleEntry .zoom).emit (.raise .zoomDone)
  | _ => j.putAxis .zoom { ax with holder := none }

/-- The state the rocker takes when it is turned on at a level (R108). -/
def rockerStart (level : Nat) : RockerState := if deadBand level then .centre else .lockout

/-- A rocker sample after the first (R109, R110). -/
def Job.rockerChange (level : Nat) (j : LensWork) : LensWork :=
  let set (r : RockerState) (j : LensWork) : LensWork := j.coord fun c => { c with rocker := r }
  match j.st.coord.rocker, deadBand level with
  | .off, _ => j
  | .centre, true => j
  | .centre, false =>
    if j.st.zoom.usable then set .hold ((j.endMotions .zoom .aborted).rockerJog level) else set .lockout j
  | .hold, true => set .centre j.rockerRelease
  | .hold, false => j.rockerJog level
  | .lockout, true => set .centre j
  | .lockout, false => j

/-- One rocker sample (R109). The first after a reset gives the last level its value, and with it the state of a rocker
already turned on (log 15). -/
def Job.rockerSample (level : Nat) (j : LensWork) : LensWork :=
  let c := j.st.coord
  let k := j.coord fun c => { c with level := level, sampled := true }
  if !c.sampled then
    k.coord fun c => { c with rocker := if c.rocker = .centre ∨ c.rocker = .lockout then rockerStart level else c.rocker }
  else if c.level = level then k
  else k.rockerChange level

/-- `n` readings in a row that show the REC button pressed or not (R111; log 14): the coordinator, and whether a press
is acted on. -/
def Coordinator.recReadings (pressed : Bool) (n : Nat) (c : Coordinator) : Coordinator × Bool :=
  if n = 0 then (c, false)
  else if c.recPressed = pressed then ({ c with recRun := 0 }, false)
  else if c.recRun + n < 20 then ({ c with recRun := c.recRun + n }, false)
  else
    ({ c with recPressed := pressed, recRun := 0, recLockout := c.recLockout && pressed },
      pressed && c.recEnable && !c.recLockout)

/-! ### Record state and RESTART -/

/-- The record states in which the quiet flag is set (R112). -/
def RecState.quiet : RecState → Bool
  | .armed | .recording | .stopping => true
  | .idle | .standby | .closing => false

/-- A change of the record state reaches the zoom axis (R112). -/
def Lens.recordState (r : RecState) (l : Lens) : Lens := { l with zoom := { l.zoom with quiet := r.quiet } }

/-- An axis at the restart point (R76). One that still decelerates before homing loses its met flags with its position (R94;
log 53). -/
def StepAxis.restart (ax : StepAxis) : StepAxis :=
  let ax := { ax with holder := none, pendingMove := none, quiet := false }
  match ax.state with
  | .moving | .dwell | .waiting => ax.rest .idle
  | .homing => (ax.rest .unhomed).losePosition
  | .unhomed | .idle | .fault => ax

/-- The lens side at the restart point (R76, R113); `r` is the record state after the card engine's RESTART values. -/
def Lens.restart (r : RecState) (l : Lens) : Lens :=
  let l := { l with zoom := l.zoom.restart, focus := l.focus.restart }
  let l := if l.coord.suspended then l.derive else l
  let c := l.coord
  let rocker := if c.rocker = .hold then rockerStart c.level else c.rocker
  Lens.recordState r { l with coord := { c with load := none, suspended := false, rocker := rocker } }

/-- The iris at a frame complete (R98). -/
def Iris.frame (i : Iris) : Iris :=
  { i with
    duty :=
      if i.duty < i.target then min i.target (i.duty + i.step)
      else if i.target < i.duty then max i.target (i.duty - i.step)
      else i.duty }

end Sys2Proof.Machine
end

