-- ==== Sys2Proof/Machine/LensCommands.lean ====
section
/-! DEFINITION. The lens side's host commands, judged and carried out at their take (R83, R86 to R88, R90, R92, R93, R95,
R97, R100, R103, R108). Operands are the unsigned values of the slot's words. -/

namespace Sys2Proof.Machine

/-- A lens command's answer: the lens side after it, and its verdict. -/
abbrev LensAnswer := LensWork × Verdict

/-- The lens side unchanged, with a verdict. -/
def Lens.refuse (l : Lens) (v : Verdict) : LensAnswer := (.start l, v)

/-- HOME (R83). Taken in the deceleration that precedes homing, it lets that run on (log 54). -/
def Lens.home (slot : CmdSlot) (n : AxisName) (l : Lens) : LensAnswer :=
  match firstFailure [ownerTest l.coord.table.isSome .noLensTable, ownerTest (!l.held n) .busy] with
  | some v => l.refuse v
  | none =>
    let j := (Job.start l).endMotions n .superseded
    let ax := { j.st.axis n with holder := some (.host slot) }
    let ax := match ax.state, ax.homing with
      | .moving, _ => { ax.decelerate .rest with state := .homing, homing := some (.slowing false) }
      | .homing, some (.slowing _) => { ax with homing := some (.slowing false) }
      | .homing, some (.leg _ _ false) => { ax with homing := some .again }
      | .homing, some .again => ax
      | _, _ => ax.beginHoming n
    (j.putAxis n ax, .pending)

/-- The operand tests of MOVE: operands 2, 3 and 4, in that order (R86 step 1). -/
def moveOperands (n : AxisName) (vStart cap condition argument : Nat) : List Check :=
  [operandTest 2 (decide (cap = 0) || within vStart 8000 cap),
   operandTest 3 (decide (condition ≤ 2)),
   operandTest 4 (decide (condition = 0) ||
     match startCondOf condition argument with
     | some (.afterStop m) => decide (m ≠ n)
     | some (.onMark _) => true
     | none => false)]

/-- A MOVE's target within the soft limits (R86 step 5). -/
def StepAxis.clampTarget (ax : StepAxis) (t : Nat) : Nat := max ax.low (min ax.high t)

/-- The focus axis takes a host MOVE or JOG: tracking is suspended while it is on (R105). -/
def Job.suspend (n : AxisName) (j : LensWork) : LensWork :=
  match n with
  | .zoom => j
  | .focus => j.coord fun c => { c with suspended := c.suspended || c.tracking }

/-- An axis begins to wait with its pending move (R88). -/
def StepAxis.await (ax : StepAxis) : StepAxis :=
  match ax.state with
  | .moving => ax.decelerate .await
  | _ => ax.rest .waiting

/-- MOVE (R86 to R88). -/
def Lens.move (slot : CmdSlot) (n : AxisName) (target cap condition argument : Nat) (l : Lens) : LensAnswer :=
  let ax := l.axis n
  let t := ax.clampTarget target
  let tests := moveOperands n ax.vStart cap condition argument ++
    [ownerTest (!l.held n) .busy,
     ownerTest ax.usable .notHomed,
     operandTest 1 (decide (target ≤ 60000) && decide (target ≤ l.range n)),
     ownerTest (decide (t = target) || decide (ax.action = .clamp)) .outOfLimit]
  match firstFailure tests with
  | some v => l.refuse v
  | none =>
    let j : LensWork := .start l
    let j := if t = target then j else j.emit (.raise .limitReached)
    let j := (j.endMotions n .superseded).suspend n
    match (if condition = 0 then none else startCondOf condition argument) with
    | none =>
      let r := j.goTo Job.idleEntry n t cap (.host slot)
      (r.1, if r.2 then .done else .pending)
    | some c =>
      (j.putAxis n { (j.st.axis n).await with pendingMove := some ⟨t, cap, c, slot⟩ }, .pending)

/-- JOG (R90). -/
def Lens.jog (slot : CmdSlot) (n : AxisName) (direction speed : Nat) (l : Lens) : LensAnswer :=
  let ax := l.axis n
  let d : Dir := if direction = 1 then .up else .down
  let blocked := ax.atLimit d && decide (ax.state ≠ .moving)
  let tests :=
    [operandTest 1 (decide (direction ≤ 1)),
     operandTest 2 (decide (speed = 0) || within ax.vStart 8000 speed),
     ownerTest (!l.held n) .busy,
     ownerTest ax.usable .notHomed,
     ownerTest (!blocked || decide (ax.action = .clamp)) .outOfLimit]
  match firstFailure tests with
  | some v => l.refuse v
  | none =>
    if blocked then ((Job.start l).emit (.raise .limitReached), .done)
    else
      let j := ((Job.start l).endMotions n .superseded).suspend n
      (j.putAxis n { (j.st.axis n).jogTo d speed with holder := some (.host slot) }, .pending)

/-- STOP (R84, R92). `immediate`: IMMEDIATE, else DECEL. -/
def Job.stopAxis (n : AxisName) (immediate : Bool) (j : LensWork) : LensWork :=
  let ax := j.st.axis n
  match ax.state with
  | .moving =>
    let j := j.endMotions n .aborted
    let ax := j.st.axis n
    if immediate then (j.putAxis n (ax.rest .idle)).idleEntry n else j.putAxis n (ax.decelerate .rest)
  | .waiting | .dwell =>
    let j := j.endMotions n .aborted
    (j.putAxis n ((j.st.axis n).rest .idle)).idleEntry n
  | .homing =>
    let j := j.endMotions n .aborted
    let ax := j.st.axis n
    match ax.homing, immediate with
    | some (.slowing _), false => j.putAxis n { ax with homing := some (.slowing true) }
    | _, _ => j.putAxis n (ax.rest .unhomed).losePosition
  | .idle | .unhomed | .fault => j

/-- STOP (R92). -/
def Lens.stop (n : AxisName) (kind : Nat) (l : Lens) : LensAnswer :=
  match firstFailure [operandTest 1 (decide (kind ≤ 1)), ownerTest (!l.held n) .busy] with
  | some v => l.refuse v
  | none => ((Job.start l).stopAxis n (decide (kind = 1)), .done)

/-- The tests of AXIS_SET, in order (R93). -/
def Lens.axisSetTests (n : AxisName) (vStart vMax ramp dwell low high action quietCap : Nat) (l : Lens) : List Check :=
  let ax := l.axis n
  let range := l.range n
  let home := l.homeValue n
  [ownerTest l.coord.table.isSome .noLensTable,
   ownerTest ((decide (ax.state = .idle) || decide (ax.state = .unhomed)) && !l.held n) .busy,
   operandTest 1 (within 10 2000 vStart),
   operandTest 2 (within vStart 8000 vMax),
   operandTest 3 (within 1 4096 ramp),
   operandTest 4 (decide (dwell ≤ 255)),
   operandTest 5 (decide (low ≤ range)),
   operandTest 6 (within low range high),
   operandTest 7 (decide (action ≤ 1)),
   operandTest 8 (decide (n = .focus) || within vStart 8000 quietCap),
   operandTest 5 (decide (low ≤ home)),
   operandTest 6 (decide (home ≤ high)),
   operandTest 5 (decide (ax.state ≠ .idle) || decide (low ≤ ax.at0)),
   operandTest 6 (decide (ax.state ≠ .idle) || decide (ax.at0 ≤ high))]

/-- AXIS_SET (R93). -/
def Lens.axisSet (n : AxisName) (vStart vMax ramp dwell low high action quietCap : Nat) (l : Lens) : LensAnswer :=
  match firstFailure (l.axisSetTests n vStart vMax ramp dwell low high action quietCap) with
  | some v => l.refuse v
  | none =>
    let ax := l.axis n
    let ax := { ax with
      vStart := vStart
      vMax := vMax
      ramp := ramp
      dwell := dwell
      low := low
      high := high
      action := if action = 1 then .halt else .clamp
      quietCap := if n = .zoom then quietCap else ax.quietCap }
    ((Job.start l).putAxis n ax, .done)

/-- A comparator's condition from operand 3 (R95). -/
def cmpCondOf : Nat → CmpCond
  | 1 => .eq
  | 2 => .gt
  | 3 => .lt
  | _ => .off

/-- COMPARE_SET (R95). `comparator` 0 is A, 1 is B. -/
def Lens.compareSet (n : AxisName) (comparator value condition enable : Nat) (l : Lens) : LensAnswer :=
  let tests :=
    [operandTest 1 (decide (comparator ≤ 1)), operandTest 2 (decide (value ≤ 60000)),
     operandTest 3 (decide (condition ≤ 3)), operandTest 4 (decide (enable ≤ 1))]
  match firstFailure tests with
  | some v => l.refuse v
  | none =>
    let ax := l.axis n
    let c : Comparator := ⟨value, cmpCondOf condition, decide (enable = 1), false⟩
    let r := match ax.pos with
      | some p => c.evaluate p
      | none => (c, false)
    let ax := if comparator = 1 then { ax with cmpB := r.1 } else { ax with cmpA := r.1 }
    let j := (Job.start l).putAxis n ax
    (if r.2 then j.fire n (decide (comparator = 1)) c.enable else j, .done)

/-- FOCUS_TRACK (R103), also while the suspended flag is still set (log 55). -/
def Lens.focusTrack (enable distance : Nat) (l : Lens) : LensAnswer :=
  let busy := l.focus.hostSlot.isSome || l.focus.pendingMove.isSome
  let tests :=
    [operandTest 1 (decide (enable ≤ 1)), operandTest 2 (decide (distance ≤ 256)),
     ownerTest l.coord.table.isSome .noLensTable, ownerTest (!busy) .busy]
  match firstFailure tests with
  | some v => l.refuse v
  | none =>
    let j := (Job.start l).coord fun c =>
      { c with
        tracking := decide (enable = 1)
        distance := if distance = 256 then c.distance else distance }
    (if enable = 1 then j.retarget Job.idleEntry else j, .done)

/-- IRIS (R97). -/
def Lens.irisSet (target step : Nat) (l : Lens) : LensAnswer :=
  match firstFailure [operandTest 1 (decide (target ≤ 1023)), operandTest 2 (within 1 1023 step)] with
  | some v => l.refuse v
  | none => (.start { l with iris := { l.iris with target := target, step := step } }, .done)

/-- LENS_TABLE (R100). -/
def Lens.lensTable (slot : CmdSlot) (address : Nat) (l : Lens) : LensAnswer :=
  let tests :=
    [operandTest 1 (decide (address % 32 = 0) && decide (address ≤ 0x0FFFFF00)),
     ownerTest (l.coord.load.isNone && !l.inMotion) .busy]
  match firstFailure tests with
  | some v => l.refuse v
  | none =>
    (((Job.start l).coord fun c => { c with load := some ⟨address, slot⟩ }).emit
      (.request (.lensLoad address false)), .pending)

/-- GRIP_SET (R108). -/
def Lens.gripSet (rocker button : Nat) (l : Lens) : LensAnswer :=
  match firstFailure [operandTest 1 (decide (rocker ≤ 1)), operandTest 2 (decide (button ≤ 1))] with
  | some v => l.refuse v
  | none =>
    let set (r : RockerState) (j : LensWork) : LensWork := j.coord fun c => { c with rocker := r }
    let j : LensWork := .start l
    let j := match l.coord.rocker, decide (rocker = 1) with
      | .off, true => set (rockerStart l.coord.level) j
      | .off, false => j
      | .hold, false => set .off j.rockerRelease
      | .centre, false => set .off j
      | .lockout, false => set .off j
      | _, true => j
    let on := decide (button = 1)
    (j.coord fun c =>
      { c with recEnable := on, recLockout := c.recLockout || (on && !c.recEnable && c.recPressed) }, .done)

end Sys2Proof.Machine
end

