-- ==== Sys2Proof/Machine/Overlay.lean ====
section
/-! DEFINITION. The overlay unit (11): drawing (R175 to R179), the live layer (R180, R181), its commands (R182 to R184), the
snapshot (R177) and REGION (R174). -/

namespace Sys2Proof.Machine

/-! ### Drawing -/

/-- The ROM bit of a glyph's pixel (R176): only the printable characters past the space and 0x80 to 0x84 have any. -/
def glyphBit (code row column : Nat) : Bool :=
  (within 0x21 0x7E code || within 0x80 0x84 code) && Config.romBit code row column

/-- The content of a cell of a layer; an empty cell where the layer has none. -/
def cellAt (layer : List (List CellContent)) (row column : Nat) : CellContent :=
  ((layer[row]?.getD [])[column]?).getD .blank

/-- The content shown in a cell (R178): the live layer's where a field covers it, else the host layer's. -/
def Snapshot.shown (s : Snapshot) (row column : Nat) : CellContent :=
  match s.live.find? fun c => decide (c.row = row) && decide (c.column = column) with
  | some c => c.content
  | none => cellAt s.host row column

/-- The content is drawn (R178). -/
def Snapshot.drawn (s : Snapshot) (c : CellContent) : Bool :=
  decide (c.glyph ≠ 0) && (!c.blink || decide (s.vfFrames / 16 % 2 = 0))

/-- The drawn content of the cell that holds a view pixel, if any (R175, R178). -/
def Snapshot.contentAt (s : Snapshot) (columns rows x y : Nat) : Option CellContent :=
  if x / 40 < columns && y / 40 < rows then
    let c := s.shown (y / 40) (x / 40)
    if s.drawn c then some c else none
  else none

/-- Zebra marks a view pixel of luma `l` (R179). -/
def Snapshot.marks (s : Snapshot) (x y : Nat) (l : Byte) : Bool :=
  s.zebra && decide (s.level ≤ l.toNat) && decide (((x + y) / 4 + s.vfFrames / 4) % 2 = 0)

/-- A palette entry. -/
def Snapshot.colour (s : Snapshot) (index : Nat) : Colour := (s.palette[index]?).getD ⟨0, 0, 0⟩

/-- The luma of a view pixel after drawing (R178). -/
def Snapshot.luma (s : Snapshot) (content : Option CellContent) (x y : Nat) (l : Byte) : Byte :=
  match content with
  | some c =>
    if glyphBit c.glyph (y % 40) (x % 40) then (s.colour c.palette).y
    else if s.marks x y l then 16
    else if c.shade then BitVec.ofNat 8 (l.toNat / 2)
    else l
  | none => if s.marks x y l then 16 else l

/-- One pixel pair, Y0 Cb Y1 Cr, at view pixel `x` (R178). -/
def Snapshot.pair (s : Snapshot) (columns rows x y : Nat) (w : List Byte) : List Byte :=
  let content := s.contentAt columns rows x y
  let y0 := w.getD 0 0
  let y1 := w.getD 2 0
  let chroma := match content with
    | some c =>
      if glyphBit c.glyph (y % 40) (x % 40) then ((s.colour c.palette).cb, (s.colour c.palette).cr)
      else (w.getD 1 0, w.getD 3 0)
    | none => (w.getD 1 0, w.getD 3 0)
  [s.luma content x y y0, chroma.1, s.luma content (x + 1) y y1, chroma.2]

/-- `n` pixel pairs from view pixel `x` on. -/
def Snapshot.pairs (s : Snapshot) (columns rows y : Nat) : Nat → Nat → List Byte → List Byte
  | 0, _, _ => []
  | n + 1, x, data => s.pair columns rows x y (data.take 4) ++ s.pairs columns rows y n (x + 2) (data.drop 4)

/-- A VF beat at a view line below VH, from its first view pixel (R178). -/
def Overlay.draw (o : Overlay) (x y : Nat) (data : List Byte) : List Byte :=
  o.snapshot.pairs o.columns o.rows y 8 x data

/-- The snapshot taken at a VF latch (R177). -/
def Overlay.takeSnapshot (vfFrames : Nat) (o : Overlay) : Overlay :=
  { o with snapshot := ⟨o.host, o.live, o.palette, o.zebra, o.level, vfFrames⟩ }

/-! ### The live layer -/

/-- The width of a field, in the order of R181's table. -/
def fieldWidth : Nat → Nat
  | 0 => 11
  | 1 => 4
  | 2 => 12
  | 3 => 12
  | 4 => 12
  | 5 => 12
  | 6 => 12
  | 7 => 4
  | 8 => 2
  | _ => 0

/-- The values the live layer shows, as their owners hold them at a refresh (R181). -/
structure LiveValues where
  tc : TimecodeUnit
  dropFrame : Bool
  recState : RecState
  cardState : CardState
  zoom : Option Nat
  zr : Option Nat
  held : List Nat
  overs : List Bool
  minutes : Nat
  stabMode : StabMode
  panning : Bool

/-- A plain character of a live field. -/
def plain (code : Nat) : CellContent := ⟨code, 0, false, false⟩

/-- A character in a palette entry. -/
def inked (palette code : Nat) : CellContent := ⟨code, palette, false, false⟩

/-- The code of a digit. -/
def digit (d : Nat) : Nat := 0x30 + d

/-- The two digits of a BCD pair. -/
def Bcd.cells (b : Bcd) : List CellContent := [plain (digit b.tens), plain (digit b.units)]

/-- TIMECODE (R181). -/
def LiveValues.timecode (v : LiveValues) : List CellContent :=
  let t := match v.tc.mode with
    | .freeRun => v.tc.current
    | .recordRun => v.tc.recordRun
  t.hh.cells ++ [plain 0x3A] ++ t.mm.cells ++ [plain 0x3A] ++ t.ss.cells ++ [plain (if v.dropFrame then 0x3B else 0x3A)] ++
    t.ff.cells

/-- RECSTATE (R181): "STBY", the dot and "REC", "ARM ", "STOP", "ERR " or "----". -/
def LiveValues.recField (v : LiveValues) : List CellContent :=
  match v.recState with
  | .standby => [0x53, 0x54, 0x42, 0x59].map plain
  | .recording => [0x83, 0x52, 0x45, 0x43].map (inked 1)
  | .armed => [0x41, 0x52, 0x4D, 0x20].map fun c => ⟨c, 0, true, false⟩
  | .stopping | .closing => [0x53, 0x54, 0x4F, 0x50].map plain
  | .idle =>
    match v.cardState with
    | .fault => [0x45, 0x52, 0x52, 0x20].map (inked 1)
    | _ => [0x2D, 0x2D, 0x2D, 0x2D].map plain

/-- The bar glyph of cell `i` at `h` half-steps: 0x82, 0x81 or 0x80 (R181). -/
def barGlyph (h i : Nat) : Nat := if 2 * i + 2 ≤ h then 0x82 else if h = 2 * i + 1 then 0x81 else 0x80

/-- ZOOM (R181). -/
def LiveValues.zoomField (v : LiveValues) : List CellContent :=
  let h := match v.zoom, v.zr with
    | some z, some zr => roundNat (z * 20) zr
    | _, _ => 0
  [plain 0x57] ++ (List.range 10).map (fun i => plain (barGlyph h i)) ++ [plain 0x54]

/-- METER1 to METER4 (R181), for channel `n`. -/
def LiveValues.meter (v : LiveValues) (n : Nat) : List CellContent :=
  let s := v.held.getD n 0
  (List.range 12).map fun i =>
    inked (if v.overs.getD n false then 1 else if i ≤ 8 then 3 else 2) (barGlyph s i)

/-- REMAIN (R181): three digits with leading spaces, then 'M'. -/
def LiveValues.remain (v : LiveValues) : List CellContent :=
  match v.cardState with
  | .ready | .full =>
    let m := v.minutes
    [plain (if m < 100 then 0x20 else digit (m / 100 % 10)), plain (if m < 10 then 0x20 else digit (m / 10 % 10)),
      plain (digit (m % 10)), plain 0x4D]
  | _ => [0x2D, 0x2D, 0x2D, 0x2D].map plain

/-- STAB (R181). -/
def LiveValues.stab (v : LiveValues) : List CellContent :=
  match v.stabMode with
  | .off => [plain 0x20, plain 0x20]
  | .calibrating => [plain 0x84, plain 0x43]
  | .hold => [inked 2 0x84, inked 2 0x48]
  | .active => if v.panning then [plain 0x84, plain 0x50] else [plain 0x84, plain 0x20]

/-- A field's cells, in the order of R181's table. -/
def LiveValues.field (v : LiveValues) : Nat → List CellContent
  | 0 => v.timecode
  | 1 => v.recField
  | 2 => v.zoomField
  | 3 => v.meter 0
  | 4 => v.meter 1
  | 5 => v.meter 2
  | 6 => v.meter 3
  | 7 => v.remain
  | 8 => v.stab
  | _ => []

/-- Contents placed from a cell rightward. -/
def placeCells (row : Nat) : Nat → List CellContent → List LiveCell
  | _, [] => []
  | column, c :: cs => ⟨row, column, c⟩ :: placeCells row (column + 1) cs

/-- The live layer built anew (R180). -/
def Overlay.refresh (v : LiveValues) (o : Overlay) : Overlay :=
  { o with
    live := (List.range 9).flatMap fun i =>
      match o.fields[i]? with
      | some f => if f.enabled then placeCells f.row f.column (v.field i) else []
      | none => [] }

/-! ### Commands -/

/-- The field fits the grid at a place (R182 step 2). -/
def Overlay.fits (o : Overlay) (field row column : Nat) : Bool :=
  decide (row < o.rows) && decide (column + fieldWidth field ≤ o.columns)

/-- Two fields of the given widths share a cell. -/
def shareCell (rowA colA widthA rowB colB widthB : Nat) : Bool :=
  decide (rowA = rowB) && decide (colA < colB + widthB) && decide (colB < colA + widthA)

/-- A field at a place would share a cell with another enabled field (R182 step 3). -/
def Overlay.overlaps (o : Overlay) (field row column : Nat) : Bool :=
  (List.range 9).any fun i =>
    match o.fields[i]? with
    | some f => decide (i ≠ field) && f.enabled && shareCell row column (fieldWidth field) f.row f.column (fieldWidth i)
    | none => false

/-- FIELD_SET (R182). -/
def Overlay.fieldSet (field row column enable : Nat) (o : Overlay) : Overlay × Verdict :=
  let off := decide (enable = 0)
  let tests :=
    [operandTest 1 (decide (field ≤ 8)),
     operandTest 4 (decide (enable ≤ 1)),
     operandTest 2 (off || decide (row < o.rows)),
     operandTest 3 (off || decide (column + fieldWidth field ≤ o.columns)),
     ownerTest (off || !o.overlaps field row column) .overlap]
  match firstFailure tests, o.fields[field]? with
  | some v, _ => (o, v)
  | none, some f =>
    ({ o with
        fields := o.fields.setIfInBounds field (if off then { f with enabled := false } else ⟨row, column, true⟩) }, .done)
  | none, none => (o, .badValue 1)

/-- Contents written into a row from a column rightward, none at or past `limit` (R183). -/
def writeCells (limit : Nat) : Nat → List CellContent → List CellContent → List CellContent
  | _, [], row => row
  | column, c :: cs, row => writeCells limit (column + 1) cs (if column < limit then row.set column c else row)

/-- The glyph codes of TEXT's operands 3 to 14, four to a word, the first in byte 0 (12.1). -/
def textCodes (codes : Vector Word 12) : List Nat :=
  codes.toList.flatMap fun w => (leBytes 4 w.toNat).map BitVec.toNat

/-- TEXT (R183), its packed operands as 12.1 gives them. -/
def Overlay.text (position form : Nat) (codes : Vector Word 12) (o : Overlay) : Overlay × Verdict :=
  let column := position % 256
  let row := position / 256 % 256
  let count := form % 256
  let palette := form / 256 % 4
  match firstFailure [operandTest 2 (within 1 48 count),
      operandTest 1 (decide (row < o.rows) && decide (column < o.columns))] with
  | some v => (o, v)
  | none =>
    let cells := ((textCodes codes).take count).map fun c => ⟨c, palette, form.testBit 10, form.testBit 11⟩
    ({ o with host := o.host.set row (writeCells o.columns column cells (o.host[row]?.getD [])) }, .done)

/-- TEXT_CLEAR (R183). -/
def Overlay.textClear (row : Nat) (o : Overlay) : Overlay × Verdict :=
  match firstFailure [operandTest 1 (decide (row = 255) || decide (row < o.rows))] with
  | some v => (o, v)
  | none =>
    if row = 255 then ({ o with host := blankLayer }, .done)
    else ({ o with host := o.host.set row (List.replicate 48 .blank) }, .done)

/-- ZEBRA_SET (R184). -/
def Overlay.zebraSet (enable level : Nat) (o : Overlay) : Overlay × Verdict :=
  match firstFailure [operandTest 1 (decide (enable ≤ 1)), operandTest 2 (decide (level ≤ 255))] with
  | some v => (o, v)
  | none => ({ o with zebra := decide (enable = 1), level := level }, .done)

/-- PALETTE_SET (R184). -/
def Overlay.paletteSet (entry y cb cr : Nat) (o : Overlay) : Overlay × Verdict :=
  let tests :=
    [operandTest 1 (decide (entry ≤ 3)), operandTest 2 (decide (y ≤ 255)), operandTest 3 (decide (cb ≤ 255)),
     operandTest 4 (decide (cr ≤ 255))]
  match firstFailure tests with
  | some v => (o, v)
  | none =>
    ({ o with
        palette := o.palette.setIfInBounds entry ⟨BitVec.ofNat 8 y, BitVec.ofNat 8 cb, BitVec.ofNat 8 cr⟩ }, .done)

/-- The overlay unit after a REGION that changes VW or VH (R174). -/
def Overlay.regrid (vw vh : Nat) (o : Overlay) : Overlay :=
  let o := { o with columns := vw / 40, rows := vh / 40, host := blankLayer }
  let keep (i : Nat) (f : Placement) : Placement := { f with enabled := f.enabled && o.fits i f.row f.column }
  let f := o.fields
  { o with
    fields := #v[keep 0 f[0], keep 1 f[1], keep 2 f[2], keep 3 f[3], keep 4 f[4], keep 5 f[5], keep 6 f[6], keep 7 f[7],
      keep 8 f[8]] }

end Sys2Proof.Machine
end

