-- ==== Sys2Proof/Machine/Slots.lean ====
section
/-! DEFINITION. The slot manager (03): the slot table and its orders (R37), capture (R39 to R41), frame complete (R42,
R43), the readers' latches (R45, R46) and the mapping through the crop (R47), with the geometry of the region map (R5). -/

namespace Sys2Proof.Machine

/-! ### Geometry -/

/-- MX (R5). -/
def RegionMap.mx (m : RegionMap) : Nat := (m.cw - m.vw) / 2

/-- MY (R5). -/
def RegionMap.my (m : RegionMap) : Nat := (m.ch - m.vh) / 2

/-- The slot pitch (R5). -/
def RegionMap.pitch (m : RegionMap) : Nat := upToMultiple 32 (m.cw * m.ch * 2)

/-- Where a slot begins (R5). -/
def RegionMap.slotAt (m : RegionMap) (k : Nat) : Nat := m.slotBase + k * m.pitch

/-- The bytes of a capture frame. -/
def RegionMap.frameBytes (m : RegionMap) : Nat := m.cw * m.ch * 2

/-! ### The slot table -/

/-- What the slot manager hands to the other blocks. -/
inductive SlotOut
  /-- a factor to raise -/
  | raise (f : Factor)
  /-- an encoder-skip notice to the card engine (R43) -/
  | skip
  /-- the FRAME mark to the lens coordinator (R40) -/
  | frameMark
  deriving DecidableEq, Repr

/-- The slot manager at work. -/
abbrev SlotWork := Job SlotManager SlotOut

/-- A reader's record. -/
def SlotManager.reader (m : SlotManager) : Reader → ViewReader
  | .enc => m.enc
  | .vf => m.vf

/-- A reader's record replaced. -/
def SlotManager.setReader (r : Reader) (v : ViewReader) (m : SlotManager) : SlotManager :=
  match r with
  | .enc => { m with enc := v }
  | .vf => { m with vf := v }

/-- Some reader is attached to a slot: a complete slot is then SHOWN, and READY otherwise (R37). -/
def SlotManager.attached (m : SlotManager) (k : Nat) : Bool := decide (m.enc.slot = some k) || decide (m.vf.slot = some k)

/-- The frame of a complete slot. -/
def SlotManager.frameIn (m : SlotManager) (k : Nat) : Option CompleteFrame :=
  match m.table[k]? with
  | some (.complete f) => some f
  | _ => none

/-- The FILLING slot among entries numbered from `k`, with its last line written. -/
def fillingFrom (k : Nat) : List FrameSlot → Option (Nat × Nat)
  | [] => none
  | .filling n :: _ => some (k, n)
  | _ :: t => fillingFrom (k + 1) t

/-- The FILLING slot, with its last line written. -/
def SlotManager.filling (m : SlotManager) : Option (Nat × Nat) := fillingFrom 0 m.table

/-- The newest complete slot (3.1). -/
def SlotManager.newest (m : SlotManager) : Option Nat := m.completion.getLast?

/-- The oldest READY slot (3.1). -/
def SlotManager.oldestReady (m : SlotManager) : Option Nat := m.completion.find? fun k => !m.attached k

/-- A slot's entry replaced. -/
def SlotManager.setSlot (k : Nat) (e : FrameSlot) (m : SlotManager) : SlotManager := { m with table := m.table.set k e }

/-- A slot becomes FREE: it is appended at the newest end of the free order (R37). -/
def SlotManager.toFree (k : Nat) (m : SlotManager) : SlotManager :=
  { m with
    table := m.table.set k .free
    freeOrder := m.freeOrder ++ [k]
    completion := m.completion.filter (· ≠ k) }

/-- A slot becomes FILLING at line 0 (R40 step 3). -/
def SlotManager.toFilling (k : Nat) (m : SlotManager) : SlotManager :=
  { m with
    table := m.table.set k (.filling 0)
    freeOrder := m.freeOrder.filter (· ≠ k)
    completion := m.completion.filter (· ≠ k) }

/-- Every slot of a table of `n` becomes FREE, nothing counted (R37, R52). -/
def SlotManager.freeAll (n : Nat) (m : SlotManager) : SlotManager :=
  { m with table := List.replicate n .free, freeOrder := List.range n, completion := [] }

/-- A complete frame is released (R43); `recording`: the record state is RECORDING. -/
def Job.releaseFrame (j : SlotWork) (recording : Bool) (k : Nat) : SlotWork :=
  match j.st.frameIn k with
  | none => j
  | some f =>
    let j := if f.seenEnc || f.seenVf then j else j.change fun m => { m with unshown := saturate32 m.unshown }
    if !f.seenEnc && recording && j.st.enc.slot.isSome then
      ((j.change fun m => { m with skips := saturate32 m.skips }).emit (.raise .encSkip)).emit .skip
    else j

/-! ### Capture -/

/-- The byte positions of a beat at offset `o` that are enabled and inside the frame. -/
def touchedBytes (frameBytes o : Nat) (enables : List Bool) : List Nat :=
  ((List.range 32).filter fun i => enables.getD i false).map (o + ·) |>.filter (· < frameBytes)

/-- The highest line a beat touches, where it touches one, and whether it touches line 0 (3.2). -/
def linesTouched (m : RegionMap) (o : Nat) (enables : List Bool) : Option Nat × Bool :=
  let lines := (touchedBytes m.frameBytes o enables).map (· / (m.cw * 2))
  (lines.max?, lines.any (· = 0))

/-- A frame start (R40): `none` where no slot can be claimed. -/
def Job.frameStart (j : SlotWork) (recording : Bool) : Option SlotWork :=
  let j := match j.st.filling with
    | some (k, _) =>
      (j.change fun m => { m.toFree k with torn := saturate32 m.torn }).emit (.raise .frameTorn)
    | none => j
  match j.st.freeOrder.head?, j.st.oldestReady with
  | some k, _ => some ((j.change (SlotManager.toFilling k)).emit .frameMark)
  | none, some k => some (((j.releaseFrame recording k).change (SlotManager.toFilling k)).emit .frameMark)
  | none, none => none

/-- The slot manager's answer to a capture beat (R13). -/
inductive CaptureAnswer
  | redirect (slot : Nat)
  | drop
  deriving DecidableEq, Repr

/-- A capture beat inside the frame, after any frame start (R41). -/
def Job.fillBeat (j : SlotWork) (highest : Option Nat) : SlotWork × CaptureAnswer :=
  match j.st.filling with
  | some (k, last) => (j.change (SlotManager.setSlot k (.filling (max last (highest.getD 0)))), .redirect k)
  | none => (j, .drop)

/-- A capture alias WRITE beat at an offset (R39 to R41); `none` where a frame start finds no slot to claim. -/
def Job.captureBeat (j : SlotWork) (m : RegionMap) (recording : Bool) (o : Nat) (enables : List Bool) :
    Option (SlotWork × CaptureAnswer) :=
  if m.frameBytes ≤ o then some (j.emit (.raise .captureSpill), .drop)
  else
    let t := linesTouched m o enables
    let starts := t.2 && match j.st.filling with
      | some (_, last) => decide (0 < last)
      | none => true
    if starts then (j.frameStart recording).map fun j => j.fillBeat t.1 else some (j.fillBeat t.1)

/-- The beat redirected into a slot writes the frame's last byte (R42). -/
def completes (m : RegionMap) (o : Nat) (enables : List Bool) : Bool :=
  decide (o ≤ m.frameBytes - 1) && enables.getD (m.frameBytes - 1 - o) false

/-- The slot is FILLING. -/
def SlotManager.isFilling (m : SlotManager) (k : Nat) : Bool :=
  match m.table[k]? with
  | some (.filling _) => true
  | _ => false

/-- R42 steps 1 to 4: the frame counter advances and the slot becomes READY with its frame. -/
def SlotManager.complete (k : Nat) (zoom : Option Nat) (dx dy : Int) (m : SlotManager) : SlotManager :=
  let n := (m.frameCounter + 1) % 4294967296
  { m with
    frameCounter := n
    table := m.table.set k (.complete ⟨n, dx, dy, zoom, false, false⟩)
    completion := m.completion ++ [k] }

/-- R42 step 5: every other READY slot is released and becomes FREE, in completion order. -/
def Job.releaseOthers (j : SlotWork) (recording : Bool) (k : Nat) : SlotWork :=
  (j.st.completion.filter fun i => decide (i ≠ k) && !j.st.attached i).foldl
    (fun j i => (j.releaseFrame recording i).change (SlotManager.toFree i)) j

/-! ### Readers -/

/-- The answer to a view beat (R14, R45). -/
inductive ViewAnswer
  | blankLine
  | noFrame
  | source (address : Nat)
  deriving DecidableEq, Repr

/-- A reader leaves its slot (R46 step 1). -/
def SlotManager.detach (r : Reader) (m : SlotManager) : SlotManager :=
  let v := m.reader r
  match v.slot with
  | none => m
  | some k =>
    let m := m.setReader r { v with slot := none }
    if m.attached k || decide (m.newest = some k) then m else m.toFree k

/-- A reader is marked in the seen set of a frame. -/
def CompleteFrame.see (r : Reader) (f : CompleteFrame) : CompleteFrame :=
  match r with
  | .enc => { f with seenEnc := true }
  | .vf => { f with seenVf := true }

/-- A reader attaches to the newest complete slot, if there is one (R46 step 2). -/
def SlotManager.attach (r : Reader) (m : SlotManager) : SlotManager :=
  match m.newest with
  | none => m
  | some k =>
    let m := m.setReader r { m.reader r with slot := some k }
    match m.frameIn k with
    | some f => m.setSlot k (.complete (f.see r))
    | none => m

/-- A latch (R46). -/
def SlotManager.latch (r : Reader) (m : SlotManager) : SlotManager :=
  let m := (m.detach r).attach r
  match r with
  | .enc => m
  | .vf => { m with vfFrames := (m.vfFrames + 1) % 4294967296 }

/-- The source of a view beat in a slot, through its crop (R47). -/
def RegionMap.sourceAt (m : RegionMap) (k x y : Nat) (f : CompleteFrame) : Nat :=
  ((m.slotAt k : Int) + ((y : Int) + m.my + f.dy) * (m.cw * 2) + ((x : Int) + m.mx + f.dx) * 2).toNat

/-- The view line of a beat at an offset (R45). -/
def RegionMap.viewLine (m : RegionMap) (o : Nat) : Nat := o / (m.vw * 2)

/-- The first view pixel of a beat at an offset (R45). -/
def RegionMap.viewPixel (m : RegionMap) (o : Nat) : Nat := o % (m.vw * 2) / 2

/-- A view beat makes a latch (R45, R46). -/
def SlotManager.latches (r : Reader) (y : Nat) (m : SlotManager) : Bool :=
  decide (y = 0) && (decide ((m.reader r).lastLine ≠ 0) || (m.reader r).slot.isNone)

/-- A view alias READ beat at an offset (R45 to R48): the slot manager after it, its answer, and whether it latched. -/
def SlotManager.viewBeat (r : Reader) (map : RegionMap) (o : Nat) (m : SlotManager) : SlotManager × ViewAnswer × Bool :=
  let y := map.viewLine o
  let latched := decide (y < map.vh) && m.latches r y
  let m := if latched then m.latch r else m
  let m := m.setReader r { m.reader r with lastLine := y }
  let answer : ViewAnswer :=
    if map.vh ≤ y then .blankLine
    else
      match (m.reader r).slot with
      | none => .noFrame
      | some k =>
        match m.frameIn k with
        | some f => .source (map.sourceAt k (map.viewPixel o) y f)
        | none => .noFrame
  (m, answer, latched)

/-- The slot manager at the restart point (R52), with a table of `n` slots. -/
def SlotManager.restart (n : Nat) : SlotManager := .reset n

end Sys2Proof.Machine
end

