-- ==== Sys2Proof/Machine/Stabiliser.lean ====
section
/-! DEFINITION. The stabiliser (04): samples (R57, R59, R60, R73, R74), the crop at a frame complete (R61 to R65), pan
states (R67, R68), STAB_SET (R69 to R71), STAB_CAL (R72) and RESTART (R55). -/

namespace Sys2Proof.Machine

/-- The stabiliser at work. -/
abbrev StabWork := Job Stabiliser Out

/-! ### One axis -/

/-- How many accumulator units a gyro unit turns in one sample period: 2048 / fs (R57). -/
def GyroRate.units : GyroRate → Int
  | .hz512 => 4
  | .hz1024 => 2
  | .hz2048 => 1

/-- The corrected rate r (R57 step 1). -/
def StabAxis.correct (raw : Int) (a : StabAxis) : Int := sat16 ((if a.reversed then -1 else 1) * (raw - a.bias))

/-- An accumulator less its leak (R57, R60). -/
def leaked (shift : Nat) (acc : Int) : Int := acc - truncDiv acc (2 ^ shift)

/-- An accumulator clamped to a limit (R57 step 4, R63). -/
def clampAcc (lim : Nat) (acc : Int) : Int := clampInt (-lim) lim acc

/-- One valid sample integrated on an axis (R57). -/
def StabAxis.integrate (rate : GyroRate) (lTrack lPan : Nat) (raw : Int) (a : StabAxis) : StabAxis :=
  let shift := match a.panState with
    | .track => lTrack
    | .pan => lPan
  let moved := leaked shift a.acc + a.correct raw * rate.units
  let held := clampAcc a.lim moved
  { a with acc := held, clamped := a.clamped || decide (held ≠ moved) }

/-- One sample period of HOLD on an axis (R60). -/
def StabAxis.drain (lPan : Nat) (a : StabAxis) : StabAxis := { a with acc := leaked lPan a.acc }

/-- An axis whose mode becomes OFF or CALIBRATING (R56). -/
def StabAxis.clear (a : StabAxis) : StabAxis :=
  { a with acc := 0, clamped := false, panState := .track, hitRun := 0, centreRun := 0 }

/-- An axis after a change of the gyro rate (R71). -/
def StabAxis.rateChanged (a : StabAxis) : StabAxis := { a with acc := 0, clamped := false }

/-- The limit of an axis with margin `m` at gain `k16` (R63). -/
def axisLimit (m k16 : Nat) : Nat := min (2 ^ 30) (m * 16 * 2 ^ 18 / k16)

/-- The pixel offset of an accumulator, before the even rule (R64). -/
def cropPixels (k16 : Nat) (acc : Int) : Int := roundDiv (truncDiv (acc * k16) (2 ^ 18)) 16

/-- The even rule (R64 step 3): an odd number moves one step toward zero. -/
def evenToward (p : Int) : Int := if p % 2 = 0 then p else if p < 0 then p + 1 else p - 1

/-- dx from the yaw accumulator (R64, R65). -/
def cropX (mx k16 : Nat) (acc : Int) : Int := clampInt (-mx) mx (-(evenToward (cropPixels k16 acc)))

/-- dy from the pitch accumulator (R64, R65). -/
def cropY (my k16 : Nat) (acc : Int) : Int := clampInt (-my) my (cropPixels k16 acc)

/-- An axis with its new limit and its accumulator clamped to it; the clamp counts as a margin hit of this frame (R61 steps
2 and 3, R63). -/
def StabAxis.relimit (lim : Nat) (live : Bool) (a : StabAxis) : StabAxis :=
  if live then
    { a with lim := lim, acc := clampAcc lim a.acc, clamped := a.clamped || decide (clampAcc lim a.acc ≠ a.acc) }
  else { a with lim := lim }

/-- An axis's pan state at a frame complete (R67, R68), and whether it has entered PAN. `crop` is its crop component, `hold`
the H of this frame: a run already at or above a lowered H moves the axis at a frame that counts toward it (R70; log 57). -/
def StabAxis.panStep (margin hold : Nat) (crop : Int) (a : StabAxis) : StabAxis × Bool :=
  if margin = 0 then ({ a with panState := .track, hitRun := 0, centreRun := 0 }, false)
  else
    match a.panState with
    | .track =>
      let run := if a.clamped || decide (crop.natAbs = margin) then a.hitRun + 1 else 0
      if hold ≤ run then ({ a with panState := .pan, hitRun := 0, centreRun := 0 }, true)
      else ({ a with hitRun := run }, false)
    | .pan =>
      let run := if 2 * crop.natAbs < margin then a.centreRun + 1 else 0
      if hold ≤ run then ({ a with panState := .track, hitRun := 0, centreRun := 0 }, false)
      else ({ a with centreRun := run }, false)

/-! ### The whole stabiliser -/

/-- Both axes changed alike. -/
def Stabiliser.both (f : StabAxis → StabAxis) (s : Stabiliser) : Stabiliser := { s with yaw := f s.yaw, pitch := f s.pitch }

/-- The mode becomes OFF or CALIBRATING (R56; log 34). -/
def Stabiliser.clear (mode : StabMode) (s : Stabiliser) : Stabiliser :=
  { s.both StabAxis.clear with mode := mode, missingRun := 0, validRun := 0 }

/-- A calibration ends: the mode becomes the return mode (R73, R74). -/
def Stabiliser.endCalibration (c : Calibration) (s : Stabiliser) : Stabiliser :=
  { s with mode := if c.toActive then .active else .off, cal := none, missingRun := 0 }

/-- The reading lies within 640 units of the first (R73). -/
def still (first raw : Int) : Bool := decide ((raw - first).natAbs ≤ 640)

/-- A valid sample in CALIBRATING (R73, R74). -/
def Job.calibrate (j : StabWork) (yaw pitch : Int) (c : Calibration) : StabWork :=
  let steady := match c.first with
    | some f => still f.1 yaw && still f.2 pitch
    | none => true
  if !steady then
    ((j.change (Stabiliser.endCalibration c)).emit (.raise .calFailed)).emit (.finish c.slot .failed 1)
  else
    let c := { c with
      count := c.count + 1
      first := some (c.first.getD (yaw, pitch))
      sumYaw := c.sumYaw + yaw
      sumPitch := c.sumPitch + pitch }
    if c.count < 256 then j.change fun s => { s with cal := some c }
    else
      let j := j.change fun s =>
        { s.endCalibration c with
          yaw := { s.yaw with bias := roundDiv c.sumYaw 256 }
          pitch := { s.pitch with bias := roundDiv c.sumPitch 256 } }
      (j.emit (.raise .calDone)).emit (.finish c.slot .done 0)

/-- A valid sample (R57, R60, R73). -/
def Job.validSample (j : StabWork) (yaw pitch : Int) : StabWork :=
  let s := j.st
  match s.mode with
  | .off => j
  | .active =>
    j.change fun s =>
      { s with
        yaw := s.yaw.integrate s.rate s.lTrack s.lPan yaw
        pitch := s.pitch.integrate s.rate s.lTrack s.lPan pitch
        missingRun := 0 }
  | .hold =>
    let j := j.change (Stabiliser.both (StabAxis.drain s.lPan))
    if s.validRun + 1 < 16 then j.change fun s => { s with validRun := s.validRun + 1 }
    else (j.change fun s => { s with mode := .active, validRun := 0, missingRun := 0 }).emit (.raise .gyroBack)
  | .calibrating =>
    match s.cal with
    | some c => j.calibrate yaw pitch c
    | none => j

/-- A missing sample (R59, R60, R73). -/
def Job.missingSample (j : StabWork) : StabWork :=
  let s := j.st
  match s.mode with
  | .off | .calibrating => j
  | .active =>
    if s.missingRun + 1 < 8 then j.change fun s => { s with missingRun := s.missingRun + 1 }
    else
      (j.change fun s =>
        { s.both (StabAxis.drain s.lPan) with mode := .hold, validRun := 0, missingRun := 0 }).emit (.raise .gyroLost)
  | .hold => j.change fun s => { s.both (StabAxis.drain s.lPan) with validRun := 0 }

/-- One sample event (R53). -/
def Job.sample (j : StabWork) : GyroAnswer → StabWork
  | .valid yaw pitch => j.validSample (gyroRaw yaw) (gyroRaw pitch)
  | .missing => j.missingSample
  | .overtaken => j

/-- The pending copy is applied (R70). -/
def Stabiliser.applyCopy (s : Stabiliser) : Stabiliser :=
  match s.copy with
  | none => s
  | some c =>
    let s := { s with
      copy := none
      enable := c.enable
      lTrack := c.lTrack
      lPan := c.lPan
      hold := c.hold
      yaw := { s.yaw with reversed := c.yawReversed }
      pitch := { s.pitch with reversed := c.pitchReversed } }
    match s.mode, c.enable with
    | .off, true => { s with mode := .active, missingRun := 0 }
    | .off, false => s
    | .active, false => s.clear .off
    | .hold, false => s.clear .off
    | .active, true => s
    | .hold, true => s
    | .calibrating, e => { s with cal := s.cal.map fun k => { k with toActive := e } }

/-- The mode forms a crop. -/
def StabMode.crops : StabMode → Bool
  | .active | .hold => true
  | .off | .calibrating => false

/-- K16 of a frame, where a table is loaded (R62). -/
def frameGain (table : Option LensTable) (zoom : Option Nat) : Option Nat := table.map fun t => t.gain zoom

/-- The limit of an axis at a frame complete; 0 without a table (R61 step 2). -/
def frameLimit (margin : Nat) (gain : Option Nat) : Nat :=
  match gain with
  | some k => axisLimit margin k
  | none => 0

/-- What a frame complete leaves at the stabiliser, and the crop it hands back (R61). -/
structure CropResult where
  stab : Stabiliser
  dx : Int
  dy : Int
  /-- an axis has entered PAN -/
  panned : Bool

/-- The stabiliser's work at a frame complete (R61), for margins MX and MY and the captured zoom position. -/
def Stabiliser.frame (mx my : Nat) (table : Option LensTable) (zoom : Option Nat) (s : Stabiliser) : CropResult :=
  let s := s.applyCopy
  let live := s.mode.crops
  let gain := frameGain table zoom
  let yaw := s.yaw.relimit (frameLimit mx gain) live
  let pitch := s.pitch.relimit (frameLimit my gain) live
  if live then
    let dx := cropX mx (gain.getD 0) yaw.acc
    let dy := cropY my (gain.getD 0) pitch.acc
    let y := yaw.panStep mx s.hold dx
    let p := pitch.panStep my s.hold dy
    ⟨{ s with yaw := { y.1 with clamped := false }, pitch := { p.1 with clamped := false } }, dx, dy, y.2 || p.2⟩
  else ⟨{ s with yaw := { yaw with clamped := false }, pitch := { pitch with clamped := false } }, 0, 0, false⟩

/-! ### Commands and RESTART -/

/-- The gyro rate that operand 2 of STAB_SET names (4.7). -/
def gyroRateOf : Nat → Option GyroRate
  | 512 => some .hz512
  | 1024 => some .hz1024
  | 2048 => some .hz2048
  | _ => none

/-- The tests of STAB_SET, in order (R69). -/
def Stabiliser.setTests (table : Option LensTable) (enable rate lTrack lPan hold yaw pitch : Nat) (s : Stabiliser) :
    List Check :=
  [operandTest 1 (decide (enable ≤ 1)),
   operandTest 2 (gyroRateOf rate).isSome,
   operandTest 3 (within 8 16 lTrack),
   operandTest 4 (within 4 12 lPan && decide (lPan ≤ lTrack)),
   operandTest 5 (within 1 15 hold),
   operandTest 6 (decide (yaw ≤ 1)),
   operandTest 7 (decide (pitch ≤ 1)),
   ownerTest table.isSome .noLensTable,
   ownerTest (decide (s.mode ≠ .calibrating)) .busy]

/-- The gyro rate is applied (R71). -/
def Stabiliser.setRate (r : GyroRate) (s : Stabiliser) : Stabiliser :=
  if r = s.rate then s else { s.both StabAxis.rateChanged with rate := r, missingRun := 0, validRun := 0 }

/-- STAB_SET (R69, R71). -/
def Stabiliser.set (table : Option LensTable) (enable rate lTrack lPan hold yaw pitch : Nat) (s : Stabiliser) :
    Stabiliser × Verdict :=
  match firstFailure (s.setTests table enable rate lTrack lPan hold yaw pitch), gyroRateOf rate with
  | none, some r =>
    ({ s.setRate r with
        copy := some ⟨decide (enable = 1), lTrack, lPan, hold, decide (yaw = 1), decide (pitch = 1)⟩ }, .done)
  | some v, _ => (s, v)
  | none, none => (s, .badValue 2)

/-- STAB_CAL (R72). -/
def Stabiliser.calibrate (slot : CmdSlot) (s : Stabiliser) : Stabiliser × Verdict :=
  match s.mode with
  | .calibrating => (s, .refuse .busy)
  | .hold => (s, .refuse .notReady)
  | .off => ({ s.clear .calibrating with cal := some ⟨slot, false, 0, none, 0, 0⟩ }, .pending)
  | .active => ({ s.clear .calibrating with cal := some ⟨slot, true, 0, none, 0, 0⟩ }, .pending)

/-- The stabiliser at the restart point (R55, R74). -/
def Stabiliser.restart (s : Stabiliser) : Stabiliser :=
  let t := s.clear s.mode
  match s.cal with
  | some c => t.endCalibration c
  | none => t

end Sys2Proof.Machine
end

