-- ==== Sys2Proof/Machine/Glue.lean ====
section
/-! DEFINITION. The blocks put together: what one block hands over reaches the others (00_scope "Blocks"). A block at work
changes its own state; the functions here carry its demands to the command unit, the report unit, the arbiter, the lens
coordinator and the card engine. -/

namespace Sys2Proof.Machine

/-- A factor is raised. -/
def Part.raise (f : Factor) (p : Part) : Part := { p with bus := p.bus.raise f }

/-- A cause for a status record write. -/
def Part.status (p : Part) : Part := { p with bus := p.bus.requestStatus }

/-! ### The recording side -/

/-- One thing that the recording side hands over. -/
def Part.deliverRec (p : Part) : RecOut → Part
  | .bus o => { p with bus := p.bus.meet o }
  | .recState r => { p with lens := p.lens.recordState r }
  | .recStarted => p.lensJob fun j => j.mark .recStarted

/-- An event at the recording side, and what the card engine then does by itself. -/
def Part.onRecorder (f : Recorder → RecWork) (p : Part) : Part :=
  let j := (f p.recd).pump p.map
  j.out.foldl Part.deliverRec { p with recd := j.st }

/-- A recording command's judgement carried out on the part; a refused one leaves it as it is (R22). -/
def Part.onRecCommand (f : Recorder → RecAnswer) (p : Part) : Part × Verdict :=
  if (f p.recd).2.code.refused then (p, (f p.recd).2) else (p.onRecorder fun r => (f r).1, (f p.recd).2)

/-- A recording command that starts nothing at the card engine. -/
def Part.onRecSetting (f : Recorder → Recorder × Verdict) (p : Part) : Part × Verdict :=
  let r := f p.recd
  ({ p with recd := r.1 }, r.2)

/-- A held mount begins, at INIT_DONE or at the end of the conflict state (R134). -/
def Part.heldMount (p : Part) : Part := if p.recd.card.mountDue then p.onRecorder fun r => (Job.start r).startMount else p

/-- Encoder-skip, overload and other notices (R145). -/
def Part.skipNotice (p : Part) : Part := p.onRecorder fun r => (Job.start r).skip

/-- An overload reaches the report unit and the card engine (R169). -/
def Part.overload (p : Part) : Part := (p.raise .audioOver).onRecorder fun r => (Job.start r).overload

/-! ### The slot manager -/

/-- One thing that the slot manager hands over. -/
def Part.deliverSlot (p : Part) : SlotOut → Part
  | .raise f => p.raise f
  | .skip => p.skipNotice
  | .frameMark => p.lensJob fun j => j.mark .frame

/-- The slot manager's work put back, and what it handed over delivered. -/
def Part.withSlots (j : SlotWork) (p : Part) : Part := j.out.foldl Part.deliverSlot { p with slots := j.st }

/-- The record state is RECORDING (R43). -/
def Part.recording (p : Part) : Bool := decide (p.recd.card.recState = .recording)

/-! ### The stabiliser -/

/-- An event at the stabiliser. -/
def Part.onStab (f : StabWork → StabWork) (p : Part) : Part :=
  let j := f (.start p.stab)
  { p with stab := j.st, bus := p.bus.meetAll j.out }

/-! ### Frame complete -/

/-- The values that the live layer shows (R181). `tc`, `audio` and `ring` are those blocks as the refresh finds them. -/
def Part.liveValues (tc : TimecodeUnit) (audio : Vector Channel 4) (ring : RingMonitor) (p : Part) : LiveValues where
  tc := tc
  dropFrame := decide (tc.rate = .df2997)
  recState := p.recd.card.recState
  cardState := p.recd.card.state
  zoom := p.lens.zoom.pos
  zr := p.lens.coord.table.map LensTable.zr
  held := audio.toList.map Channel.held
  overs := audio.toList.map Channel.overSet
  minutes := ring.minutes p.recd.card.freeUnits tc.rate
  stabMode := p.stab.mode
  panning := decide (p.stab.yaw.panState = .pan) || decide (p.stab.pitch.panState = .pan)

/-- The other blocks' actions at a frame complete (R44): timecode, meters, bytes per frame, iris, live layer, status. Whether
the refresh finds the timecode, the meters and the average before or after their own actions is free (R180; log 17). -/
def Part.handOnFrame (frame : Nat) (p : Part) : Part :=
  let tc := p.recd.tc.frame frame
  let audio := channelsMap Channel.frame p.audio
  let ring := p.recd.ring.frame
  let seen {α : Type} (block : Nat) (now before : α) : α := if Config.otherBlockFirst p.choices block then now else before
  let v := p.liveValues (seen 0 tc p.recd.tc) (seen 1 audio p.audio) (seen 2 ring p.recd.ring)
  Part.status
    { p with
      recd := { p.recd with tc := tc, ring := ring }
      audio := audio
      lens := { p.lens with iris := p.lens.iris.frame }
      overlay := p.overlay.refresh v
      choices := p.choices + 1 }

/-- A frame complete in a slot (R42 to R44). -/
def Part.frameComplete (k : Nat) (p : Part) : Part :=
  let zoom := p.lens.zoom.pos
  let c := p.stab.frame p.map.mx p.map.my p.lens.coord.table zoom
  let p := { p with stab := c.stab }
  let p := if c.panned then p.raise .pan else p
  let j : SlotWork := .start (p.slots.complete k zoom c.dx c.dy)
  let p := p.withSlots (j.releaseOthers p.recording k)
  p.handOnFrame p.slots.frameCounter

end Sys2Proof.Machine
end

