-- ==== Sys2Proof/Machine/Region.lean ====
section
/-! DEFINITION. The region map: the classing of beats (R4) and REGION (R7, R8). -/

namespace Sys2Proof.Machine

/-- An address lies in a region. -/
def inRegion (base size a : Nat) : Bool := decide (base ≤ a) && decide (a < base + size)

/-- The size of the private area. -/
def privSize : Nat := 0x40000

/-- The size of the control block. -/
def controlSize : Nat := 0x800

/-- The size of the slot area (R5). -/
def RegionMap.slotArea (m : RegionMap) : Nat := m.slotCount * m.pitch

/-- Where a beat of the physical window falls (R4). -/
inductive PhysRegion
  | commandArea (offset : Nat)
  | reportArea (offset : Nat)
  | privateArea
  | audioRing (offset : Nat)
  | recordRing (offset : Nat)
  | slotArea
  | plain
  deriving DecidableEq, Repr

/-- The class of an address in the physical window (R4). -/
def RegionMap.physRegion (m : RegionMap) (a : Nat) : PhysRegion :=
  if inRegion m.controlBase controlSize a then
    if a - m.controlBase < 0x400 then .commandArea (a - m.controlBase) else .reportArea (a - m.controlBase)
  else if inRegion m.privBase privSize a then .privateArea
  else if inRegion m.audioBase m.audioSize a then .audioRing (a - m.audioBase)
  else if inRegion m.ringBase m.ringSize a then .recordRing (a - m.ringBase)
  else if inRegion m.slotBase m.slotArea a then .slotArea
  else .plain

/-! ### REGION -/

/-- The operands of a REGION (01 section 1.3). -/
structure RegionOperands where
  privBase : Nat
  audioBase : Nat
  audioSize : Nat
  ringBase : Nat
  ringSize : Nat
  slotBase : Nat
  slotCount : Nat
  vw : Nat
  vh : Nat
  cw : Nat
  ch : Nat

/-- The map that a REGION asks for; the control block stays. -/
def RegionOperands.map (o : RegionOperands) (m : RegionMap) : RegionMap where
  controlBase := m.controlBase
  privBase := o.privBase
  audioBase := o.audioBase
  audioSize := o.audioSize
  ringBase := o.ringBase
  ringSize := o.ringSize
  slotBase := o.slotBase
  slotCount := o.slotCount
  cw := o.cw
  ch := o.ch
  vw := o.vw
  vh := o.vh
  conflict := false

/-- The operand tests of REGION, in index order (R7 step 1). -/
def RegionOperands.tests (o : RegionOperands) : List Check :=
  let mult (m v : Nat) : Bool := decide (v % m = 0)
  [operandTest 1 (mult 4096 o.privBase),
   operandTest 2 (mult 4096 o.audioBase),
   operandTest 3 (mult 4096 o.audioSize && within 0x4000 0x100000 o.audioSize),
   operandTest 4 (mult 4096 o.ringBase),
   operandTest 5 (mult 0x200000 o.ringSize && within 0x800000 0x8000000 o.ringSize),
   operandTest 6 (mult 32 o.slotBase),
   operandTest 7 (within 3 8 o.slotCount),
   operandTest 8 (mult 16 o.vw && within 64 1920 o.vw),
   operandTest 9 (within 16 1080 o.vh),
   operandTest 10 (within o.vw 4096 o.cw && mult 4 (o.cw - o.vw)),
   operandTest 11 (within o.vh 2304 o.ch && mult 2 (o.ch - o.vh))]

/-- The regions of a map as base and size: private area, audio ring, record ring, slot area, control block. -/
def RegionMap.regions (m : RegionMap) : List (Nat × Nat) :=
  [(m.privBase, privSize), (m.audioBase, m.audioSize), (m.ringBase, m.ringSize), (m.slotBase, m.slotArea),
   (m.controlBase, controlSize)]

/-- The tests of the regions' extents (R7 step 1). -/
def RegionMap.extentTests (m : RegionMap) : List Check :=
  let fits (base size : Nat) : Bool := decide (base + size ≤ 0x10000000)
  [operandTest 1 (fits m.privBase privSize), operandTest 2 (fits m.audioBase m.audioSize),
   operandTest 4 (fits m.ringBase m.ringSize), operandTest 6 (fits m.slotBase m.slotArea)]

/-- Two regions share no byte. -/
def disjoint (a b : Nat × Nat) : Bool := decide (a.1 + a.2 ≤ b.1) || decide (b.1 + b.2 ≤ a.1)

/-- No two of a list of regions share a byte. -/
def allDisjoint : List (Nat × Nat) → Bool
  | [] => true
  | r :: rs => rs.all (disjoint r) && allDisjoint rs

/-- A REGION is refused BUSY (R7 step 3). -/
def Part.regionBusy (privBase : Nat) (p : Part) : Bool :=
  p.slots.filling.isSome || p.slots.enc.slot.isSome || p.slots.vf.slot.isSome || !p.recd.ring.queue.isEmpty ||
    !(decide (p.recd.card.recState = .idle) || decide (p.recd.card.recState = .standby)) ||
    (decide (privBase ≠ p.map.privBase) &&
      (decide (p.recd.card.state = .mounting) || decide (p.recd.card.state = .formatting)))

/-- The tests of REGION, in order (R7). -/
def Part.regionTests (o : RegionOperands) (p : Part) : List Check :=
  let m := o.map p.map
  o.tests ++ m.extentTests ++
    [ownerTest (allDisjoint m.regions) .overlap, ownerTest (!p.regionBusy o.privBase) .busy]

/-- The slot table follows the map (R8). -/
def RegionMap.sameSlots (a b : RegionMap) : Bool :=
  decide (a.slotBase = b.slotBase) && decide (a.slotCount = b.slotCount) && decide (a.cw = b.cw) && decide (a.ch = b.ch) &&
    decide (a.vw = b.vw) && decide (a.vh = b.vh)

/-- An accepted REGION takes effect (R8). -/
def Part.applyRegion (m : RegionMap) (p : Part) : Part :=
  let old := p.map
  let p := { p with map := m }
  let p := if m.sameSlots old then p else { p with slots := p.slots.freeAll m.slotCount }
  let p :=
    if m.ringBase = old.ringBase ∧ m.ringSize = old.ringSize then p
    else { p with recd := { p.recd with ring := p.recd.ring.moved } }
  let p :=
    if m.audioBase = old.audioBase ∧ m.audioSize = old.audioSize then p
    else { p with audio := channelsMap Channel.ringMoved p.audio }
  let p := if m.vw = old.vw ∧ m.vh = old.vh then p else { p with overlay := p.overlay.regrid m.vw m.vh }
  let p :=
    if m.privBase = old.privBase then p
    else
      Part.onRecorder (fun r => (Job.start r).privateMoved)
        { p with bus := p.bus.request (.zero m.privBase 1024) }
  if old.conflict then p.status.heldMount else p

/-- REGION judged and carried out (R7, R8). -/
def Part.region (o : RegionOperands) (p : Part) : Part × Verdict :=
  match firstFailure (p.regionTests o) with
  | some v => (p, v)
  | none => (p.applyRegion (o.map p.map), .done)

end Sys2Proof.Machine
end

