-- ==== Sys2Proof/Machine/Restart.lean ====
section
/-! DEFINITION. Resets: RESTART (R35 and the table of its effects), POWER_ON and PIN reset (R3, R16, R18, R33, R36), the
end of the stall (R18) and INIT_DONE (R33, R34). -/

namespace Sys2Proof.Machine

/-- Every other command in progress ends ABORTED, in slot order (R35). -/
def Bus.abortOthers (slot : CmdSlot) (b : Bus) : Bus :=
  allSlots.foldl
    (fun b n => if n ≠ slot ∧ b.cmd.slots[n].last = .pending then b.finish n .aborted 0 else b) b

/-- A lens table load that a RESTART has overtaken: its data is discarded (R101). -/
def PartReq.overtaken : PartReq → PartReq
  | .lensLoad a _ => .lensLoad a true
  | r => r

/-- How many requests from the front of the queue must be granted until the last status or factor record write is. -/
def recordsDepth (q : List PartReq) : Nat :=
  q.length - (q.reverse.takeWhile fun r => decide (r ≠ .status) && decide (r ≠ .factor)).length

/-- The command unit and the report unit at the restart point (R35): ABORTED outcomes, the reset cause, an empty pending
set, no image, then the factor and status record writes. -/
def Bus.restart (slot : CmdSlot) (b : Bus) : Bus :=
  let before := b.partQ.length
  let b := b.abortOthers slot
  let b := { b with report := { b.report with cause := .restart, pending := 0, image := none } }
  let b := b.requestFactor.requestStatus
  let awaiting := if before < b.partQ.length then b.partQ.length else recordsDepth b.partQ
  { b with cmd := { b.cmd with restart := some ⟨slot, awaiting⟩ }, partQ := b.partQ.map PartReq.overtaken }

/-- The restart point (R35): every block takes its RESTART values as one change, and a card that mounts again begins. -/
def Part.restartPoint (slot : CmdSlot) (p : Part) : Part :=
  let recd := p.recd.restart p.map.conflict
  Part.onRecorder (fun r => .start r)
    { p with
      bus := p.bus.restart slot
      slots := .restart p.map.slotCount
      stab := p.stab.restart
      lens := p.lens.restart recd.card.recState
      recd := recd
      audio := channelsMap Channel.restart p.audio }

/-- RESTART taken (R35): PENDING, then the restart point. -/
def Part.takeRestart (slot : CmdSlot) (p : Part) : Part :=
  let q := p.take slot 0x02 true 0 fun p => (p, .pending)
  if q.bus.cmd.slots[slot].last = .pending then q.restartPoint slot else q

/-- A PART request has left the queue: a RESTART that waited for it may be complete, and its DONE is written (R35). -/
def Bus.restartProgress (b : Bus) : Bus :=
  match b.cmd.restart with
  | none => b
  | some r =>
    if r.awaiting ≤ 1 then Bus.finish r.slot .done 0 { b with cmd := { b.cmd with restart := none } }
    else { b with cmd := { b.cmd with restart := some { r with awaiting := r.awaiting - 1 } } }

/-! ### POWER_ON and PIN reset -/

/-- The transactions a sender keeps waiting enter the link port, up to the 16 it holds (R1, R18). -/
def LinkPort.refill (l : LinkPort) : LinkPort :=
  let room := 16 - l.held.length
  { l with held := l.held ++ l.waiting.take room, waiting := l.waiting.drop room }

/-- The part after POWER_ON or PIN reset (R3, R16, R18, R33). Transactions that the port held are abandoned; those a sender
still holds arrive after it (log 21, log 31). -/
def Part.hardReset (cause : ResetCause) (pins : Pins) (p : Part) : Part :=
  { Part.reset cause pins with
    link := LinkPort.refill ⟨[], p.link.waiting, none, none⟩
    choices := p.choices }

/-- The zeroing of start-up step 2 (R18): 1,024 pieces of 8 beats, or 1,016 around the control block in the conflict
state. -/
def RegionMap.zeroRuns (m : RegionMap) : List PartReq :=
  if m.conflict then
    let first := (m.controlBase - m.privBase) / 256
    let rest := 1024 - first - 8
    (if 0 < first then [.zero m.privBase first] else []) ++
      (if 0 < rest then [.zero (m.controlBase + controlSize) rest] else [])
  else [.zero m.privBase 1024]

/-- The frame memory is ready: the stall ends, and start-up steps 2 to 4 are requested (R18, R33). DESIGN CHOICE
(log 75): the outcome words of step 3 are zeroed in slot order, 0 to 15. -/
def Part.memoryReady (p : Part) : Part :=
  let b := (p.map.zeroRuns ++ allSlots.map PartReq.zeroOutcome).foldl (fun b r => Bus.request r b) p.bus
  { p with phase := .zeroing, bus := b.requestStatus.requestFactor }

end Sys2Proof.Machine
end

