-- ==== Sys2Proof/Machine/Commands.lean ====
section
/-! DEFINITION. The take of each kind of host command (R22): its kind code (12.1), its selector's range, and the owning
block's judgement and action; and the check of a slot (R20, R21). -/

namespace Sys2Proof.Machine

/-- The value of an operand word (R186). -/
abbrev num (w : Word) : Nat := w.toNat

/-- A judgement that changes nothing but the part it answers from. -/
def answered (v : Verdict) (p : Part) : Part × Verdict := (p, v)

/-- A judgement of the overlay unit carried out on the part. -/
def Part.onOverlay (f : Overlay → Overlay × Verdict) (p : Part) : Part × Verdict :=
  let r := f p.overlay
  ({ p with overlay := r.1 }, r.2)

/-- A command with an axis selector: refused at its take for any other selector (R22 step 3), else carried out on the lens
side. -/
def Part.takeAxis (slot : CmdSlot) (kind : Byte) (sel : Byte) (f : AxisName → Lens → LensAnswer) (p : Part) : Part :=
  match axisOf sel with
  | some n => p.take slot kind true 0 (Part.onLens (f n))
  | none => p.take slot kind false 0 (answered (.badValue 0))

/-- A command of the lens side with no selector. -/
def Part.takeLens (slot : CmdSlot) (kind : Byte) (f : Lens → LensAnswer) (p : Part) : Part :=
  p.take slot kind true 0 (Part.onLens f)

/-- A command of the recording side. -/
def Part.takeRec (slot : CmdSlot) (kind : Byte) (f : RegionMap → Recorder → RecAnswer) (p : Part) : Part :=
  p.take slot kind true 0 fun p => p.onRecCommand (f p.map)

/-- A command of the overlay unit. -/
def Part.takeOverlay (slot : CmdSlot) (kind : Byte) (f : Overlay → Overlay × Verdict) (p : Part) : Part :=
  p.take slot kind true 0 (Part.onOverlay f)

/-- EVENT_SET (R30). -/
def Bus.eventSet (mask mode : Word) (b : Bus) : Bus × Verdict :=
  match firstFailure [operandTest 2 (decide (num mode ≤ 1))] with
  | some v => (b, v)
  | none =>
    let m : ClearMode := if num mode = 1 then .onAck else .onRead
    if mask = b.report.mask ∧ m = b.report.clearMode then (b, .done)
    else (Bus.requestFactor { b with report := { b.report with mask := mask, clearMode := m } }, .done)

/-- EVENT_SET at its take. -/
def Part.takeEventSet (slot : CmdSlot) (mask mode : Word) (p : Part) : Part :=
  p.take slot 0x03 true 0 fun p =>
    let r := p.bus.eventSet mask mode
    ({ p with bus := r.1 }, r.2)

/-- EVENT_ACK at its take: the set is noted with the outcome write (R32). -/
def Part.takeEventAck (slot : CmdSlot) (factors : Word) (p : Part) : Part :=
  p.take slot 0x04 true factors (answered .done)

/-- REGION at its take. -/
def Part.takeRegion (slot : CmdSlot)
    (privBase audioBase audioSize ringBase ringSize slotBase slotCount vw vh cw ch : Word) (p : Part) : Part :=
  p.take slot 0x01 true 0
    (Part.region ⟨num privBase, num audioBase, num audioSize, num ringBase, num ringSize, num slotBase, num slotCount,
      num vw, num vh, num cw, num ch⟩)

/-- STAB_SET at its take. -/
def Part.takeStabSet (slot : CmdSlot) (enable rate lTrack lPan hold yaw pitch : Word) (p : Part) : Part :=
  p.take slot 0x20 true 0 fun p =>
    let r := p.stab.set p.lens.coord.table (num enable) (num rate) (num lTrack) (num lPan) (num hold) (num yaw) (num pitch)
    ({ p with stab := r.1 }, r.2)

/-- STAB_CAL at its take. -/
def Part.takeStabCal (slot : CmdSlot) (p : Part) : Part :=
  p.take slot 0x21 true 0 fun p =>
    let r := p.stab.calibrate slot
    ({ p with stab := r.1 }, r.2)

/-- AUDIO_SET at its take. -/
def Part.takeAudioSet (slot : CmdSlot) (sel : Byte) (enable threshold release clearOver : Word) (p : Part) : Part :=
  match channelOf sel with
  | some n =>
    p.take slot 0x50 true 0 fun p =>
      let r := p.audio[n].set (num enable) (num threshold) (num release) (num clearOver)
      ({ p with audio := p.audio.set n r.1 }, r.2)
  | none => p.take slot 0x50 false 0 (answered (.badValue 0))

/-- A kind with no command assigned to it (R22 step 1). -/
def Part.takeUnknown (slot : CmdSlot) (kind : Byte) (p : Part) : Part :=
  let b := p.bus.beginTake slot kind
  { p with bus := b.answer slot (.refuse .unknownKind) 0 }

/-- LENS_TABLE at its take (R100). -/
def Part.takeLensTable (slot : CmdSlot) (address : Word) (p : Part) : Part :=
  p.takeLens slot 0x10 (Lens.lensTable slot (num address))

/-- AXIS_SET at its take (R93). -/
def Part.takeAxisSet (slot : CmdSlot) (sel : Byte) (vStart vMax ramp dwell low high action quietCap : Word) (p : Part) : Part :=
  p.takeAxis slot 0x11 sel fun n =>
    Lens.axisSet n (num vStart) (num vMax) (num ramp) (num dwell) (num low) (num high) (num action) (num quietCap)

/-- COMPARE_SET at its take (R95). -/
def Part.takeCompareSet (slot : CmdSlot) (sel : Byte) (comparator value condition enable : Word) (p : Part) : Part :=
  p.takeAxis slot 0x12 sel fun n => Lens.compareSet n (num comparator) (num value) (num condition) (num enable)

/-- HOME at its take (R83). -/
def Part.takeHome (slot : CmdSlot) (sel : Byte) (p : Part) : Part := p.takeAxis slot 0x13 sel (Lens.home slot)

/-- MOVE at its take (R86 to R88). -/
def Part.takeMove (slot : CmdSlot) (sel : Byte) (target cap condition argument : Word) (p : Part) : Part :=
  p.takeAxis slot 0x14 sel fun n => Lens.move slot n (num target) (num cap) (num condition) (num argument)

/-- JOG at its take (R90). -/
def Part.takeJog (slot : CmdSlot) (sel : Byte) (direction speed : Word) (p : Part) : Part :=
  p.takeAxis slot 0x15 sel fun n => Lens.jog slot n (num direction) (num speed)

/-- STOP at its take (R92). -/
def Part.takeStop (slot : CmdSlot) (sel : Byte) (kind : Word) (p : Part) : Part :=
  p.takeAxis slot 0x16 sel fun n => Lens.stop n (num kind)

/-- FOCUS_TRACK at its take (R103). -/
def Part.takeFocusTrack (slot : CmdSlot) (enable distance : Word) (p : Part) : Part :=
  p.takeLens slot 0x17 (Lens.focusTrack (num enable) (num distance))

/-- IRIS at its take (R97). -/
def Part.takeIris (slot : CmdSlot) (target step : Word) (p : Part) : Part :=
  p.takeLens slot 0x18 (Lens.irisSet (num target) (num step))

/-- GRIP_SET at its take (R108). -/
def Part.takeGripSet (slot : CmdSlot) (rocker button : Word) (p : Part) : Part :=
  p.takeLens slot 0x19 (Lens.gripSet (num rocker) (num button))

/-- PREREC_SET at its take (R122). -/
def Part.takePrerecSet (slot : CmdSlot) (depth : Word) (p : Part) : Part :=
  p.take slot 0x30 true 0 fun p => p.onRecSetting (Recorder.prerecSet p.map (num depth))

/-- REC_START at its take (R141). -/
def Part.takeRecStart (slot : CmdSlot) (p : Part) : Part := p.takeRec slot 0x31 fun m => Recorder.recStart m slot

/-- REC_STOP at its take (R142). -/
def Part.takeRecStop (slot : CmdSlot) (p : Part) : Part := p.takeRec slot 0x32 fun _ => Recorder.recStop slot

/-- CARD_FORMAT at its take (R140). -/
def Part.takeCardFormat (slot : CmdSlot) (p : Part) : Part := p.takeRec slot 0x33 fun m => Recorder.cardFormat m slot

/-- CARD_EJECT at its take (R154). -/
def Part.takeCardEject (slot : CmdSlot) (p : Part) : Part := p.takeRec slot 0x34 fun _ => Recorder.cardEject slot

/-- TC_SET at its take (R161). -/
def Part.takeTcSet (slot : CmdSlot) (timecode mode rate : Word) (p : Part) : Part :=
  p.take slot 0x40 true 0 (Part.onRecSetting (Recorder.tcSet (num timecode) (num mode) (num rate)))

/-- TEXT_CLEAR at its take (R183). -/
def Part.takeTextClear (slot : CmdSlot) (row : Word) (p : Part) : Part :=
  p.takeOverlay slot 0x61 (Overlay.textClear (num row))

/-- FIELD_SET at its take (R182). -/
def Part.takeFieldSet (slot : CmdSlot) (field row column enable : Word) (p : Part) : Part :=
  p.takeOverlay slot 0x62 (Overlay.fieldSet (num field) (num row) (num column) (num enable))

/-- ZEBRA_SET at its take (R184). -/
def Part.takeZebraSet (slot : CmdSlot) (enable level : Word) (p : Part) : Part :=
  p.takeOverlay slot 0x63 (Overlay.zebraSet (num enable) (num level))

/-- PALETTE_SET at its take (R184). -/
def Part.takePaletteSet (slot : CmdSlot) (entry y cb cr : Word) (p : Part) : Part :=
  p.takeOverlay slot 0x64 (Overlay.paletteSet (num entry) (num y) (num cb) (num cr))

/-- TEXT at its take (R183). -/
def Part.takeText (slot : CmdSlot) (position form : Word) (codes : Vector Word 12) (p : Part) : Part :=
  p.takeOverlay slot 0x60 (Overlay.text (num position) (num form) codes)

/-- A host command taken in its slot (R22). A row that is no host command is never in a slot. -/
def Part.takeCommand (i : Instr) (p : Part) : Part :=
  match i with
  | .region s a b c d e f g h i j k => p.takeRegion s a b c d e f g h i j k
  | .restart s => p.takeRestart s
  | .eventSet s a b => p.takeEventSet s a b
  | .eventAck s a => p.takeEventAck s a
  | .lensTable s a => p.takeLensTable s a
  | .axisSet s a b c d e f g h i => p.takeAxisSet s a b c d e f g h i
  | .compareSet s a b c d e => p.takeCompareSet s a b c d e
  | .home s a => p.takeHome s a
  | .move s a b c d e => p.takeMove s a b c d e
  | .jog s a b c => p.takeJog s a b c
  | .stop s a b => p.takeStop s a b
  | .focusTrack s a b => p.takeFocusTrack s a b
  | .iris s a b => p.takeIris s a b
  | .gripSet s a b => p.takeGripSet s a b
  | .stabSet s a b c d e f g => p.takeStabSet s a b c d e f g
  | .stabCal s => p.takeStabCal s
  | .prerecSet s a => p.takePrerecSet s a
  | .recStart s => p.takeRecStart s
  | .recStop s => p.takeRecStop s
  | .cardFormat s => p.takeCardFormat s
  | .cardEject s => p.takeCardEject s
  | .tcSet s a b c => p.takeTcSet s a b c
  | .audioSet s a b c d e => p.takeAudioSet s a b c d e
  | .text s a b c => p.takeText s a b c
  | .textClear s a => p.takeTextClear s a
  | .fieldSet s a b c d => p.takeFieldSet s a b c d
  | .zebraSet s a b => p.takeZebraSet s a b
  | .paletteSet s a b c d => p.takePaletteSet s a b c d
  | .powerOn _ | .pinReset _ | .frameMemoryReady | .initDone => p
  | .linkTransaction _ _ | .physicalBeat | .audioRingWrite | .privateAreaWrite | .holeBeat | .captureWrite | .viewRead => p
  | .linkRequestGrant | .cardRequestGrant | .partRequestGrant => p
  | .pan _ | .trackReturn _ | .meterFall _ | .gyroSample _ | .calDone _ _ | .gyroLost | .gyroBack => p
  | .axisStep _ _ | .homingFail _ _ | .dwellExpire _ | .irisPwmPeriod => p
  | .rockerSample _ | .recButtonPress _ | .recButtonRelease _ => p
  | .cardInsertion _ | .cardRemoval _ | .cardIdentAnswer _ _ | .cardReadAnswer _ | .cardWriteAnswer _ | .cardTimeout => p

/-! ### The check of a slot -/

/-- Word `i` of a slot in the shadow (R19). -/
def CommandUnit.word (c : CommandUnit) (slot : CmdSlot) (i : Nat) : Word :=
  BitVec.ofNat 32 (c.shadow.readNat (0x40 * slot.val + 4 * i) 4)

/-- The words of a slot in the shadow. -/
def CommandUnit.words (c : CommandUnit) (slot : CmdSlot) : SlotWords :=
  let w := c.word slot
  #v[w 0, w 1, w 2, w 3, w 4, w 5, w 6, w 7, w 8, w 9, w 10, w 11, w 12, w 13, w 14, w 15]

/-- The kind that a slot's shadow shows. -/
def CommandUnit.kind (c : CommandUnit) (slot : CmdSlot) : Byte := c.shadow.read (0x40 * slot.val)

/-- The command that a slot's shadow spells is taken (R22). -/
def Part.takeSlot (slot : CmdSlot) (p : Part) : Part :=
  match decodeSlot slot (p.bus.cmd.words slot) with
  | some i => p.takeCommand i
  | none => p.takeUnknown slot (p.bus.cmd.kind slot)

/-- A slot with a command offered in it is checked (R20, R21). -/
def Part.checkSlot (slot : CmdSlot) (p : Part) : Part := p.offer slot (Part.takeSlot slot)

/-- Slots 0 to 15 are checked, each that shows a kind other than zero (R34). -/
def Part.checkAll (p : Part) : Part :=
  allSlots.foldl (fun p s => if p.bus.cmd.kind s = 0 then p else p.checkSlot s) p

/-- A held mount begins outside the conflict state (R134). -/
def Part.beginHeldMount (p : Part) : Part := if p.map.conflict then p else p.heldMount

/-- INIT_DONE is raised (R18 step 5, R33, R34, R134): a held mount begins and the slots are checked, in either order
(free; log 28). -/
def Part.raiseInitDone (p : Part) : Part :=
  let p := ({ p with phase := .running }.raise .initDone).status
  if Config.mountBeforeSlots then p.beginHeldMount.checkAll else p.checkAll.beginHeldMount

end Sys2Proof.Machine
end

