-- ==== Sys2Proof/Machine/Link.lean ====
section
/-! DEFINITION. The link port and the handling of each kind of beat (01 sections 1.1, 1.2, 1.4): R1, R2, R4 and R9 to R14
up to the request, which is granted in Grants.lean. -/

namespace Sys2Proof.Machine

/-! ### The link port -/

/-- A transaction as the port holds it (R1): the low five bits of its address are taken as zero. -/
def LinkTxn.arriving (addr : Nat) (op : LinkOp) : LinkTxn where
  isWrite := match op with
    | .read _ => false
    | .write _ => true
  addr := addr / 32 * 32
  beats := match op with
    | .read _ => []
    | .write beats => beats
  count := op.beatCount
  next := 0
  results := []
  error := false
  offered := false

/-- A transaction arrives (R1): it is accepted while fewer than 16 are held, and waits with its sender otherwise. -/
def LinkPort.arrive (t : LinkTxn) (l : LinkPort) : LinkPort := LinkPort.refill { l with waiting := l.waiting ++ [t] }

/-- The oldest transaction has its last beat done: its response is returned, and the port accepts again (R1, R2). -/
def LinkPort.respond (t : LinkTxn) (l : LinkPort) : LinkPort :=
  LinkPort.refill { l with held := l.held.drop 1, response := some ⟨t.isWrite, t.results, t.error⟩ }

/-- A beat of the oldest transaction is done: decided, and granted where it needed memory (R1, R2). `data` is what a READ
beat returns; `error` marks a hole beat or a refused beat. -/
def LinkPort.endBeat (data : Option (List Byte)) (error : Bool) (l : LinkPort) : LinkPort :=
  match l.held with
  | [] => l
  | t :: ts =>
    let t := { t with
      next := t.next + 1
      results := t.results ++ data.toList
      error := t.error || error }
    if t.count ≤ t.next then LinkPort.respond t { l with held := t :: ts } else { l with held := t :: ts }

/-- A beat handed to the region map (R1): its address, and what it writes, none for a READ. -/
structure LinkBeat where
  addr : Nat
  write : Option (List Byte × List Bool)

/-- The beat that the port hands on next (R1, R18): none during the stall, while a beat's request waits, or without a
transaction. -/
def Part.nextBeat (p : Part) : Option LinkBeat :=
  if p.phase = .stalled ∨ p.link.request.isSome then none
  else
    match p.link.held with
    | [] => none
    | t :: _ =>
      let addr := t.addr + 32 * t.next
      if t.isWrite then (t.beats[t.next]?).map fun b => ⟨addr, some (WriteBeat.bytes b, WriteBeat.flags b)⟩ else some ⟨addr, none⟩

/-! ### The region map -/

/-- The rows of the table that handle a beat, one for each kind of section 1.4. -/
inductive BeatRow
  | physical
  | audioRingWrite
  | privateAreaWrite
  | hole
  | captureWrite
  | viewRead
  deriving DecidableEq, Repr

/-- The first address of the capture alias, the encoder view alias, the viewfinder view alias and the hole (1.2). -/
def captureBase : Nat := 0x10000000
def encBase : Nat := 0x14000000
def vfBase : Nat := 0x18000000
def holeBase : Nat := 0x1C000000

/-- The row that handles a beat (R4, section 1.4). An address above 0x3FFF_FFFF is a hole beat (R1). -/
def RegionMap.beatRow (m : RegionMap) (addr : Nat) (isWrite : Bool) : BeatRow :=
  if addr < captureBase then
    match m.physRegion addr, isWrite with
    | .privateArea, true => .privateAreaWrite
    | .audioRing _, true => .audioRingWrite
    | _, _ => .physical
  else if addr < encBase then (if isWrite then .captureWrite else .hole)
  else if addr < holeBase then (if isWrite then .hole else .viewRead)
  else .hole

/-- The next beat, where a row handles it. Otherwise the row's event does not occur (log 10). -/
def Part.beatFor (row : BeatRow) (p : Part) : Option LinkBeat :=
  p.nextBeat.filter fun b => decide (p.map.beatRow b.addr b.write.isSome = row)

/-- The LINK request of a beat waits for its grant (R15). -/
def Part.linkRequest (r : LinkReq) (p : Part) : Part := { p with link := { p.link with request := some r } }

/-- A beat is done without a memory access. -/
def Part.endBeat (data : Option (List Byte)) (error : Bool) (p : Part) : Part :=
  { p with link := p.link.endBeat data error }

/-! ### Beats -/

/-- The watcher of a write (R9). -/
def PhysRegion.watch : PhysRegion → WriteWatch
  | .commandArea o => .command o
  | .recordRing o => .ring o
  | .reportArea _ | .privateArea | .audioRing _ | .slotArea | .plain => .unwatched

/-- The report area offset of a read that the report unit is given (R9). -/
def PhysRegion.report : PhysRegion → Option Nat
  | .reportArea o => some o
  | .commandArea _ | .privateArea | .audioRing _ | .recordRing _ | .slotArea | .plain => none

/-- A beat of plain memory, the slot area, the control block or the record ring, or a READ of the private area or the
audio ring (R9 to R11). -/
def Part.physicalBeat (b : LinkBeat) (p : Part) : Part :=
  let region := p.map.physRegion b.addr
  match b.write with
  | some (data, enables) => p.linkRequest (.write b.addr data enables region.watch)
  | none => p.linkRequest (.read b.addr region.report)

/-- A WRITE beat in the audio ring (R10, R165, R169). -/
def Part.audioBeat (b : LinkBeat) (p : Part) : Part :=
  match b.write with
  | some (data, enables) =>
    let r := Sys2Proof.Machine.audioBeat p.audio (b.addr - p.map.audioBase) data enables
    let p := { p with audio := r.channels }
    let p := if r.overload then p.overload else p
    p.linkRequest (.write b.addr r.bytes enables .unwatched)
  | none => p

/-- A WRITE beat in the private area (R11). -/
def Part.privateBeat (p : Part) : Part := (p.raise .privateWrite).endBeat none true

/-- 32 bytes of zero. -/
def zeroBeat : List Byte := List.replicate 32 0

/-- A hole beat (R12). -/
def Part.holeBeat (b : LinkBeat) (p : Part) : Part :=
  match b.write with
  | some _ => (p.raise .addressHole).endBeat none true
  | none => p.endBeat (some zeroBeat) true

/-- A capture alias WRITE beat (R13, R39 to R41); none where a frame start finds no slot to claim (log 36). -/
def Part.captureBeat (b : LinkBeat) (p : Part) : Option Part :=
  match b.write with
  | some (data, enables) =>
    let o := b.addr - captureBase
    ((Job.start p.slots).captureBeat p.map p.recording o enables).map fun r =>
      let p := p.withSlots r.1
      match r.2 with
      | .redirect k => p.linkRequest (.write (p.map.slotAt k + o) data enables (.capture k o))
      | .drop => p.endBeat none false
  | none => some p

/-- The reader of a view alias address (R14). -/
def readerAt (addr : Nat) : Reader := if addr < vfBase then .enc else .vf

/-- The offset of a view alias address. -/
def viewOffset (addr : Nat) : Nat := if addr < vfBase then addr - encBase else addr - vfBase

/-- Sixteen black pixels (R14). -/
def blackBeat : List Byte := [16, 128, 16, 128, 16, 128, 16, 128, 16, 128, 16, 128, 16, 128, 16, 128,
  16, 128, 16, 128, 16, 128, 16, 128, 16, 128, 16, 128, 16, 128, 16, 128]

/-- What a view alias returns of a beat's pixels (R14, R178): the viewfinder's pass through the overlay unit. -/
def Part.viewData (r : Reader) (x y : Nat) (data : List Byte) (p : Part) : List Byte :=
  match r with
  | .enc => data
  | .vf => p.overlay.draw x y data

/-- A view alias READ beat (R14, R45 to R48, R177). -/
def Part.viewBeat (b : LinkBeat) (p : Part) : Part :=
  let r := readerAt b.addr
  let o := viewOffset b.addr
  let x := p.map.viewPixel o
  let y := p.map.viewLine o
  let (slots, answer, latched) := p.slots.viewBeat r p.map o
  let overlay := if latched && decide (r = .vf) then p.overlay.takeSnapshot slots.vfFrames else p.overlay
  let p := { p with slots := slots, overlay := overlay }
  match answer with
  | .blankLine => p.endBeat (some zeroBeat) false
  | .noFrame => p.endBeat (some (p.viewData r x y blackBeat)) false
  | .source a => p.linkRequest (.view r a y x)

end Sys2Proof.Machine
end

