-- ==== Sys2Proof/Machine/Publication.lean ====
section
/-! DEFINITION. What a granted WRITE beat in the record ring does at the ring monitor (07): overrun (R117, R123, R124) and
publication (R117 to R121, R125, R126). -/

namespace Sys2Proof.Machine

/-! ### Overrun -/

/-- A CARD request for chunk bytes is withdrawn: an entry it may name is no longer readable (R128; log 20). -/
def Job.withdrawChunk (j : RecWork) : RecWork :=
  j.card fun c =>
    { c with
      request := match c.request with
        | some (.dir a n) => some (.dir a n)
        | _ => none }

/-- A STAMPED entry returns to JOINED, and a new stamp write with the words of its first stamp is requested (R124). -/
def Job.stampAgain (j : RecWork) (map : RegionMap) (e : QueueEntry) : RecWork :=
  match e.state, e.stamp with
  | .stamped, some s =>
    let again := { e with state := .joined, overwritten := true, stampsWaiting := e.stampsWaiting + 1 }
    let j := j.ring fun m => { m with queue := m.queue.map fun x => if x.number = e.number then again else x }
    (j.withdrawChunk).ask
      (.request (.stamp e.number (map.ringBase + e.offset) s.timecode s.rateMode s.estimated true))
  | _, _ => j

/-- The stamp write of a JOINED entry, still to be granted, carries OVERWRITTEN, though a discard or a RESTART removes the entry
first (R124, R127). -/
def Job.overwriteWaiting (j : RecWork) (e : QueueEntry) : RecWork :=
  if e.state = .joined then j.ask (.overwrite e.number) else j

/-- A joined entry is overrun for the first time (R124). -/
def Job.overrunJoined (j : RecWork) (map : RegionMap) (e : QueueEntry) : RecWork :=
  let j := j.ring fun m =>
    { m with
      queue := m.queue.map fun x => if x.number = e.number then { x with overwritten := true } else x
      overruns := saturate32 m.overruns }
  (((j.ask (.raise .ringOverrun)).gap).overwriteWaiting e).stampAgain map e

/-- An overrun beat (R123, R124): the joined entries it touches, oldest first, then the RETAINED run. -/
def Job.overrun (j : RecWork) (map : RegionMap) (offset : Nat) (enables : List Bool) : RecWork :=
  let hit := QueueEntry.touched map.ringSize offset enables
  let first := j.st.ring.queue.filter fun e => e.isJoined && hit e && !e.overwritten
  let j := first.foldl (fun j e => j.overrunJoined map e) j
  j.ring fun m =>
    if m.retainedRun.any hit then m.withQueue map.ringSize (m.joinedRun ++ overrunRetained hit m.retainedRun) else m

/-! ### Publication -/

/-- The constant of a chunk header's marker field (7.1). -/
def chunkMarker : Nat := 0x5A574348

/-- The longest payload (7.1). -/
def longestPayload : Nat := 4194272

/-- What becomes of a chunk that fits (R120). -/
inductive Disposition
  | join
  | retain
  | passOver
  | drop
  deriving DecidableEq, Repr

/-- The disposition that the record state gives (R120). -/
def dispositionOf (r : RecState) (kind : ChunkKind) (hasRetained : Bool) : Disposition :=
  match r with
  | .recording => .join
  | .armed => if kind = .videoKey then .join else if hasRetained then .retain else .passOver
  | .idle | .standby | .stopping | .closing => if kind = .videoKey || hasRetained then .retain else .passOver

/-- The longest queue (R115). -/
def queueLimit : Nat := 256

/-- A chunk to be joined or retained finds its entry (R120): a full queue is trimmed, or the chunk is dropped. -/
def RingMonitor.findEntry (R : Nat) (kind : ChunkKind) (d : Disposition) (m : RingMonitor) : RingMonitor × Disposition :=
  match d with
  | .passOver | .drop => (m, d)
  | .join | .retain =>
    if m.queue.length < queueLimit then (m, d)
    else if m.hasRetained then
      let m := m.trim R
      (m, if d = .retain && kind ≠ .videoKey && !m.hasRetained then .passOver else d)
    else (m, .drop)

/-- The entry of a chunk published now (R121 steps 1 and 2). -/
def Recorder.newEntry (kind : ChunkKind) (length frame : Nat) (joined : Bool) (r : Recorder) : QueueEntry :=
  let free := r.tc.lookup frame
  { number := r.ring.nextEntry
    offset := r.ring.writeFront
    length := length
    span := chunkSpan length
    kind := kind
    frame := frame
    freeStamp := free.1
    estimated := free.2
    stamp := none
    state := if joined then .joined else .retained
    overwritten := false
    stampsWaiting := 0
    units := [] }

/-- An entry appended at the newest end of the queue (R121 step 2). -/
def RingMonitor.append (e : QueueEntry) (m : RingMonitor) : RingMonitor :=
  { m with queue := m.queue ++ [e], nextEntry := e.number + 1 }

/-- The write front moves past a span (R121 steps 3 to 5). -/
def RingMonitor.advance (R span : Nat) (m : RingMonitor) : RingMonitor :=
  let front := (m.writeFront + span) % R
  let m := { m with writeFront := front, shadow := List.replicate 32 0, frameBytes := m.frameBytes + span }
  if m.queue.isEmpty then { m with releaseFront := front, drainAhead := 0 } else m

/-- A joined chunk starts the recording where the record state is ARMED, and is stamped (R121 step 7, R125, R127).
DESIGN CHOICE (log 72): the write of the REC_START's DONE outcome is requested before that of the stamp. -/
def Job.joinPublished (j : RecWork) (map : RegionMap) (e : QueueEntry) : RecWork :=
  let j := if j.st.card.recState = .armed then (j.startRecording map).endStart .done 0 else j
  j.stampEntry map e

/-- A chunk is published under its disposition (R121). -/
def Job.publish (j : RecWork) (map : RegionMap) (kind : ChunkKind) (length frame : Nat) (d : Disposition) : RecWork :=
  let e := j.st.newEntry kind length frame (d = .join)
  let put (j : RecWork) : RecWork := j.ring (RingMonitor.append e)
  let move (j : RecWork) : RecWork := j.ring (RingMonitor.advance map.ringSize (chunkSpan length))
  match d with
  | .passOver => move j
  | .drop =>
    let j := (j.ring fun m => { m with drops := saturate32 m.drops }).ask (.raise .queueFull)
    move (if dispositionOf j.st.card.recState kind false = .join then j.gap else j)
  | .retain =>
    let j := move (put j)
    if j.st.card.recState = .armed then j else j.ring (RingMonitor.trimDepth map.ringSize)
  | .join => (move (put j)).joinPublished map e

/-- An attempt is rejected (R118, R119). -/
def Job.reject (j : RecWork) : RecWork := j.ask (.raise .chunkReject)

/-- A publication attempt, judged from the front shadow on form, space and disposition (R118 to R120). -/
def Job.attempt (j : RecWork) (map : RegionMap) : RecWork :=
  let h := j.st.ring.shadow
  let length := fieldAt h 8 4
  if fieldAt h 0 4 ≠ chunkMarker then j.reject
  else
    match chunkKindOf (fieldAt h 4 1) with
    | none => j.reject
    | some kind =>
      if longestPayload < length then j.reject
      else
        let span := chunkSpan length
        let j := j.ring fun m => m.makeRoom map.ringSize span m.queue.length
        if j.st.ring.freeSpace map.ringSize < span then
          if j.st.card.recState = .recording then j.reject.gap else j.reject
        else
          let d := dispositionOf j.st.card.recState kind j.st.ring.hasRetained
          let f := j.st.ring.findEntry map.ringSize kind d
          (j.ring fun _ => f.1).publish map kind length (fieldAt h 0x0C 4) f.2

/-- A WRITE beat granted at a ring offset (R117). -/
def Job.ringBeat (j : RecWork) (map : RegionMap) (offset : Nat) (data : List Byte) (enables : List Bool) : RecWork :=
  if j.st.ring.queue.any (QueueEntry.touched map.ringSize offset enables) then j.overrun map offset enables
  else if offset = j.st.ring.writeFront then
    let j := j.ring fun m => { m with shadow := mergeBytes m.shadow data enables }
    if coversAt enables 8 4 && decide (fieldAt j.st.ring.shadow 8 4 ≠ 0) then j.attempt map else j
  else j

end Sys2Proof.Machine
end

