-- ==== Sys2Proof/Machine/Report.lean ====
section
/-! DEFINITION. The report unit's records: the status record (R25, 12.1) and the factor record (R28), formed as their writes
are granted, and the outcome word (R23). -/

namespace Sys2Proof.Machine

/-! ### Codes (12.1) -/

/-- The code of a reset cause. -/
def ResetCause.code : ResetCause → Nat
  | .powerOn => 1
  | .pin => 2
  | .restart => 3

/-- The code of a stabiliser mode. -/
def StabMode.code : StabMode → Nat
  | .off => 0
  | .active => 1
  | .hold => 2
  | .calibrating => 3

/-- The code of a pan state. -/
def PanState.code : PanState → Nat
  | .track => 0
  | .pan => 1

/-- The code of an axis state. -/
def AxisState.code : AxisState → Nat
  | .unhomed => 0
  | .homing => 1
  | .idle => 2
  | .waiting => 3
  | .moving => 4
  | .dwell => 5
  | .fault => 6

/-- The code of a record state. -/
def RecState.code : RecState → Nat
  | .idle => 0
  | .standby => 1
  | .armed => 2
  | .recording => 3
  | .stopping => 4
  | .closing => 5

/-- The code of a card state. -/
def CardState.code : CardState → Nat
  | .absent => 0
  | .mounting => 1
  | .unformatted => 2
  | .ready => 3
  | .writeProtected => 4
  | .full => 5
  | .formatting => 6
  | .fault => 7

/-- The code of a clear mode. -/
def ClearMode.code : ClearMode → Nat
  | .onRead => 0
  | .onAck => 1

/-- A position, 0xFFFF when absent. -/
def positionCode (p : Option Nat) : Nat := p.getD 0xFFFF

/-! ### Status record -/

/-- The crop of the newest complete slot, 0 if there is none (R25). -/
def SlotManager.currentCrop (m : SlotManager) : Int × Int :=
  match m.newest.bind m.frameIn with
  | some f => (f.dx, f.dy)
  | none => (0, 0)

/-- The status record with the values the owners hold now, and a changed-group set (R25, R27). The init state is
INITIALISING in the record of start-up step 4, the first one written, and RUNNING in every later record (log 43). -/
def Part.statusRecord (groups : Groups) (p : Part) : StatusRecord where
  cause := p.bus.report.cause
  running := decide (p.phase = .running) || p.bus.report.image.isSome
  conflict := p.map.conflict
  groups := groups
  frame := ⟨p.slots.frameCounter, p.recd.tc.current, p.slots.torn, p.slots.skips, p.slots.unshown⟩
  stab := ⟨p.stab.mode, p.stab.yaw.panState, p.stab.pitch.panState, p.slots.currentCrop.1, p.slots.currentCrop.2,
    p.stab.yaw.bias, p.stab.pitch.bias⟩
  lens := ⟨p.lens.zoom.pos, p.lens.zoom.state, p.lens.focus.pos, p.lens.focus.state, p.lens.iris.duty,
    p.lens.coord.distance⟩
  recd := ⟨p.recd.card.recState, p.recd.card.clipNumber, p.recd.ring.minutes p.recd.card.freeUnits p.recd.tc.rate,
    p.recd.ring.releaseFront, p.recd.ring.drops, p.recd.ring.overruns⟩
  card := ⟨p.recd.card.state, p.recd.card.freeUnits, p.recd.card.retired⟩
  audio := ⟨p.audio.toList.map Channel.held, p.audio.toList.map Channel.overSet⟩

/-- The OVER byte: bit n for channel n (12.1). -/
def oversByte : List Bool → Nat
  | [] => 0
  | b :: bs => b.toNat + 2 * oversByte bs

/-- The 256 bytes of a status record (12.1), reserved bytes zero (R185). -/
def StatusRecord.bytes (s : StatusRecord) : List Byte :=
  leBytes 2 0x0C64 ++ leBytes 1 0x01 ++ leBytes 1 s.cause.code ++ leBytes 1 s.running.toNat ++ leBytes 1 s.conflict.toNat ++
    leBytes 2 0 ++ leBytes 4 s.groups.word ++ leBytes 4 0 ++
    leBytes 4 s.frame.frame ++ leBytes 4 s.frame.timecode.toNat ++ leBytes 4 s.frame.torn ++ leBytes 4 s.frame.skips ++
    leBytes 4 s.frame.unshown ++
    leBytes 1 s.stab.mode.code ++ leBytes 1 s.stab.panYaw.code ++ leBytes 1 s.stab.panPitch.code ++ leBytes 1 0 ++
    signedBytes 2 s.stab.dx ++ signedBytes 2 s.stab.dy ++ signedBytes 2 s.stab.biasYaw ++ signedBytes 2 s.stab.biasPitch ++
    leBytes 2 (positionCode s.lens.zoomPos) ++ leBytes 1 s.lens.zoomState.code ++ leBytes 1 s.lens.focusState.code ++
    leBytes 2 (positionCode s.lens.focusPos) ++ leBytes 2 s.lens.duty ++ leBytes 1 s.lens.distance ++ leBytes 3 0 ++
    leBytes 1 s.recd.recState.code ++ leBytes 1 s.card.state.code ++ leBytes 2 s.recd.clipNumber ++
    leBytes 4 s.card.freeUnits ++ leBytes 2 s.recd.minutes ++ leBytes 2 0 ++ leBytes 4 s.recd.freeLimit ++
    leBytes 4 s.recd.drops ++ leBytes 4 s.recd.overruns ++ leBytes 4 s.card.retired ++
    s.audio.held.flatMap (leBytes 1) ++ leBytes 1 (oversByte s.audio.overs) ++ List.replicate 163 0

/-- A status record write is granted: the record is formed, the changed groups set, and the record is the new image (R25,
R27). The answer gives the bytes written. -/
def Part.formStatus (p : Part) : Part × List Byte :=
  let now := p.statusRecord p.bus.report.groups
  let groups := p.bus.report.groups.compare now p.bus.report.image
  let written := { now with groups := groups }
  ({ p with bus := { p.bus with report := { p.bus.report with groups := groups, image := some written } } }, written.bytes)

/-! ### Factor record and outcome word -/

/-- The 32 bytes of the factor record (12.1). -/
def ReportUnit.factorBytes (r : ReportUnit) : List Byte :=
  leBytes 4 r.pending.toNat ++ leBytes 4 r.mask.toNat ++ leBytes 1 r.clearMode.code ++ List.replicate 23 0

/-- The four bytes of an outcome word (R23, 12.1). -/
def outcomeBytes (code : OutcomeCode) (detail uses kind : Byte) : List Byte := leBytes 1 code.number ++ [detail, uses, kind]

/-- The address of a slot's outcome word (12.1). -/
def RegionMap.outcomeAt (m : RegionMap) (slot : CmdSlot) : Nat := m.controlBase + 0x40 * slot.val + 4

/-- The addresses of the status record, the factor record and the last-clip record (12.1). -/
def RegionMap.statusAt (m : RegionMap) : Nat := m.controlBase + 0x400
def RegionMap.factorAt (m : RegionMap) : Nat := m.controlBase + 0x500
def RegionMap.lastClipAt (m : RegionMap) : Nat := m.controlBase + 0x540

/-! ### Clear on read -/

/-- A granted READ of the report area at an offset, with its data (R27, R31). -/
def Bus.reportRead (offset : Nat) (data : List Byte) (b : Bus) : Bus :=
  if offset = 0x400 then
    let groups := b.report.groups.clear (fieldAt data 8 4)
    if groups = b.report.groups then b
    else Bus.requestStatus { b with report := { b.report with groups := groups } }
  else if offset = 0x500 && decide (b.report.clearMode = .onRead) then
    b.setPending (b.report.pending &&& ~~~(BitVec.ofNat 32 (fieldAt data 0 4)))
  else b

end Sys2Proof.Machine
end

