-- ==== Sys2Proof/Machine/Grants.lean ====
section
/-! DEFINITION. The memory arbiter (01 section 1.5): whom it grants (R16), and what the grant of a LINK, CARD or PART request
does to memory (R17) and at the blocks that watch it. -/

namespace Sys2Proof.Machine

/-! ### The rotation -/

/-- The classes in the order in which the arbiter looks at them after a grant (R16). -/
def ReqClass.rotation : ReqClass → List ReqClass
  | .link => [.card, .part, .link]
  | .card => [.part, .link, .card]
  | .part => [.link, .card, .part]

/-- The class holds a request. -/
def Part.holds (p : Part) : ReqClass → Bool
  | .link => p.link.request.isSome
  | .card => p.recd.card.request.isSome
  | .part => !p.bus.partQ.isEmpty

/-- The class that the arbiter grants next (R16). -/
def Part.nextGrant (p : Part) : Option ReqClass := p.lastGrant.rotation.find? p.holds

/-! ### LINK -/

/-- A beat of a command slot is copied (R19, R20): the slot is checked at the transaction's last beat in it.
DESIGN CHOICE (log 70): so also where word 0 was copied before INIT_DONE and the command was already checked there (R34). -/
def Part.commandBeat (offset : Nat) (data : List Byte) (enables : List Bool) (p : Part) : Part :=
  let p := { p with
    bus := { p.bus with cmd := { p.bus.cmd with shadow := p.bus.cmd.shadow.writeMasked offset data enables } } }
  match p.link.held with
  | [] => p
  | t :: ts =>
    let slot : CmdSlot := Fin.ofNat 16 (offset / 64)
    let first := decide (offset % 64 = 0)
    let offered := if first then coversAt enables 0 4 && decide (p.bus.cmd.kind slot ≠ 0) else t.offered
    let last := !first || decide (t.count ≤ t.next + 1)
    let p := { p with link := { p.link with held := { t with offered := offered && !last } :: ts } }
    if last && offered then p.checkSlot slot else p

/-- The block that watches a granted write acts (R9, R13, R42). -/
def Part.watch (w : WriteWatch) (data : List Byte) (enables : List Bool) (p : Part) : Part :=
  match w with
  | .unwatched => p
  | .command o => p.commandBeat o data enables
  | .ring o => p.onRecorder fun r => (Job.start r).ringBeat p.map o data enables
  | .capture k o => if p.slots.isFilling k && completes p.map o enables then p.frameComplete k else p

/-- The LINK request is granted (R9, R13, R14, R17). -/
def Part.linkGrant (mem : Memory) (p : Part) : Part × Memory :=
  let q := { p with link := { p.link with request := none }, lastGrant := .link }
  match p.link.request with
  | none => (p, mem)
  | some (.write a data enables w) =>
    ((q.watch w data enables).endBeat none false, mem.writeMasked a data enables)
  | some (.read a report) =>
    let data := mem.readBytes a 32
    let q := match report with
      | some o => { q with bus := q.bus.reportRead o data }
      | none => q
    (q.endBeat (some data) false, mem)
  | some (.view r a y x) => (q.endBeat (some (q.viewData r x y (mem.readBytes a 32))) false, mem)

/-! ### CARD -/

/-- The bytes that a CARD request reads (R15, R17). -/
def RegionMap.cardBytes (m : RegionMap) (mem : Memory) : CardReq → List Byte
  | .dir a beats => mem.readBytes a (32 * beats)
  | .chunk offset length _ _ => mem.readBytes (m.ringBase + offset) length

/-- The CARD request is granted (R17, R128, R133, R146). -/
def Part.cardGrant (mem : Memory) (p : Part) : Part :=
  match p.recd.card.request with
  | none => p
  | some req =>
    { p with lastGrant := .card }.onRecorder fun r => (Job.start r).cardGranted p.map req (p.map.cardBytes mem req)

/-! ### PART -/

/-- The code ends a command (R22, R23). -/
def OutcomeCode.final (c : OutcomeCode) : Bool := decide (c ≠ .pending) && decide (c ≠ .noOutcome)

/-- A granted outcome write (R23, R32): CMD_DONE for a final outcome, then the removal of the factors that an EVENT_ACK
noted. -/
def Bus.outcomeGranted (code : OutcomeCode) (ack : Word) (b : Bus) : Bus :=
  let b := if code.final then b.raise .cmdDone else b
  b.setPending (b.report.pending &&& ~~~ack)

/-- The flags that a stamp write carries at its grant (R127): OVERWRITTEN is the entry's; where the entry is gone, it is
that of the request, which the overruns of the entry have marked (R124; log 44). -/
def RingMonitor.stampFlags (number : Nat) (estimated overwritten : Bool) (m : RingMonitor) : Nat :=
  let now := match m.queue.find? fun e => e.number = number with
    | some e => e.overwritten
    | none => overwritten
  Sys2Proof.Machine.stampFlags estimated now

/-- How many bytes from an address on one write of up to 8 beats can hold (R15). -/
def pieceSize (addr : Nat) : Nat := 256 - addr % 32

/-- The oldest PART request leaves the queue, and a RESTART that waited for it goes on (R16, R35). -/
def Part.dequeue (p : Part) : Part :=
  { p with bus := Bus.restartProgress { p.bus with partQ := p.bus.partQ.drop 1 } }

/-- The oldest PART request is replaced by what is left of its run (log 22). -/
def Part.requeue (r : PartReq) (p : Part) : Part := { p with bus := { p.bus with partQ := r :: p.bus.partQ.drop 1 } }

/-- What the grant of the oldest PART request does (R17 and the rule of its kind). DESIGN CHOICE (log 76): where an ABORTED outcome
is the last write that a RESTART awaits, the factor record write of its CMD_DONE is requested before the RESTART's own DONE. -/
def Part.grantPart (mem : Memory) (p : Part) : PartReq → Part × Memory
  | .zero a pieces =>
    (if pieces ≤ 1 then p.dequeue else p.requeue (.zero (a + 256) (pieces - 1)), mem.writeBytes a (List.replicate 256 0))
  | .zeroOutcome slot => (p.dequeue, mem.writeBytes (p.map.outcomeAt slot) (List.replicate 4 0))
  | .status =>
    let r := p.formStatus
    (r.1.dequeue, mem.writeBytes p.map.statusAt r.2)
  | .factor =>
    let q := if p.phase = .zeroing then { p with phase := .recordsWritten } else p
    (q.dequeue, mem.writeBytes p.map.factorAt p.bus.report.factorBytes)
  | .lastClip record => (p.dequeue, mem.writeBytes p.map.lastClipAt record)
  | .outcome slot code detail uses kind ack =>
    (Part.dequeue { p with bus := p.bus.outcomeGranted code ack },
      mem.writeBytes (p.map.outcomeAt slot) (outcomeBytes code detail uses kind))
  | .stamp entry a timecode rateMode estimated overwritten =>
    let flags := p.recd.ring.stampFlags entry estimated overwritten
    (p.dequeue.onRecorder fun r => (Job.start r).ring fun m => m.stampGranted p.map.ringSize entry,
      mem.writeBytes (a + 0x10) (leBytes 4 timecode.toNat ++ leBytes 4 rateMode.toNat ++ leBytes 4 flags))
  | .mirror a bytes =>
    let n := pieceSize a
    (if bytes.length ≤ n then p.dequeue.onRecorder fun r => (Job.start r).mirrorGranted
      else p.requeue (.mirror (a + n) (bytes.drop n)),
      mem.writeBytes a (bytes.take n))
  | .lensLoad a discard =>
    (if discard then p.dequeue else p.dequeue.lensJob fun j => j.judgeLoad (mem.readBytes a 256), mem)

/-- The oldest PART request is granted. -/
def Part.partGrant (mem : Memory) (p : Part) : Part × Memory :=
  match p.bus.partQ with
  | [] => (p, mem)
  | r :: _ => Part.grantPart mem { p with lastGrant := .part } r

/-! ### The machine -/

/-- A grant of the class, where it is the class that the arbiter grants next; otherwise it does not occur (log 10). -/
def State.grant (c : ReqClass) (s : State) : State :=
  if s.part.nextGrant = some c then
    match c with
    | .link => { s with part := (s.part.linkGrant s.mem).1, mem := (s.part.linkGrant s.mem).2 }
    | .card => { s with part := s.part.cardGrant s.mem }
    | .part => { s with part := (s.part.partGrant s.mem).1, mem := (s.part.partGrant s.mem).2 }
  else s

end Sys2Proof.Machine
end

