-- ==== Sys2Proof/Machine/NamedCases.lean ====
section
/-! DEFINITION. When a row of the table that names one case of a larger event occurs (log 9): PAN, TRACK_RETURN and
METER_FALL within a frame complete, GYRO_LOST, GYRO_BACK and CAL_DONE at a gyro sample, HOMING_FAIL at a homing step. -/

namespace Sys2Proof.Machine

/-- The grant that comes next is that of a capture beat that completes a frame (R42). -/
def Part.completesNext (p : Part) : Bool :=
  decide (p.nextGrant = some .link) &&
    match p.link.request with
    | some (.write _ _ enables (.capture k o)) => p.slots.isFilling k && completes p.map o enables
    | _ => false

/-- An axis of the stabiliser. -/
def Stabiliser.axis (s : Stabiliser) : GyroAxis → StabAxis
  | .yaw => s.yaw
  | .pitch => s.pitch

/-- The margin of an axis (R63). -/
def RegionMap.margin (m : RegionMap) : GyroAxis → Nat
  | .yaw => m.mx
  | .pitch => m.my

/-- The stabiliser as a frame complete now would leave it (R61). -/
def Part.frameStab (p : Part) : Stabiliser := (p.stab.frame p.map.mx p.map.my p.lens.coord.table p.lens.zoom.pos).stab

/-- A frame complete now would take an axis from one pan state to the other by its run (R67, R68). -/
def Part.pans (axis : GyroAxis) (before after : PanState) (p : Part) : Bool :=
  let s := p.stab.applyCopy
  s.mode.crops && decide (p.map.margin axis ≠ 0) && decide ((s.axis axis).panState = before) &&
    decide ((p.frameStab.axis axis).panState = after)

/-- PAN: the grant that comes next takes the axis into PAN (R67). -/
def Part.panNext (axis : GyroAxis) (p : Part) : Bool := p.completesNext && p.pans axis .track .pan

/-- TRACK_RETURN: the grant that comes next returns the axis to TRACK (R68). -/
def Part.trackNext (axis : GyroAxis) (p : Part) : Bool := p.completesNext && p.pans axis .pan .track

/-- METER_FALL: the grant that comes next drops the channel's held segment (R172). -/
def Part.fallNext (channel : ChannelNo) (p : Part) : Bool := p.completesNext && p.audio[channel].falls

/-- GYRO_LOST: the next missing sample is the eighth (R59). -/
def Stabiliser.lostNext (s : Stabiliser) : Bool := decide (s.mode = .active) && decide (8 ≤ s.missingRun + 1)

/-- GYRO_BACK: the next valid sample is the sixteenth (R60). -/
def Stabiliser.backNext (s : Stabiliser) : Bool := decide (s.mode = .hold) && decide (16 ≤ s.validRun + 1)

/-- CAL_DONE: a valid sample with these readings is the 256th of a calibration (R73, R74). -/
def Stabiliser.calNext (yaw pitch : BitVec 16) (s : Stabiliser) : Bool :=
  match s.mode, s.cal with
  | .calibrating, some c =>
    decide (256 ≤ c.count + 1) &&
      (match c.first with
        | some f => still f.1 (gyroRaw yaw) && still f.2 (gyroRaw pitch)
        | none => true)
  | _, _ => false

/-- HOMING_FAIL: the next step reaches the step budget without an edge (R85). -/
def Lens.failNext (n : AxisName) (sensor : Bool) (l : Lens) : Bool :=
  let ax := { l.axis n with sensor := sensor }
  match ax.state, ax.homing with
  | .homing, some (.leg towardSensor steps false) =>
    decide ((ax.legStep n (l.range n) (l.homeValue n) towardSensor steps).ax.state = .fault)
  | _, _ => false

end Sys2Proof.Machine
end

