-- ==== Sys2Proof/Machine/StartUp.lean ====
section
/-! DEFINITION. The rows of resets and start-up: POWER_ON, PIN_RESET, FRAME_MEMORY_READY, INIT_DONE. -/

namespace Sys2Proof.Machine

/-- What a command answers. -/
abbrev Answer := Host.Outcome State Fault Refusal

/-- A change of the part alone. -/
def State.onPart (f : Part → Part) (s : State) : State := { s with part := f s.part }

/-- POWER_ON (R3, R5, R6, R18, R33, R36): every block takes its reset values, and memory is undefined (log 4). -/
def execPowerOn (pins : Pins) (s : State) : Answer :=
  .next { s with part := s.part.hardReset .powerOn pins, mem := [] }

/-- PIN_RESET (R3, R5, R6, R18, R33, R36): as POWER_ON, and memory holds what it held. -/
def execPinReset (pins : Pins) (s : State) : Answer := .next (s.onPart (Part.hardReset .pin pins))

/-- FRAME_MEMORY_READY (R18): the stall ends. Without a stall it does not occur (log 10). -/
def execFrameMemoryReady (s : State) : Answer :=
  .next (if s.part.phase = .stalled then s.onPart Part.memoryReady else s)

/-- INIT_DONE (R18 step 5, R33, R34), once start-up step 4 is granted; otherwise it does not occur (log 10). -/
def execInitDone (s : State) : Answer :=
  .next (if s.part.phase = .recordsWritten then s.onPart Part.raiseInitDone else s)

end Sys2Proof.Machine
end

