-- ==== Sys2Proof/Machine/Events.lean ====
section
/-! DEFINITION. The rows of the part's own lines: the named cases of an event (log 9), the gyro, the lens motors and the iris
PWM, the grip, and the card. -/

namespace Sys2Proof.Machine

/-! ### Named cases within a frame complete -/

/-- PAN (R67): the grant of the completing beat at which the axis enters PAN (log 9). -/
def execPan (axis : GyroAxis) (s : State) : Answer := .next (if s.part.panNext axis then s.grant .link else s)

/-- TRACK_RETURN (R68): the grant of the completing beat at which the axis returns to TRACK (log 9). -/
def execTrackReturn (axis : GyroAxis) (s : State) : Answer := .next (if s.part.trackNext axis then s.grant .link else s)

/-- METER_FALL (R172): the grant of the completing beat at which the channel's held segment falls (log 9). -/
def execMeterFall (channel : ChannelNo) (s : State) : Answer :=
  .next (if s.part.fallNext channel then s.grant .link else s)

/-! ### Gyro -/

/-- One gyro sample; the port polls from INIT_DONE on (R53). -/
def Part.gyro (answer : GyroAnswer) (p : Part) : Part :=
  if p.phase = .running then p.onStab fun j => j.sample answer else p

/-- GYRO_SAMPLE (R53, R57, R59, R60, R71, R73, R74). -/
def execGyroSample (answer : GyroAnswer) (s : State) : Answer := .next (s.onPart (Part.gyro answer))

/-- CAL_DONE (R74): the 256th sample of a calibration, with these readings (log 9). -/
def execCalDone (yaw pitch : BitVec 16) (s : State) : Answer :=
  .next (if s.part.stab.calNext yaw pitch then s.onPart (Part.gyro (.valid yaw pitch)) else s)

/-- GYRO_LOST (R59): the eighth missing sample in a row (log 9). -/
def execGyroLost (s : State) : Answer := .next (if s.part.stab.lostNext then s.onPart (Part.gyro .missing) else s)

/-- GYRO_BACK (R60): the sixteenth valid sample in a row, whose readings HOLD does not use (log 9). -/
def execGyroBack (s : State) : Answer := .next (if s.part.stab.backNext then s.onPart (Part.gyro (.valid 0 0)) else s)

/-! ### Lens and iris -/

/-- AXIS_STEP (R80, R83, R84, R85, R91, R94, R96). -/
def execAxisStep (axis : AxisName) (sensor : Bool) (s : State) : Answer :=
  .next (s.onPart (Part.lensJob fun j => j.axisStep axis sensor))

/-- HOMING_FAIL (R85): the step that reaches the budget (log 9). -/
def execHomingFail (axis : AxisName) (sensor : Bool) (s : State) : Answer :=
  .next (if s.part.lens.failNext axis sensor then s.onPart (Part.lensJob fun j => j.axisStep axis sensor) else s)

/-- DWELL_EXPIRE (R79, R83): the dwell timer of an axis expires. -/
def execDwellExpire (axis : AxisName) (s : State) : Answer :=
  .next (s.onPart fun p => { p with lens := p.lens.setAxis axis (p.lens.axis axis).dwellDone })

/-- IRIS_PWM_PERIOD (R98): the loaded duty takes the duty's value. -/
def execIrisPwmPeriod (s : State) : Answer :=
  .next (s.onPart fun p =>
    { p with lens := { p.lens with iris := { p.lens.iris with loaded := p.lens.iris.duty } } })

/-! ### Grip -/

/-- ROCKER_SAMPLE (R109, R110), from INIT_DONE on. -/
def execRockerSample (level : Byte) (s : State) : Answer :=
  .next (if s.part.phase = .running then s.onPart (Part.lensJob fun j => j.rockerSample level.toNat) else s)

/-- `n` readings in a row of the REC button (R111), from INIT_DONE on: a press acted on raises GRIP_REC and hands the card
engine a toggle (R141, R142). -/
def Part.recButton (pressed : Bool) (n : Nat) (p : Part) : Part :=
  if p.phase = .running then
    let r := p.lens.coord.recReadings pressed n
    let p := { p with lens := { p.lens with coord := r.1 } }
    if r.2 then (p.raise .gripRec).onRecorder (Recorder.toggle p.map) else p
  else p

/-- REC_BUTTON_PRESS (R111; log 14). -/
def execRecButtonPress (readings : Nat) (s : State) : Answer := .next (s.onPart (Part.recButton true readings))

/-- REC_BUTTON_RELEASE (R111; log 14). -/
def execRecButtonRelease (readings : Nat) (s : State) : Answer := .next (s.onPart (Part.recButton false readings))

/-! ### Card -/

/-- An event at the card engine. -/
def State.onCard (f : RegionMap → RecWork → RecWork) (s : State) : State :=
  s.onPart fun p => p.onRecorder fun r => f p.map (Job.start r)

/-- `n` samples in a row of the card-detect line (R134). -/
def State.cardDetect (level : Bool) (n : Nat) (s : State) : State :=
  s.onCard fun map j => j.cardDetect map level n (decide (s.part.phase = .running) && !map.conflict)

/-- CARD_INSERTION (R134; log 14). -/
def execCardInsertion (samples : Nat) (s : State) : Answer := .next (s.cardDetect true samples)

/-- CARD_REMOVAL (R134, R153; log 14). -/
def execCardRemoval (samples : Nat) (s : State) : Answer := .next (s.cardDetect false samples)

/-- CARD_IDENT_ANSWER (R138 step 1); a late one is discarded (R133, R155; log 48). -/
def execCardIdentAnswer (blocks : CardAnswer Nat) (writeProtect : Bool) (s : State) : Answer :=
  match blocks with
  | .inTime n => .next (s.onCard fun _ j => j.identAnswer n writeProtect)
  | .late => .next s

/-- The data is that of the blocks a READ in flight asks for; ERROR, and an answer to no READ, need none (8.1; log 35). -/
def CardEngine.answers (data : Option (List Byte)) (c : CardEngine) : Bool :=
  match c.inFlight, data with
  | some ⟨.read _ count, _⟩, some bytes => decide (bytes.length = 512 * count)
  | _, _ => true

/-- CARD_READ_ANSWER (R133, R138, R139); a late one is discarded (R133, R155; log 48). -/
def execCardReadAnswer (data : CardAnswer (Option (List Byte))) (s : State) : Answer :=
  match data with
  | .inTime d => if s.part.recd.card.answers d then .next (s.onCard fun map j => j.readAnswer map d) else .refused .illFormed
  | .late => .next s

/-- CARD_WRITE_ANSWER (R133, R140, R144, R146 to R152); a late one is discarded (R133, R155; log 48). -/
def execCardWriteAnswer (ok : CardAnswer Bool) (s : State) : Answer :=
  match ok with
  | .inTime o => .next (s.onCard fun map j => j.writeAnswer map o)
  | .late => .next s

/-- CARD_TIMEOUT (R133): no answer has come to the command in flight. -/
def execCardTimeout (s : State) : Answer := .next (s.onCard fun map j => j.timeout map)

end Sys2Proof.Machine
end

