-- ==== Sys2Proof/Machine/HostCommands.lean ====
section
/-! DEFINITION. The rows of the host commands: a command is offered in a slot and the slot is checked (R20 to R22). The row
carries the operands that the shadow gives at the take (log 6); a slot whose last outcome is PENDING collides, and before
INIT_DONE nothing is checked. -/

namespace Sys2Proof.Machine

/-- A slot is checked with a command in it. -/
def State.offered (slot : CmdSlot) (taken : Part → Part) (s : State) : Answer := .next (s.onPart (Part.offer slot taken))

/-- REGION (R7, R8). -/
def execRegion (slot : CmdSlot) (privBase audioBase audioSize ringBase ringSize slotBase slotCount vw vh cw ch : Word)
    (s : State) : Answer :=
  s.offered slot (Part.takeRegion slot privBase audioBase audioSize ringBase ringSize slotBase slotCount vw vh cw ch)

/-- RESTART (R35). -/
def execRestart (slot : CmdSlot) (s : State) : Answer := s.offered slot (Part.takeRestart slot)

/-- EVENT_SET (R30). -/
def execEventSet (slot : CmdSlot) (mask mode : Word) (s : State) : Answer :=
  s.offered slot (Part.takeEventSet slot mask mode)

/-- EVENT_ACK (R32). -/
def execEventAck (slot : CmdSlot) (factors : Word) (s : State) : Answer := s.offered slot (Part.takeEventAck slot factors)

/-- LENS_TABLE (R100). -/
def execLensTable (slot : CmdSlot) (address : Word) (s : State) : Answer :=
  s.offered slot (Part.takeLensTable slot address)

/-- AXIS_SET (R93). -/
def execAxisSet (slot : CmdSlot) (sel : Byte) (vStart vMax ramp dwell low high action quietCap : Word) (s : State) :
    Answer :=
  s.offered slot (Part.takeAxisSet slot sel vStart vMax ramp dwell low high action quietCap)

/-- COMPARE_SET (R95). -/
def execCompareSet (slot : CmdSlot) (sel : Byte) (comparator value condition enable : Word) (s : State) : Answer :=
  s.offered slot (Part.takeCompareSet slot sel comparator value condition enable)

/-- HOME (R83). -/
def execHome (slot : CmdSlot) (sel : Byte) (s : State) : Answer := s.offered slot (Part.takeHome slot sel)

/-- MOVE (R86 to R88). -/
def execMove (slot : CmdSlot) (sel : Byte) (target cap condition argument : Word) (s : State) : Answer :=
  s.offered slot (Part.takeMove slot sel target cap condition argument)

/-- JOG (R90). -/
def execJog (slot : CmdSlot) (sel : Byte) (direction speed : Word) (s : State) : Answer :=
  s.offered slot (Part.takeJog slot sel direction speed)

/-- STOP (R92). -/
def execStop (slot : CmdSlot) (sel : Byte) (kind : Word) (s : State) : Answer :=
  s.offered slot (Part.takeStop slot sel kind)

/-- FOCUS_TRACK (R103). -/
def execFocusTrack (slot : CmdSlot) (enable distance : Word) (s : State) : Answer :=
  s.offered slot (Part.takeFocusTrack slot enable distance)

/-- IRIS (R97). -/
def execIris (slot : CmdSlot) (target step : Word) (s : State) : Answer := s.offered slot (Part.takeIris slot target step)

/-- GRIP_SET (R108). -/
def execGripSet (slot : CmdSlot) (rocker button : Word) (s : State) : Answer :=
  s.offered slot (Part.takeGripSet slot rocker button)

/-- STAB_SET (R69, R71). -/
def execStabSet (slot : CmdSlot) (enable rate lTrack lPan hold yaw pitch : Word) (s : State) : Answer :=
  s.offered slot (Part.takeStabSet slot enable rate lTrack lPan hold yaw pitch)

/-- STAB_CAL (R72). -/
def execStabCal (slot : CmdSlot) (s : State) : Answer := s.offered slot (Part.takeStabCal slot)

/-- PREREC_SET (R122). -/
def execPrerecSet (slot : CmdSlot) (depth : Word) (s : State) : Answer := s.offered slot (Part.takePrerecSet slot depth)

/-- REC_START (R141, R143, R144). -/
def execRecStart (slot : CmdSlot) (s : State) : Answer := s.offered slot (Part.takeRecStart slot)

/-- REC_STOP (R142). -/
def execRecStop (slot : CmdSlot) (s : State) : Answer := s.offered slot (Part.takeRecStop slot)

/-- CARD_FORMAT (R140). -/
def execCardFormat (slot : CmdSlot) (s : State) : Answer := s.offered slot (Part.takeCardFormat slot)

/-- CARD_EJECT (R154). -/
def execCardEject (slot : CmdSlot) (s : State) : Answer := s.offered slot (Part.takeCardEject slot)

/-- TC_SET (R161). -/
def execTcSet (slot : CmdSlot) (timecode mode rate : Word) (s : State) : Answer :=
  s.offered slot (Part.takeTcSet slot timecode mode rate)

/-- AUDIO_SET (R173). -/
def execAudioSet (slot : CmdSlot) (sel : Byte) (enable threshold release clearOver : Word) (s : State) : Answer :=
  s.offered slot (Part.takeAudioSet slot sel enable threshold release clearOver)

/-- TEXT (R183). -/
def execText (slot : CmdSlot) (position form : Word) (codes : Vector Word 12) (s : State) : Answer :=
  s.offered slot (Part.takeText slot position form codes)

/-- TEXT_CLEAR (R183). -/
def execTextClear (slot : CmdSlot) (row : Word) (s : State) : Answer := s.offered slot (Part.takeTextClear slot row)

/-- FIELD_SET (R182). -/
def execFieldSet (slot : CmdSlot) (field row column enable : Word) (s : State) : Answer :=
  s.offered slot (Part.takeFieldSet slot field row column enable)

/-- ZEBRA_SET (R184). -/
def execZebraSet (slot : CmdSlot) (enable level : Word) (s : State) : Answer :=
  s.offered slot (Part.takeZebraSet slot enable level)

/-- PALETTE_SET (R184). -/
def execPaletteSet (slot : CmdSlot) (entry y cb cr : Word) (s : State) : Answer :=
  s.offered slot (Part.takePaletteSet slot entry y cb cr)

end Sys2Proof.Machine
end

