-- ==== Sys2Proof/Machine/LinkBeats.lean ====
section
/-! DEFINITION. The rows of the link: a transaction arrives, and each kind of beat that the port hands on (01). A beat's row
has its effect where the next beat is of its kind (log 10). -/

namespace Sys2Proof.Machine

/-- A beat row's effect on the part. -/
def State.onBeat (row : BeatRow) (f : LinkBeat → Part → Part) (s : State) : State :=
  match s.part.beatFor row with
  | some b => s.onPart (f b)
  | none => s

/-- LINK_TRANSACTION (R1, R18). No sender presents a transaction of other than 1 to 8 beats (log 35). -/
def execLinkTransaction (addr : BitVec 30) (op : LinkOp) (s : State) : Answer :=
  if op.wf then
    .next (s.onPart fun p => { p with link := p.link.arrive (.arriving addr.toNat op) })
  else .refused .illFormed

/-- PHYSICAL_BEAT (R9, R10 and R11 for READ beats). -/
def execPhysicalBeat (s : State) : Answer := .next (s.onBeat .physical Part.physicalBeat)

/-- AUDIO_RING_WRITE (R10, R165 to R170). -/
def execAudioRingWrite (s : State) : Answer := .next (s.onBeat .audioRingWrite Part.audioBeat)

/-- PRIVATE_AREA_WRITE (R11). -/
def execPrivateAreaWrite (s : State) : Answer := .next (s.onBeat .privateAreaWrite fun _ => Part.privateBeat)

/-- HOLE_BEAT (R1, R12). -/
def execHoleBeat (s : State) : Answer := .next (s.onBeat .hole Part.holeBeat)

/-- CAPTURE_WRITE (R13, R39 to R41, R43). -/
def execCaptureWrite (s : State) : Answer :=
  match s.part.beatFor .captureWrite with
  | none => .next s
  | some b =>
    match s.part.captureBeat b with
    | some p => .next { s with part := p }
    | none => .fault .noClaimableSlot

/-- VIEW_READ (R14, R45 to R48, R177 to R179). -/
def execViewRead (s : State) : Answer := .next (s.onBeat .viewRead Part.viewBeat)

/-- LINK_REQUEST_GRANT (R16, R17). -/
def execLinkRequestGrant (s : State) : Answer := .next (s.grant .link)

/-- CARD_REQUEST_GRANT (R16, R17, R128). -/
def execCardRequestGrant (s : State) : Answer := .next (s.grant .card)

/-- PART_REQUEST_GRANT (R16, R17, R23, R27, R28, R32, R35, R101, R127). -/
def execPartRequestGrant (s : State) : Answer := .next (s.grant .part)

end Sys2Proof.Machine
end

