-- ==== Sys2Proof/Machine/Dispatch.lean ====
section
/-! DEFINITION. The dispatch: one meaning per command, in the order of spec/opcode_table.json. -/

namespace Sys2Proof.Machine

/-- What a command does to everything but the queue. -/
def exec (i : Instr) (s : State) : Host.Outcome State Fault Refusal :=
  match i with
  | .powerOn pins => Sys2Proof.Machine.execPowerOn pins s
  | .pinReset pins => Sys2Proof.Machine.execPinReset pins s
  | .frameMemoryReady => Sys2Proof.Machine.execFrameMemoryReady s
  | .initDone => Sys2Proof.Machine.execInitDone s
  | .linkTransaction addr op => Sys2Proof.Machine.execLinkTransaction addr op s
  | .physicalBeat => Sys2Proof.Machine.execPhysicalBeat s
  | .audioRingWrite => Sys2Proof.Machine.execAudioRingWrite s
  | .privateAreaWrite => Sys2Proof.Machine.execPrivateAreaWrite s
  | .holeBeat => Sys2Proof.Machine.execHoleBeat s
  | .captureWrite => Sys2Proof.Machine.execCaptureWrite s
  | .viewRead => Sys2Proof.Machine.execViewRead s
  | .linkRequestGrant => Sys2Proof.Machine.execLinkRequestGrant s
  | .cardRequestGrant => Sys2Proof.Machine.execCardRequestGrant s
  | .partRequestGrant => Sys2Proof.Machine.execPartRequestGrant s
  | .region slot privBase audioBase audioSize ringBase ringSize slotBase slotCount vw vh cw ch => Sys2Proof.Machine.execRegion slot privBase audioBase audioSize ringBase ringSize slotBase slotCount vw vh cw ch s
  | .restart slot => Sys2Proof.Machine.execRestart slot s
  | .eventSet slot mask mode => Sys2Proof.Machine.execEventSet slot mask mode s
  | .eventAck slot factors => Sys2Proof.Machine.execEventAck slot factors s
  | .lensTable slot address => Sys2Proof.Machine.execLensTable slot address s
  | .axisSet slot sel vStart vMax ramp dwell low high action quietCap => Sys2Proof.Machine.execAxisSet slot sel vStart vMax ramp dwell low high action quietCap s
  | .compareSet slot sel comparator value condition enable => Sys2Proof.Machine.execCompareSet slot sel comparator value condition enable s
  | .home slot sel => Sys2Proof.Machine.execHome slot sel s
  | .move slot sel target cap condition argument => Sys2Proof.Machine.execMove slot sel target cap condition argument s
  | .jog slot sel direction speed => Sys2Proof.Machine.execJog slot sel direction speed s
  | .stop slot sel kind => Sys2Proof.Machine.execStop slot sel kind s
  | .focusTrack slot enable distance => Sys2Proof.Machine.execFocusTrack slot enable distance s
  | .iris slot target step => Sys2Proof.Machine.execIris slot target step s
  | .gripSet slot rocker button => Sys2Proof.Machine.execGripSet slot rocker button s
  | .stabSet slot enable rate lTrack lPan hold yaw pitch => Sys2Proof.Machine.execStabSet slot enable rate lTrack lPan hold yaw pitch s
  | .stabCal slot => Sys2Proof.Machine.execStabCal slot s
  | .prerecSet slot depth => Sys2Proof.Machine.execPrerecSet slot depth s
  | .recStart slot => Sys2Proof.Machine.execRecStart slot s
  | .recStop slot => Sys2Proof.Machine.execRecStop slot s
  | .cardFormat slot => Sys2Proof.Machine.execCardFormat slot s
  | .cardEject slot => Sys2Proof.Machine.execCardEject slot s
  | .tcSet slot timecode mode rate => Sys2Proof.Machine.execTcSet slot timecode mode rate s
  | .audioSet slot sel enable threshold release clearOver => Sys2Proof.Machine.execAudioSet slot sel enable threshold release clearOver s
  | .text slot position form codes => Sys2Proof.Machine.execText slot position form codes s
  | .textClear slot row => Sys2Proof.Machine.execTextClear slot row s
  | .fieldSet slot field row column enable => Sys2Proof.Machine.execFieldSet slot field row column enable s
  | .zebraSet slot enable level => Sys2Proof.Machine.execZebraSet slot enable level s
  | .paletteSet slot entry y cb cr => Sys2Proof.Machine.execPaletteSet slot entry y cb cr s
  | .pan axis => Sys2Proof.Machine.execPan axis s
  | .trackReturn axis => Sys2Proof.Machine.execTrackReturn axis s
  | .meterFall channel => Sys2Proof.Machine.execMeterFall channel s
  | .gyroSample answer => Sys2Proof.Machine.execGyroSample answer s
  | .calDone yaw pitch => Sys2Proof.Machine.execCalDone yaw pitch s
  | .gyroLost => Sys2Proof.Machine.execGyroLost s
  | .gyroBack => Sys2Proof.Machine.execGyroBack s
  | .axisStep axis sensor => Sys2Proof.Machine.execAxisStep axis sensor s
  | .homingFail axis sensor => Sys2Proof.Machine.execHomingFail axis sensor s
  | .dwellExpire axis => Sys2Proof.Machine.execDwellExpire axis s
  | .irisPwmPeriod => Sys2Proof.Machine.execIrisPwmPeriod s
  | .rockerSample level => Sys2Proof.Machine.execRockerSample level s
  | .recButtonPress readings => Sys2Proof.Machine.execRecButtonPress readings s
  | .recButtonRelease readings => Sys2Proof.Machine.execRecButtonRelease readings s
  | .cardInsertion samples => Sys2Proof.Machine.execCardInsertion samples s
  | .cardRemoval samples => Sys2Proof.Machine.execCardRemoval samples s
  | .cardIdentAnswer blocks writeProtect => Sys2Proof.Machine.execCardIdentAnswer blocks writeProtect s
  | .cardReadAnswer data => Sys2Proof.Machine.execCardReadAnswer data s
  | .cardWriteAnswer ok => Sys2Proof.Machine.execCardWriteAnswer ok s
  | .cardTimeout => Sys2Proof.Machine.execCardTimeout s

end Sys2Proof.Machine
end

