-- ==== Sys2Proof/Safety.lean ====
section
/-! DEFINITION. The terms in which claims about the machine are stated: when a slot takes a command, what the bus holds after
a take, which beat the link port hands on, and the conditions that every step must keep. -/

namespace Sys2Proof.Machine

/-! ### Taking a command -/

/-- The slot takes a command offered in it, and no test of the command unit's own but the conflict state can refuse it
(R20, R21, R22 step 2): INIT_DONE is raised, the slot's last outcome is not PENDING, no RESTART is in progress. -/
def Accepts (slot : CmdSlot) (p : Part) : Prop :=
  p.phase = .running ∧ p.bus.cmd.slots[slot].last ≠ .pending ∧ p.bus.cmd.restart = none

/-- The slot takes a command of any kind and hands it to its owner (R22 step 2). -/
def Ready (slot : CmdSlot) (p : Part) : Prop := Accepts slot p ∧ p.map.conflict = false

/-- The bus after a take (R22, R23, R24): the use count and the kind, what the owner asked meanwhile in order, and the
outcome of the take last. -/
def Bus.taken (slot : CmdSlot) (kind : Byte) (asked : List Out) (v : Verdict) (ack : Word) (b : Bus) : Bus :=
  ((b.beginTake slot kind).meetAll asked).answer slot v ack

/-- A take whose owner changes nothing of its own: a refusal, or a command with nothing to do (R22). -/
def Part.takenOnly (slot : CmdSlot) (kind : Byte) (v : Verdict) (p : Part) : Part :=
  { p with bus := p.bus.taken slot kind [] v 0 }

/-- A take that notes no factors: what the owner asked meanwhile, and its answer (R22, R23). The owner's own change is
given beside it. -/
def Part.afterTake (slot : CmdSlot) (kind : Byte) (asked : List Out) (v : Verdict) (p : Part) : Part :=
  { p with bus := p.bus.taken slot kind asked v 0 }

/-- What ends with a code where an axis's motions end (R24, R83, R86, R92): the host command in force, then the pending
move. -/
def StepAxis.ended (code : OutcomeCode) (ax : StepAxis) : List Out :=
  (match ax.holder with
    | some (.host h) => [Out.finish h code 0]
    | _ => []) ++
  (match ax.pendingMove with
    | some m => [Out.finish m.slot code 0]
    | none => [])

/-! ### Reset -/

/-- The region map right after its straps are sampled (R5, R6): the control block by the straps, every other value at its
default, and the conflict state for the straps 1,1. -/
def RegionMap.AtReset (strap1 strap0 : Bool) (m : RegionMap) : Prop :=
  m.controlBase = (match strap1, strap0 with
    | false, false => 0x00000000
    | false, true => 0x00100000
    | true, false => 0x08000000
    | true, true => 0x0FFFF800) ∧
  m.privBase = 0x0FFC0000 ∧ m.audioBase = 0x03000000 ∧ m.audioSize = 0x10000 ∧ m.ringBase = 0x04000000 ∧
  m.ringSize = 0x2000000 ∧ m.slotBase = 0x01000000 ∧ m.slotCount = 4 ∧ m.cw = 2112 ∧ m.ch = 1188 ∧ m.vw = 1920 ∧
  m.vh = 1080 ∧ m.conflict = (strap1 && strap0)

/-- A step axis with the values that R75 gives it at POWER_ON and PIN reset. -/
def StepAxis.AtReset (a : StepAxis) : Prop :=
  a.state = .unhomed ∧ a.pos = none ∧ a.dir = none ∧ a.vStart = 200 ∧ a.vMax = 4000 ∧ a.ramp = 400 ∧ a.dwell = 20 ∧
  a.low = 0 ∧ a.high = 0 ∧ a.action = .clamp ∧ a.quietCap = 600 ∧ a.quiet = false ∧ a.cmpA.enable = false ∧
  a.cmpA.cond = .off ∧ a.cmpB.enable = false ∧ a.cmpB.cond = .off ∧ a.holder = none ∧ a.pendingMove = none ∧ a.homing = none

/-- The lens side with the values that R75, R97 and section 6.1 give it at POWER_ON and PIN reset. -/
def Lens.AtReset (l : Lens) : Prop :=
  l.zoom.AtReset ∧ l.focus.AtReset ∧ l.iris.duty = 0 ∧ l.iris.target = 0 ∧ l.iris.loaded = 0 ∧ l.iris.step = 8 ∧
  l.coord.table = none ∧ l.coord.load = none ∧ l.coord.tracking = false ∧ l.coord.distance = 0 ∧ l.coord.rocker = .off ∧
  l.coord.recEnable = false ∧ l.coord.recPressed = false ∧ l.coord.recLockout = false

/-- The slot manager with the values that R37, R38 and R45 give it: the default four slots FREE, in slot order, no reader
attached, every count 0. -/
def SlotManager.AtReset (m : SlotManager) : Prop :=
  m.table = [FrameSlot.free, FrameSlot.free, FrameSlot.free, FrameSlot.free] ∧ m.freeOrder = [0, 1, 2, 3] ∧
  m.completion = [] ∧ m.enc.slot = none ∧ m.vf.slot = none ∧ m.frameCounter = 0 ∧ m.torn = 0 ∧ m.unshown = 0 ∧
  m.skips = 0 ∧ m.vfFrames = 0

/-- The stabiliser with the values that R54 gives it. -/
def Stabiliser.AtReset (s : Stabiliser) : Prop :=
  s.mode = .off ∧ s.enable = false ∧ s.rate = .hz1024 ∧ s.lTrack = 14 ∧ s.lPan = 8 ∧ s.hold = 4 ∧ s.yaw.bias = 0 ∧
  s.pitch.bias = 0 ∧ s.yaw.acc = 0 ∧ s.pitch.acc = 0 ∧ s.yaw.panState = .track ∧ s.pitch.panState = .track

/-- The recording side with the values that R114, R137, R155 and section 9.1 give it. -/
def Recorder.AtReset (r : Recorder) : Prop :=
  r.ring.writeFront = 0 ∧ r.ring.releaseFront = 0 ∧ r.ring.drainAhead = 0 ∧ r.ring.queue = [] ∧ r.ring.depth = 0 ∧
  r.ring.drops = 0 ∧ r.ring.overruns = 0 ∧ r.card.state = .absent ∧ r.card.recState = .idle ∧ r.card.clip = none ∧
  r.card.ejected = false ∧ r.card.inFlight = none ∧ r.card.retired = 0 ∧ r.tc.current.toNat = 0 ∧ r.tc.recordRun.toNat = 0 ∧
  r.tc.mode = .freeRun ∧ r.tc.rate = .fps25 ∧ r.tc.log = []

/-- An audio channel with the values that R164 gives it. -/
def Channel.AtReset (c : Channel) : Prop :=
  c.enable = false ∧ c.threshold = 8388607 ∧ c.release = 32 ∧ c.gain = 32768 ∧ c.block = none ∧ c.peak = 0 ∧ c.held = 0 ∧
  c.overSet = false

/-- The command unit and the report unit with the values that R19, R23, R28, R30 and R36 give them. -/
def Bus.AtReset (cause : ResetCause) (b : Bus) : Prop :=
  b.cmd.shadow = [] ∧ (∀ k : CmdSlot, b.cmd.slots[k].last = .noOutcome ∧ b.cmd.slots[k].uses = 0) ∧ b.cmd.restart = none ∧
  b.report.pending = 0 ∧ b.report.mask = 0xFFFFFFFF ∧ b.report.clearMode = .onRead ∧ b.report.cause = cause ∧
  b.report.image = none ∧ b.partQ = []

/-! ### REGION -/

/-- Every operand of a REGION has a legal value (section 1.3). -/
def RegionOperands.Legal (o : RegionOperands) : Prop :=
  4096 ∣ o.privBase ∧ 4096 ∣ o.audioBase ∧ (4096 ∣ o.audioSize ∧ 0x4000 ≤ o.audioSize ∧ o.audioSize ≤ 0x100000) ∧
  4096 ∣ o.ringBase ∧ (0x200000 ∣ o.ringSize ∧ 0x800000 ≤ o.ringSize ∧ o.ringSize ≤ 0x8000000) ∧
  32 ∣ o.slotBase ∧ (3 ≤ o.slotCount ∧ o.slotCount ≤ 8) ∧ (16 ∣ o.vw ∧ 64 ≤ o.vw ∧ o.vw ≤ 1920) ∧
  (16 ≤ o.vh ∧ o.vh ≤ 1080) ∧ (o.vw ≤ o.cw ∧ o.cw ≤ 4096 ∧ 4 ∣ o.cw - o.vw) ∧ (o.vh ≤ o.ch ∧ o.ch ≤ 2304 ∧ 2 ∣ o.ch - o.vh)

/-- Two regions, each a base and a size, share no byte. -/
def Apart (a b : Nat × Nat) : Prop := a.1 + a.2 ≤ b.1 ∨ b.1 + b.2 ≤ a.1

/-- The four regions and the control block lie in the physical window and share no byte (R7 steps 1 and 2). -/
def RegionMap.Placed (m : RegionMap) : Prop :=
  let priv := (m.privBase, 0x40000)
  let audio := (m.audioBase, m.audioSize)
  let ring := (m.ringBase, m.ringSize)
  let area := (m.slotBase, m.slotCount * m.pitch)
  let control := (m.controlBase, 0x800)
  (m.privBase + 0x40000 ≤ 0x10000000 ∧ m.audioBase + m.audioSize ≤ 0x10000000 ∧ m.ringBase + m.ringSize ≤ 0x10000000 ∧
    m.slotBase + m.slotCount * m.pitch ≤ 0x10000000) ∧
  Apart priv audio ∧ Apart priv ring ∧ Apart priv area ∧ Apart priv control ∧ Apart audio ring ∧ Apart audio area ∧
    Apart audio control ∧ Apart ring area ∧ Apart ring control ∧ Apart area control

/-- No slot is FILLING. -/
def SlotManager.Unfilled (m : SlotManager) : Prop := ∀ k last : Nat, m.table[k]? ≠ some (FrameSlot.filling last)

/-- A REGION with this private area base is not refused BUSY (R7 step 3). -/
def Part.RegionFree (privBase : Nat) (p : Part) : Prop :=
  p.slots.Unfilled ∧ p.slots.enc.slot = none ∧ p.slots.vf.slot = none ∧ p.recd.ring.queue = [] ∧
  (p.recd.card.recState = .idle ∨ p.recd.card.recState = .standby) ∧
  (privBase = p.map.privBase ∨ (p.recd.card.state ≠ .mounting ∧ p.recd.card.state ≠ .formatting))

/-! ### The link port -/

/-- The link port hands on a beat of its oldest transaction (R1): the address, and the beat written, none for a READ. -/
def HandsOn (p : Part) (a : Nat) (w : Option WriteBeat) : Prop :=
  p.phase ≠ .stalled ∧ p.link.request = none ∧
    ∃ t ts, p.link.held = t :: ts ∧ a = t.addr + 32 * t.next ∧ t.isWrite = w.isSome ∧
      ∀ b, w = some b → t.beats[t.next]? = some b

/-- A LINK request is granted next (R16). -/
def LinkIsNext (p : Part) (r : LinkReq) : Prop :=
  p.link.request = some r ∧
    (p.lastGrant = .part ∨ (p.lastGrant = .card ∧ p.bus.partQ = []) ∨
      (p.lastGrant = .link ∧ p.bus.partQ = [] ∧ p.recd.card.request = none))

/-- The oldest PART request is granted next (R16), and it is this one. -/
def PartIsNext (p : Part) (r : PartReq) : Prop :=
  p.bus.partQ.head? = some r ∧
    (p.lastGrant = .card ∨ (p.lastGrant = .link ∧ p.recd.card.request = none) ∨
      (p.lastGrant = .part ∧ p.link.request = none ∧ p.recd.card.request = none))

/-- The CARD request is granted next (R16), and it is this one. -/
def CardIsNext (p : Part) (r : CardReq) : Prop :=
  p.recd.card.request = some r ∧
    (p.lastGrant = .link ∨ (p.lastGrant = .part ∧ p.link.request = none) ∨
      (p.lastGrant = .card ∧ p.bus.partQ = [] ∧ p.link.request = none))

/-! ### The card engine -/

/-- The card engine does nothing by itself: no clip is open, and it has no directory WRITE and no mount command ready. -/
def CardEngine.Quiet (c : CardEngine) : Prop := c.clip = none ∧ c.dirJobs = [] ∧ c.mountCmd = none

/-- The card engine does nothing by itself while this clip is open: a card command is in flight, and a CARD request waits where
bytes could be asked for (R128, R133, R146), or the closing WRITE at the front has its data (R152). -/
def CardEngine.Waits (c : CardEngine) (k : OpenClip) : Prop :=
  c.clip = some k ∧ c.inFlight ≠ none ∧
  (((c.recState = .recording ∨ c.recState = .stopping) ∧ k.live = true ∧ c.request ≠ none) ∨
    (c.recState = .closing ∧ (c.request ≠ none ∨ ∃ d ds, c.dirJobs = d :: ds ∧ 512 * d.count ≤ d.data.length)))

/-- An event leaves the card engine to nothing else: no clip is open, or it waits with one. -/
def CardEngine.Rests (c : CardEngine) : Prop := c.Quiet ∨ ∃ k, c.Waits k

/-! ### What every step keeps -/

/-- An accumulator lies within its limit, and is 0 in a mode that forms no crop (R56, R58). -/
def StabAxis.Bounded (mode : StabMode) (a : StabAxis) : Prop :=
  a.acc.natAbs ≤ a.lim ∧ (mode = .off ∨ mode = .calibrating → a.acc = 0)

/-- Both accumulators do. -/
def Stabiliser.Bounded (s : Stabiliser) : Prop := s.yaw.Bounded s.mode ∧ s.pitch.Bounded s.mode

/-- A slot is complete. -/
def SlotManager.IsComplete (m : SlotManager) (k : Nat) : Prop := ∃ f, m.table[k]? = some (FrameSlot.complete f)

/-- The laws of the slot table (R37): at most one slot is FILLING, the free order lists the FREE slots and the completion
order the complete ones, each once, and a reader is attached to a complete slot only. -/
structure SlotManager.Laws (m : SlotManager) : Prop where
  oneFilling : ∀ i j a b : Nat,
    m.table[i]? = some (FrameSlot.filling a) → m.table[j]? = some (FrameSlot.filling b) → i = j
  freeOnce : m.freeOrder.Nodup
  free : ∀ k, k ∈ m.freeOrder ↔ m.table[k]? = some FrameSlot.free
  completeOnce : m.completion.Nodup
  complete : ∀ k, k ∈ m.completion ↔ m.IsComplete k
  enc : ∀ k, m.enc.slot = some k → m.IsComplete k
  vf : ∀ k, m.vf.slot = some k → m.IsComplete k

/-- The slot table has the size the region map gives it, at least 3, and obeys its laws (R5, R37). -/
def Part.SlotsSound (p : Part) : Prop := p.slots.table.length = p.map.slotCount ∧ 3 ≤ p.map.slotCount ∧ p.slots.Laws

/-- A clip is open exactly in RECORDING, STOPPING and CLOSING (R137, R144, R152). -/
def CardEngine.ClipSound (c : CardEngine) : Prop :=
  c.clip ≠ none ↔ c.recState = .recording ∨ c.recState = .stopping ∨ c.recState = .closing

/-- Every complete slot's crop lies within the margins, its dx even (R42, R64, R65); MX is even (section 1.3). -/
def Part.CropsSound (p : Part) : Prop :=
  p.map.mx % 2 = 0 ∧ ∀ (k : Nat) (f : CompleteFrame), p.slots.table[k]? = some (FrameSlot.complete f) →
    f.dx % 2 = 0 ∧ f.dx.natAbs ≤ p.map.mx ∧ f.dy.natAbs ≤ p.map.my

/-- The link port holds at most 16 transactions, and a sender waits only while it holds 16 (R1). -/
def LinkPort.Bounded (l : LinkPort) : Prop := l.held.length ≤ 16 ∧ (l.waiting ≠ [] → l.held.length = 16)

end Sys2Proof.Machine
end

