-- ==== Sys2Proof/Certificates/Slice0/Obligations.lean ====
section
/-! DEFINITION. The statements for the provers, from the numbered rules of spec/: start-up and resets, the link, the
arbiter and the command unit, the host commands, the events, and what every step keeps. -/

open Sys2Proof Sys2Proof.Machine

/-! ### The queue, resets and start-up -/

/-- A step takes the command at the front of the queue and runs it on the state with the queue's rest; with an empty queue
the part idles. The queue and its idling are the model's own (log 1, log 2). -/
def Obligations.StepRunsTheFrontCommand : Prop :=
  (∀ (c : Instr) (rest : List Instr) (s : State), step { s with pending := c :: rest } = exec c { s with pending := rest }) ∧
  ∀ s : State, s.pending = [] → step s = .next s

/-- POWER_ON and PIN_RESET give every block the reset values of its own rule and start the stall; PIN_RESET keeps memory.
The model's own choices among what is stated: POWER_ON empties memory, whose contents the spec leaves undefined (log 4); the
request of a beat in hand is dropped with its transaction (log 31); the transactions that a sender still holds arrive behind the
reset, up to sixteen (log 21). The values of the fields not listed are the model's too (log 40). -/
def Obligations.ResetsTakeTheResetValues : Prop :=
  ∀ (pins : Pins) (s : State), ∀ row ∈ [(Instr.powerOn pins, ResetCause.powerOn), (Instr.pinReset pins, ResetCause.pin)],
    ∃ t, exec row.1 s = .next t ∧
      t.mem = (if row.2 = .pin then s.mem else []) ∧
      t.part.phase = .stalled ∧ t.part.map.AtReset pins.strap1 pins.strap0 ∧ t.part.bus.AtReset row.2 ∧
      t.part.link.request = none ∧ t.part.link.held = s.part.link.waiting.take 16 ∧
      t.part.link.waiting = s.part.link.waiting.drop 16 ∧ t.part.lastGrant = .part ∧
      t.part.slots.AtReset ∧ t.part.stab.AtReset ∧ t.part.lens.AtReset ∧ t.part.recd.AtReset ∧
      (∀ n : ChannelNo, t.part.audio[n].AtReset) ∧
      t.part.overlay.columns = 48 ∧ t.part.overlay.rows = 27 ∧ t.part.overlay.zebra = false ∧ t.part.overlay.level = 235 ∧
      t.part.overlay.palette = #v[⟨235, 128, 128⟩, ⟨81, 90, 240⟩, ⟨210, 16, 146⟩, ⟨145, 54, 34⟩] ∧
      (∀ row ∈ t.part.overlay.host, ∀ cell ∈ row, cell.glyph = 0) ∧ (∀ i : Fin 9, t.part.overlay.fields[i].enabled = false)

/-- The end of the stall requests start-up steps 2 to 4 in order: the zeroing of the private area (around the control block
in the conflict state that the straps 1,1 give), the sixteen outcome words, the status record and the factor record. That the
outcome words are zeroed in slot order is the model's choice (log 75). -/
def Obligations.FrameMemoryReadyRequestsTheStartUpWrites : Prop :=
  ∀ s : State, s.part.phase = .stalled → s.part.bus.partQ = [] →
    ∀ runs : List PartReq,
      ((s.part.map.conflict = false ∧ runs = [.zero s.part.map.privBase 1024]) ∨
        (s.part.map.conflict = true ∧ s.part.map.controlBase = 0x0FFFF800 ∧ s.part.map.privBase = 0x0FFC0000 ∧
          runs = [.zero 0x0FFC0000 1016])) →
      exec .frameMemoryReady s = .next (s.onPart fun p =>
        { p with
          phase := .zeroing
          bus := { p.bus with partQ := runs ++ allSlots.map PartReq.zeroOutcome ++ [.status, .factor] } })

/-- INIT_DONE: the factor is raised, the init state becomes RUNNING, a status record write is requested, a held mount begins
outside the conflict state, and slots 0 to 15 are checked in that order, each whose shadow shows a kind: none, the one that
does, or all that do. What a check of a slot does is stated with the command beats. Which of the mount and the checks comes first is free
(log 28). -/
def Obligations.InitDoneRaisesTheFactorAndChecksTheSlots : Prop :=
  ∀ s : State, s.part.phase = .recordsWritten →
    let q : Part := { s.part with phase := .running, bus := (s.part.bus.raise .initDone).requestStatus }
    let mount (p : Part) : Part := if p.map.conflict then p else p.heldMount
    ((∀ k : CmdSlot, s.part.bus.cmd.kind k = 0) → exec .initDone s = .next { s with part := mount q }) ∧
    (∀ k : CmdSlot, s.part.bus.cmd.kind k ≠ 0 → (∀ j : CmdSlot, j ≠ k → s.part.bus.cmd.kind j = 0) →
      ∃ r, exec .initDone s = .next { s with part := r } ∧ (r = (mount q).checkSlot k ∨ r = mount (q.checkSlot k))) ∧
    let checks (p : Part) : Part :=
      allSlots.foldl (fun p k => if s.part.bus.cmd.kind k = 0 then p else p.checkSlot k) p
    ∃ r, exec .initDone s = .next { s with part := r } ∧ (r = checks (mount q) ∨ r = mount (checks q))

/-- A row whose event cannot occur in a state changes nothing there (the model's choice, log 10): start-up rows outside
their phase; beat rows while no beat is handed on, or while the beat handed on is of another kind; and the grant rows of a class
that has no request or is not the next to be granted. -/
def Obligations.RowsThatCannotOccurChangeNothing : Prop :=
  ∀ s : State,
    (s.part.phase ≠ .stalled → exec .frameMemoryReady s = .next s) ∧
    (s.part.phase ≠ .recordsWritten → exec .initDone s = .next s) ∧
    ((s.part.phase = .stalled ∨ s.part.link.request ≠ none ∨ s.part.link.held = []) →
      ∀ c ∈ [Instr.physicalBeat, .audioRingWrite, .privateAreaWrite, .holeBeat, .captureWrite, .viewRead],
        exec c s = .next s) ∧
    (∀ (a : Nat) (w : Option WriteBeat), HandsOn s.part a w →
      let m := s.part.map
      let window := a < 0x10000000
      let control := m.controlBase ≤ a ∧ a < m.controlBase + 0x800
      let priv := ¬control ∧ m.privBase ≤ a ∧ a < m.privBase + 0x40000
      let audio := ¬control ∧ ¬(m.privBase ≤ a ∧ a < m.privBase + 0x40000) ∧ m.audioBase ≤ a ∧ a < m.audioBase + m.audioSize
      let capture := 0x10000000 ≤ a ∧ a < 0x14000000
      let view := 0x14000000 ≤ a ∧ a < 0x1C000000
      (¬window ∨ (w ≠ none ∧ (priv ∨ audio)) → exec .physicalBeat s = .next s) ∧
      (¬window ∨ w = none ∨ ¬audio → exec .audioRingWrite s = .next s) ∧
      (¬window ∨ w = none ∨ ¬priv → exec .privateAreaWrite s = .next s) ∧
      (window ∨ (capture ∧ w ≠ none) ∨ (view ∧ w = none) → exec .holeBeat s = .next s) ∧
      (¬capture ∨ w = none → exec .captureWrite s = .next s) ∧
      (¬view ∨ w ≠ none → exec .viewRead s = .next s)) ∧
    (s.part.link.request = none → exec .linkRequestGrant s = .next s) ∧
    (s.part.recd.card.request = none → exec .cardRequestGrant s = .next s) ∧
    (s.part.bus.partQ = [] → exec .partRequestGrant s = .next s) ∧
    ((∀ r, ¬LinkIsNext s.part r) → exec .linkRequestGrant s = .next s) ∧
    ((∀ r, ¬CardIsNext s.part r) → exec .cardRequestGrant s = .next s) ∧
    ((∀ r, ¬PartIsNext s.part r) → exec .partRequestGrant s = .next s)

/-! ### The link -/

/-- LINK_TRANSACTION: a READ or WRITE of 1 to 8 beats is held, newest last, its address rounded down to a multiple of 32,
while the port holds fewer than 16; with 16 held the sender keeps it waiting. -/
def Obligations.TransactionsAreHeldUpToSixteen : Prop :=
  ∀ (addr : BitVec 30) (op : LinkOp) (s : State), s.part.link.waiting = [] ∨ s.part.link.held.length = 16 →
    s.part.link.held.length ≤ 16 →
    (1 ≤ op.beatCount → op.beatCount ≤ 8 →
      ∃ x : LinkTxn, x.addr = addr.toNat - addr.toNat % 32 ∧ x.count = op.beatCount ∧ x.next = 0 ∧ x.results = [] ∧
        x.error = false ∧ x.offered = false ∧
        (∀ n, op = .read n → x.isWrite = false ∧ x.beats = []) ∧ (∀ bs, op = .write bs → x.isWrite = true ∧ x.beats = bs) ∧
        exec (.linkTransaction addr op) s = .next (s.onPart fun p =>
          { p with
            link := if p.link.held.length < 16 then { p.link with held := p.link.held ++ [x] }
              else { p.link with waiting := p.link.waiting ++ [x] } })) ∧
    (op.beatCount = 0 ∨ 8 < op.beatCount → exec (.linkTransaction addr op) s = .refused .illFormed)

/-- PHYSICAL_BEAT: a beat of plain memory, the slot area, the control block or the record ring, and a READ of the private
area or the audio ring, becomes one LINK request at its own address, its data and enables unchanged, with the block that is
to watch it. -/
def Obligations.PhysicalBeatsRequestTheirOwnAddress : Prop :=
  ∀ (s : State) (a : Nat), a < 0x10000000 →
    let m := s.part.map
    let control := m.controlBase ≤ a ∧ a < m.controlBase + 0x800
    let priv := m.privBase ≤ a ∧ a < m.privBase + 0x40000
    let audio := m.audioBase ≤ a ∧ a < m.audioBase + m.audioSize
    let ring := m.ringBase ≤ a ∧ a < m.ringBase + m.ringSize
    (∀ b : WriteBeat, HandsOn s.part a (some b) → control ∨ (¬priv ∧ ¬audio) →
      exec .physicalBeat s = .next (s.onPart fun p =>
        { p with
          link := { p.link with
            request := some (.write a b.data.toList b.enables.toList
              (if control ∧ a < m.controlBase + 0x400 then .command (a - m.controlBase)
                else if ¬control ∧ ring then .ring (a - m.ringBase)
                else .unwatched)) } })) ∧
    (HandsOn s.part a none →
      exec .physicalBeat s = .next (s.onPart fun p =>
        { p with
          link := { p.link with
            request := some (.read a (if control ∧ m.controlBase + 0x400 ≤ a then some (a - m.controlBase) else none)) } }))

/-- AUDIO_RING_WRITE: the beat becomes one LINK request at its own address with its own enables; a word that it covers holds
its sample limited by its channel, in address order, and a word that it does not cover is as written. -/
def Obligations.AudioBeatsCarryTheLimitedSamples : Prop :=
  ∀ (s : State) (a : Nat) (b : WriteBeat), HandsOn s.part a (some b) → a < 0x10000000 →
    let m := s.part.map
    ¬(m.controlBase ≤ a ∧ a < m.controlBase + 0x800) → ¬(m.privBase ≤ a ∧ a < m.privBase + 0x40000) →
    m.audioBase ≤ a → a < m.audioBase + m.audioSize →
    let r := Sys2Proof.Machine.audioBeat s.part.audio (a - m.audioBase) b.data.toList b.enables.toList
    let q : Part := { s.part with audio := r.channels }
    let q : Part := if r.overload then q.overload else q
    exec .audioRingWrite s = .next { s with part :=
      { q with link := { q.link with request := some (.write a r.bytes b.enables.toList .unwatched) } } } ∧
    r.bytes.length = 32 ∧
    ∀ w < 8,
      (coversAt b.enables.toList (4 * w) 4 = false →
        ∀ j < 4, r.bytes[4 * w + j]? = b.data.toList[4 * w + j]?) ∧
      (coversAt b.enables.toList (4 * w) 4 = true →
        r.bytes[4 * w]? = some 0 ∧
        (s.part.audio[channelAt (a - m.audioBase + 4 * w)].enable = true →
          s.part.audio[channelAt (a - m.audioBase + 4 * w)].threshold ≤ 8388607 →
          (sampleOf ((r.bytes.drop (4 * w)).take 4)).natAbs ≤ s.part.audio[channelAt (a - m.audioBase + 4 * w)].threshold) ∧
        (s.part.audio[channelAt (a - m.audioBase + 4 * w)].enable = false →
          ∀ j < 3, r.bytes[4 * w + 1 + j]? = b.data.toList[4 * w + 1 + j]?) ∧
        (overloaded (sampleOf ((b.data.toList.drop (4 * w)).take 4)) = true →
          r.overload = true ∧ r.channels[channelAt (a - m.audioBase + 4 * w)].overSet = true))

/-- PRIVATE_AREA_WRITE: a WRITE beat in the private area makes no memory access, raises PRIVATE_WRITE and marks its transaction
ERROR, whatever its enables; a READ beat there goes to memory unchanged. HOLE_BEAT: a hole beat makes no memory access and
marks its transaction ERROR; as a WRITE it raises ADDRESS_HOLE, as a READ it returns 32 bytes of zero and raises nothing. A
WRITE in a view alias is a hole write, a READ of the capture alias a hole read, and an address above 0x3FFF_FFFF a hole
beat. -/
def Obligations.RefusedAndHoleBeatsReachNoMemory : Prop :=
  (∀ (s : State) (a : Nat) (b : WriteBeat), HandsOn s.part a (some b) → a < 0x10000000 →
    let m := s.part.map
    ¬(m.controlBase ≤ a ∧ a < m.controlBase + 0x800) → m.privBase ≤ a → a < m.privBase + 0x40000 →
    exec .privateAreaWrite s = .next (s.onPart fun p =>
      { p with bus := p.bus.raise .privateWrite, link := p.link.endBeat none true }) ∧
    (s.part.bus.raise .privateWrite).report.pending = s.part.bus.report.pending ||| Factor.privateWrite.bit) ∧
  (∀ (s : State) (a : Nat), HandsOn s.part a none → a < 0x10000000 →
    let m := s.part.map
    ¬(m.controlBase ≤ a ∧ a < m.controlBase + 0x800) → m.privBase ≤ a → a < m.privBase + 0x40000 →
    exec .physicalBeat s = .next (s.onPart fun p => { p with link := { p.link with request := some (.read a none) } })) ∧
  (∀ (s : State) (a : Nat),
    (∀ b : WriteBeat, HandsOn s.part a (some b) → 0x14000000 ≤ a →
      exec .holeBeat s = .next (s.onPart fun p =>
        { p with bus := p.bus.raise .addressHole, link := p.link.endBeat none true }) ∧
      (s.part.bus.raise .addressHole).report.pending = s.part.bus.report.pending ||| Factor.addressHole.bit) ∧
    (HandsOn s.part a none → (0x10000000 ≤ a ∧ a < 0x14000000) ∨ 0x1C000000 ≤ a →
      exec .holeBeat s = .next (s.onPart fun p =>
        { p with link := p.link.endBeat (some (List.replicate 32 0)) true })))

/-- CAPTURE_WRITE. At a frame start with a FREE slot the oldest becomes FILLING at line 0 and the beat becomes one LINK
request at that slot's base plus its offset, data and enables unchanged; there no slot is FILLING and the beat touches line 0
alone. The FRAME mark handed there finds no move that waits, or releases one axis's WAITING move on it: the axis starts toward
its target, through a dwell where it reverses, or ends the move DONE where it stands there (that a started axis stays at its
position until its first step is the model's choice, log 11; here no move waits on the other axis). Beyond the frame's end the
beat is dropped and CAPTURE_SPILL raised; inside the frame, where it touches no byte of line 0 or the FILLING slot's last line
is 0, it is redirected into the FILLING slot, whose last line becomes the highest line touched, or dropped without error where
no slot is FILLING. At a frame start with a slot FILLING past line 0 that slot is torn: it becomes the newest FREE slot, the
torn-frame counter advances and FRAME_TORN is raised before the oldest FREE slot is claimed. With no FREE slot the oldest
READY slot is claimed and its frame released: unshown where no reader saw it, and an encoder skip where the encoder reader,
attached elsewhere while RECORDING, did not. -/
def Obligations.CaptureBeatsAreRedirectedOrDropped : Prop :=
  (∀ (s : State) (o : Nat) (b : WriteBeat) (k : Nat) (rest : List Nat), HandsOn s.part (0x10000000 + o) (some b) →
    o < 0x4000000 → o + 32 ≤ s.part.map.cw * 2 → 0 < s.part.map.ch → (∃ i < 32, b.enables.toList[i]? = some true) →
    s.part.slots.Unfilled → s.part.slots.freeOrder = k :: rest → s.part.slots.table[k]? = some FrameSlot.free → k ∉ rest →
    k ∉ s.part.slots.completion →
    let claimed (asked : List Out) (l : Lens) : Prop := exec .captureWrite s = .next (s.onPart fun p =>
      { p with
        bus := p.bus.meetAll asked
        lens := l
        slots := { p.slots with table := p.slots.table.set k (.filling 0), freeOrder := rest }
        link := { p.link with
          request := some (.write (p.map.slotAt k + o) b.data.toList b.enables.toList (.capture k o)) } })
    (s.part.lens.zoom.pendingMove = none → s.part.lens.focus.pendingMove = none → claimed [] s.part.lens) ∧
    ∀ (n : AxisName) (m : PendingMove),
      let ax := s.part.lens.axis n
      let pos := ax.pos.getD 0
      let d : Dir := if pos < m.target then .up else .down
      ax.state = .waiting → ax.pendingMove = some m → m.cond = .onMark .frame →
      (s.part.lens.axis (otherAxis n)).pendingMove = none →
      let held : StepAxis := { ax with holder := some (.host m.slot), pendingMove := none }
      (m.target ≠ pos →
        (ax.dir ≠ none ∧ ax.dir ≠ some d ∧ 0 < ax.dwell → claimed [] (s.part.lens.setAxis n
          { held with state := .dwell, goal := .moveTo m.target, ownCap := m.cap, motionDir := d })) ∧
        (ax.dir = none ∨ ax.dir = some d ∨ ax.dwell = 0 →
          let a : StepAxis :=
            { held with
              state := .moving
              goal := .moveTo m.target
              ownCap := m.cap
              motionDir := d
              k := 0
              speed := ax.vStart
              homing := none }
          claimed [] (s.part.lens.setAxis n { a with phase := if 0 < a.capIndex then .accel else .cruise }))) ∧
      (m.target = pos → s.part.lens.coord.suspended = false →
        claimed [.raise (match n with
          | .zoom => .zoomDone
          | .focus => .focusDone), .finish m.slot .done 0]
          (s.part.lens.setAxis n { ax.rest .idle with holder := none, pendingMove := none }))) ∧
  (∀ (s : State) (o : Nat) (b : WriteBeat), HandsOn s.part (0x10000000 + o) (some b) → o < 0x4000000 → 0 < s.part.map.cw →
    (s.part.map.cw * s.part.map.ch * 2 ≤ o →
      exec .captureWrite s = .next (s.onPart fun p =>
        { p with bus := p.bus.raise .captureSpill, link := p.link.endBeat none false })) ∧
    (o < s.part.map.cw * s.part.map.ch * 2 →
      let offLine0 : Prop := ∀ i < 32, b.enables.toList[i]? = some true → s.part.map.cw * 2 ≤ o + i
      (offLine0 → s.part.slots.Unfilled →
        exec .captureWrite s = .next (s.onPart fun p => { p with link := p.link.endBeat none false })) ∧
      ∀ k last : Nat, (∀ j < k, ∀ n : Nat, s.part.slots.table[j]? ≠ some (FrameSlot.filling n)) →
        s.part.slots.table[k]? = some (FrameSlot.filling last) → offLine0 ∨ last = 0 →
        (∃ last' : Nat, exec .captureWrite s = .next (s.onPart fun p =>
          { p with
            slots := { p.slots with table := p.slots.table.set k (.filling last') }
            link := { p.link with
              request := some (.write (p.map.slotAt k + o) b.data.toList b.enables.toList (.capture k o)) } }) ∧
          last ≤ last' ∧
          (∀ i < 32, b.enables.toList[i]? = some true → o + i < s.part.map.cw * s.part.map.ch * 2 →
            (o + i) / (s.part.map.cw * 2) ≤ last') ∧
          (last' = last ∨ ∃ i < 32, b.enables.toList[i]? = some true ∧ last' = (o + i) / (s.part.map.cw * 2))))) ∧
  (∀ (s : State) (o : Nat) (b : WriteBeat) (k last : Nat), HandsOn s.part (0x10000000 + o) (some b) →
    o < 0x4000000 → o + 32 ≤ s.part.map.cw * 2 → 0 < s.part.map.ch → (∃ i < 32, b.enables.toList[i]? = some true) →
    s.part.slots.Laws → s.part.slots.table[k]? = some (FrameSlot.filling last) → 0 < last →
    s.part.lens.zoom.pendingMove = none → s.part.lens.focus.pendingMove = none →
    let j := (s.part.slots.freeOrder ++ [k]).headD k
    exec .captureWrite s = .next (s.onPart fun p =>
      { p with
        bus := p.bus.raise .frameTorn
        slots := { p.slots with
          table := (p.slots.table.set k .free).set j (.filling 0)
          freeOrder := (p.slots.freeOrder ++ [k]).drop 1
          torn := min 4294967295 (p.slots.torn + 1) }
        link := { p.link with
          request := some (.write (p.map.slotAt j + o) b.data.toList b.enables.toList (.capture j o)) } })) ∧
  (∀ (s : State) (o : Nat) (b : WriteBeat) (k : Nat) (f : CompleteFrame) (before after : List Nat),
    HandsOn s.part (0x10000000 + o) (some b) → o < 0x4000000 → o + 32 ≤ s.part.map.cw * 2 → 0 < s.part.map.ch →
    (∃ i < 32, b.enables.toList[i]? = some true) → s.part.slots.Laws → s.part.slots.Unfilled →
    s.part.slots.freeOrder = [] → s.part.slots.completion = before ++ k :: after →
    (∀ i ∈ before, s.part.slots.enc.slot = some i ∨ s.part.slots.vf.slot = some i) →
    s.part.slots.enc.slot ≠ some k → s.part.slots.vf.slot ≠ some k →
    s.part.slots.table[k]? = some (FrameSlot.complete f) →
    s.part.lens.zoom.pendingMove = none → s.part.lens.focus.pendingMove = none →
    let claimed (skips : Nat) (p : Part) : Part :=
      { p with
        slots := { p.slots with
          table := p.slots.table.set k (.filling 0)
          completion := before ++ after
          unshown := if f.seenEnc = true ∨ f.seenVf = true then p.slots.unshown else min 4294967295 (p.slots.unshown + 1)
          skips := skips }
        link := { p.link with
          request := some (.write (p.map.slotAt k + o) b.data.toList b.enables.toList (.capture k o)) } }
    (f.seenEnc = true ∨ s.part.slots.enc.slot = none ∨ s.part.recd.card.recState ≠ .recording →
      exec .captureWrite s = .next (s.onPart (claimed s.part.slots.skips))) ∧
    ∀ c : OpenClip, f.seenEnc = false → s.part.slots.enc.slot ≠ none → s.part.recd.card.recState = .recording →
      s.part.recd.card.Waits c →
      exec .captureWrite s = .next (s.onPart fun p =>
        { claimed (min 4294967295 (p.slots.skips + 1)) p with
          bus := p.bus.raise .encSkip
          recd := { p.recd with card := { p.recd.card with
            clip := some { c with flags := { c.flags with skipped := true }, skipped := c.skipped + 1 } } } }))

/-- VIEW_READ: beyond the view frame a beat returns 32 bytes of zero; where the reader keeps its slot, the beat becomes one
LINK request for the bytes at the source, moved by the margins and the slot's crop. -/
def Obligations.ViewBeatsReadThroughTheCrop : Prop :=
  ∀ (s : State) (r : Reader) (o : Nat), o < 0x4000000 →
    let m := s.part.map
    let base := match r with
      | .enc => 0x14000000
      | .vf => 0x18000000
    let y := o / (m.vw * 2)
    let x := o % (m.vw * 2) / 2
    HandsOn s.part (base + o) none →
    (m.vh ≤ y →
      exec .viewRead s = .next (s.onPart fun p =>
        { p with
          slots := p.slots.setReader r { p.slots.reader r with lastLine := y }
          link := p.link.endBeat (some (List.replicate 32 0)) false })) ∧
    ∀ (k : Nat) (f : CompleteFrame), y < m.vh → (s.part.slots.reader r).slot = some k →
      s.part.slots.table[k]? = some (FrameSlot.complete f) → y ≠ 0 ∨ (s.part.slots.reader r).lastLine = 0 →
      exec .viewRead s = .next (s.onPart fun p =>
        { p with
          slots := p.slots.setReader r { p.slots.reader r with lastLine := y }
          link := { p.link with
            request := some (.view r
              ((m.slotAt k : Int) + ((y : Int) + m.my + f.dy) * (m.cw * 2) + ((x : Int) + m.mx + f.dx) * 2).toNat y x) } })

/-- VIEW_READ at a latch (line 0, the reader on no slot or past line 0 since its last latch): the reader leaves its old slot,
which becomes FREE unless the other reader is on it or it is the newest complete slot; it attaches to the newest complete slot
and is marked in its seen set; the beat becomes one LINK request for the bytes at the source in that slot, through the margins
and its crop; at a VF latch the frame count advances and the overlay unit takes its snapshot; with no complete slot a beat
returns black, which for the viewfinder passes through the overlay unit. A granted view beat returns the bytes at its source,
the viewfinder's as the overlay unit draws them from its snapshot: glyph, zebra and shade decide each luma, and the left
pixel's mask bit the chroma. The live layer that a snapshot copies is that of the last refresh: exactly the cells of the enabled
fields, each from its place rightward. -/
def Obligations.LatchesAttachTheNewestFrame : Prop :=
  (∀ (s : State) (r : Reader) (o : Nat), o < 0x4000000 →
    let m := s.part.map
    let base := match r with
      | .enc => 0x14000000
      | .vf => 0x18000000
    let other : Reader := match r with
      | .enc => .vf
      | .vf => .enc
    let old := s.part.slots
    let newest := old.completion.getLast?
    HandsOn s.part (base + o) none → o < m.vw * 2 → 0 < m.vh → old.Laws →
    (old.reader r).slot = none ∨ (old.reader r).lastLine ≠ 0 →
    ∃ t, exec .viewRead s = .next t ∧ t.mem = s.mem ∧
      (t.part.slots.reader r).lastLine = 0 ∧ (t.part.slots.reader r).slot = newest ∧
      t.part.slots.reader other = old.reader other ∧
      t.part.slots.frameCounter = old.frameCounter ∧ t.part.slots.torn = old.torn ∧
      t.part.slots.unshown = old.unshown ∧ t.part.slots.skips = old.skips ∧
      t.part.slots.vfFrames = (match r with
        | .enc => old.vfFrames
        | .vf => (old.vfFrames + 1) % 4294967296) ∧
      (∀ j : Nat, (old.reader r).slot = some j → newest ≠ some j → (old.reader other).slot ≠ some j →
        t.part.slots.table[j]? = some FrameSlot.free ∧ t.part.slots.freeOrder = old.freeOrder ++ [j] ∧
        t.part.slots.completion = old.completion.filter (· ≠ j)) ∧
      ((∀ j : Nat, (old.reader r).slot = some j → newest = some j ∨ (old.reader other).slot = some j) →
        t.part.slots.freeOrder = old.freeOrder ∧ t.part.slots.completion = old.completion ∧
        ∀ i : Nat, newest ≠ some i → t.part.slots.table[i]? = old.table[i]?) ∧
      (∀ i : Nat, newest ≠ some i → (old.reader r).slot ≠ some i → t.part.slots.table[i]? = old.table[i]?) ∧
      t.part.overlay = (match r with
        | .enc => s.part.overlay
        | .vf => { s.part.overlay with
            snapshot := ⟨s.part.overlay.host, s.part.overlay.live, s.part.overlay.palette, s.part.overlay.zebra,
              s.part.overlay.level, (old.vfFrames + 1) % 4294967296⟩ }) ∧
      t.part = { s.part with slots := t.part.slots, overlay := t.part.overlay, link := t.part.link } ∧
      (newest = none →
        t.part.slots.table = old.table ∧
        t.part.link = s.part.link.endBeat (some (match r with
          | .enc => blackBeat
          | .vf => t.part.overlay.draw (o / 2) 0 blackBeat)) false) ∧
      ∀ (k : Nat) (f : CompleteFrame), newest = some k → old.table[k]? = some (FrameSlot.complete f) →
        t.part.slots.table[k]? = some (FrameSlot.complete (match r with
          | .enc => { f with seenEnc := true }
          | .vf => { f with seenVf := true })) ∧
        t.part.link = { s.part.link with
          request := some (.view r
            ((m.slotAt k : Int) + ((m.my : Int) + f.dy) * (m.cw * 2) + (((o / 2 : Nat) : Int) + m.mx + f.dx) * 2).toNat
            0 (o / 2)) }) ∧
  (∀ (s : State) (r : Reader) (a y x : Nat), LinkIsNext s.part (.view r a y x) →
    let source := (List.range 32).map fun i => s.mem.read (a + i)
    exec .linkRequestGrant s = .next (s.onPart fun p =>
      { p with
        link := LinkPort.endBeat (some (match r with
          | .enc => source
          | .vf => p.overlay.draw x y source)) false { p.link with request := none }
        lastGrant := .link })) ∧
  (∀ (o : Overlay) (x y i : Nat) (data : List Byte), x % 2 = 0 → i < 8 → data.length = 32 →
    let w := o.snapshot
    let px := x + 2 * i
    let drawnTo := o.draw x y data
    let c : CellContent :=
      if px / 40 < o.columns ∧ y / 40 < o.rows then
        match w.live.find? (fun l => decide (l.row = y / 40 ∧ l.column = px / 40)) with
        | some l => l.content
        | none => cellAt w.host (y / 40) (px / 40)
      else ⟨0, 0, false, false⟩
    let drawn : Prop := c.glyph ≠ 0 ∧ (c.blink = false ∨ w.vfFrames / 16 % 2 = 0)
    let ink : Colour := (w.palette[c.palette]?).getD ⟨0, 0, 0⟩
    let mask (u : Nat) : Prop := glyphBit c.glyph (y % 40) (u % 40) = true
    drawnTo.length = 32 ∧
    (∀ side < 2,
      let u := px + side
      let l := data.getD (4 * i + 2 * side) 0
      let l' := drawnTo.getD (4 * i + 2 * side) 0
      let marked : Prop := w.zebra = true ∧ w.level ≤ l.toNat ∧ ((u + y) / 4 + w.vfFrames / 4) % 2 = 0
      (drawn → mask u → l' = ink.y) ∧ (¬(drawn ∧ mask u) → marked → l' = 16) ∧
      (drawn → ¬mask u → ¬marked → c.shade = true → l' = BitVec.ofNat 8 (l.toNat / 2)) ∧
      (¬(drawn ∧ mask u) → ¬marked → drawn ∧ c.shade = true ∨ l' = l)) ∧
    (drawn ∧ mask px → drawnTo.getD (4 * i + 1) 0 = ink.cb ∧ drawnTo.getD (4 * i + 3) 0 = ink.cr) ∧
    (¬(drawn ∧ mask px) → drawnTo.getD (4 * i + 1) 0 = data.getD (4 * i + 1) 0 ∧
      drawnTo.getD (4 * i + 3) 0 = data.getD (4 * i + 3) 0)) ∧
  ∀ (v : LiveValues) (o : Overlay) (l : LiveCell),
    l ∈ (o.refresh v).live ↔ ∃ i : Fin 9, o.fields[i].enabled = true ∧ l.row = o.fields[i].row ∧
      ∃ j < [11, 4, 12, 12, 12, 12, 12, 4, 2].getD i.val 0,
        l.column = o.fields[i].column + j ∧ (v.field i.val)[j]? = some l.content

/-! ### The arbiter and the records -/

/-- A granted LINK request reads or writes memory at that grant, and the beat is done: a write changes exactly the enabled
bytes, and nothing else in the part changes where no block watches it, where it goes to a captured frame without writing the last
byte of a FILLING slot, or where it goes to the record ring away from the write front and touches no entry, or touches only entries
that are OVERWRITTEN already; a front beat that covers no length word, or leaves the length 0, changes only the front shadow besides;
here the card engine has nothing to do by itself. A read returns the bytes that memory holds; the response of a transaction is returned after its last beat, in the
order of arrival, ERROR where a beat was in error. -/
def Obligations.LinkGrantsReadAndWriteMemory : Prop :=
  (∀ (s : State) (a : Nat) (data : List Byte) (enables : List Bool) (w : WriteWatch),
    LinkIsNext s.part (.write a data enables w) →
    let m := s.part.recd.ring
    let written (q : RingMonitor) : Prop := ∃ t, exec .linkRequestGrant s = .next t ∧ t.pending = s.pending ∧
      t.part = { s.part with
        recd := { s.part.recd with ring := q }
        link := LinkPort.endBeat none false { s.part.link with request := none }
        lastGrant := .link } ∧
      (s.mem.wf = true → enables.length = data.length → ∀ x, t.mem.read x =
        if a ≤ x ∧ x < a + data.length ∧ enables.getD (x - a) false = true then data.getD (x - a) 0 else s.mem.read x)
    (w = .unwatched → written m) ∧
    (∀ k offset, w = .capture k offset → 0 < s.part.map.cw * s.part.map.ch →
      ¬((∃ last, s.part.slots.table[k]? = some (FrameSlot.filling last)) ∧
        ∃ i, offset + i + 1 = s.part.map.cw * s.part.map.ch * 2 ∧ enables[i]? = some true) → written m) ∧
    ∀ offset, w = .ring offset → s.part.recd.card.Rests →
      let hit (e : QueueEntry) : Prop := e.touched s.part.map.ringSize offset enables = true
      ((∀ e ∈ m.queue, ¬hit e) → offset ≠ m.writeFront → written m) ∧
      ((∃ e ∈ m.queue, hit e) → (∀ e ∈ m.retainedRun, ¬hit e) → (∀ e ∈ m.queue, hit e → e.overwritten = true) → written m) ∧
      ((∀ e ∈ m.queue, ¬hit e) → offset = m.writeFront →
        data.length = 32 → enables.length = 32 → m.shadow.length = 32 →
        ∀ front : List Byte, front.length = 32 →
          (∀ i < 32, front.getD i 0 = if enables.getD i false = true then data.getD i 0 else m.shadow.getD i 0) →
          ((∃ i ∈ [8, 9, 10, 11], enables.getD i false = false) ∨ leNat ((front.drop 8).take 4) = 0) →
          written { m with shadow := front })) ∧
  (∀ (s : State) (a : Nat), LinkIsNext s.part (.read a none) →
    exec .linkRequestGrant s = .next (s.onPart fun p =>
      { p with
        link := LinkPort.endBeat (some ((List.range 32).map fun i => s.mem.read (a + i))) false
          { p.link with request := none }
        lastGrant := .link })) ∧
  ∀ (l : LinkPort) (x : LinkTxn) (xs : List LinkTxn) (data : Option (List Byte)) (error : Bool), l.held = x :: xs →
    (x.next + 1 < x.count → l.endBeat data error =
      { l with held :=
          { x with
            next := x.next + 1
            results := x.results ++ data.toList
            error := x.error || error } :: xs }) ∧
    (x.count ≤ x.next + 1 → l.endBeat data error =
      { l with
        held := xs ++ l.waiting.take (16 - xs.length)
        waiting := l.waiting.drop (16 - xs.length)
        response := some ⟨x.isWrite, x.results ++ data.toList, x.error || error⟩ })

/-- A granted READ of the status record removes from the changed-group set the flags that it returned, and requests a new
status record if one was set; a granted READ of the factor record in ON_READ removes from the pending set the factors that it
returned, and in ON_ACK none. -/
def Obligations.ReadsOfTheRecordsClearWhatTheyReturned : Prop :=
  ∀ (s : State) (a : Nat),
    let word (i n : Nat) : Nat := leNat ((List.range n).map fun k => s.mem.read (a + i + k))
    let done (b : Bus) : Host.Outcome State Fault Refusal := .next (s.onPart fun p =>
      { p with
        bus := b
        link := LinkPort.endBeat (some ((List.range 32).map fun i => s.mem.read (a + i))) false
          { p.link with request := none }
        lastGrant := .link })
    let r := s.part.bus.report
    (LinkIsNext s.part (.read a (some 0x400)) →
      let left := r.groups.clear (word 8 4)
      (left = r.groups → exec .linkRequestGrant s = done s.part.bus) ∧
      (left ≠ r.groups →
        exec .linkRequestGrant s = done (Bus.requestStatus { s.part.bus with report := { r with groups := left } }))) ∧
    (LinkIsNext s.part (.read a (some 0x500)) →
      (r.clearMode = .onAck → exec .linkRequestGrant s = done s.part.bus) ∧
      (r.clearMode = .onRead → exec .linkRequestGrant s =
        done (s.part.bus.setPending (r.pending &&& ~~~(BitVec.ofNat 32 (word 0 4))))))

/-- A granted beat of the command area reaches the shadow and memory. A beat that covers word 0 with a kind other than zero
offers a command; the slot is checked at the transaction's last beat in it, and a beat that offers nothing checks nothing. That
the check is made within the same LINK grant is the model's choice (log 7). The check of a slot reads the sixteen words that the
slot's shadow holds, each least significant byte first, and is the command that they spell; words of a kind with no command assigned
to it are not checked before INIT_DONE, collide while the slot's last outcome is PENDING, and are otherwise taken and refused
UNKNOWN_KIND under that kind with the next use count. -/
def Obligations.CommandBeatsOfferAndCheck : Prop :=
  (∀ (s : State) (a k half : Nat) (data : List Byte) (enables : List Bool) (x : LinkTxn) (xs : List LinkTxn), k < 16 →
    half < 2 → LinkIsNext s.part (.write a data enables (.command (64 * k + 32 * half))) → s.part.link.held = x :: xs →
    let slot : CmdSlot := Fin.ofNat 16 k
    let shadow := s.part.bus.cmd.shadow.writeMasked (64 * k + 32 * half) data enables
    let copied (offered : Bool) : Part :=
      { s.part with
        bus := { s.part.bus with cmd := { s.part.bus.cmd with shadow := shadow } }
        link := { s.part.link with request := none, held := { x with offered := offered } :: xs }
        lastGrant := .link }
    let done (q : Part) : Host.Outcome State Fault Refusal :=
      .next { s with part := q.endBeat none false, mem := s.mem.writeMasked a data enables }
    let covers := coversAt enables 0 4 = true ∧ shadow.read (64 * k) ≠ 0
    (half = 0 → covers → x.count ≤ x.next + 1 → exec .linkRequestGrant s = done ((copied false).checkSlot slot)) ∧
    (half = 0 → covers → x.next + 1 < x.count → exec .linkRequestGrant s = done (copied true)) ∧
    (half = 0 → ¬covers → exec .linkRequestGrant s = done (copied false)) ∧
    (half = 1 → x.offered = true → exec .linkRequestGrant s = done ((copied false).checkSlot slot)) ∧
    (half = 1 → x.offered = false → exec .linkRequestGrant s = done (copied false))) ∧
  ∀ (s : State) (slot : CmdSlot),
    let w := s.part.bus.cmd.words slot
    let byte (i : Nat) : Byte := s.part.bus.cmd.shadow.read (64 * slot.val + i)
    let r := s.part.bus.cmd.slots[slot]
    (∀ i : Fin 16, w[i].toNat = leNat ((List.range 4).map fun j => byte (4 * i.val + j))) ∧
    (∀ c : Instr, decodeSlot slot w = some c → exec c s = .next (s.onPart (Part.checkSlot slot))) ∧
    (decodeSlot slot w = none →
      (s.part.phase ≠ .running → s.part.checkSlot slot = s.part) ∧
      (s.part.phase = .running → r.last = .pending →
        s.part.checkSlot slot = { s.part with bus := s.part.bus.raise .slotCollision }) ∧
      (s.part.phase = .running → r.last ≠ .pending → s.part.checkSlot slot = { s.part with
        bus := { s.part.bus with
          cmd := { s.part.bus.cmd with slots := s.part.bus.cmd.slots.set slot ⟨.unknownKind, r.uses + 1, byte 0⟩ }
          partQ := s.part.bus.partQ ++ [.outcome slot .unknownKind 0 (r.uses + 1) (byte 0) 0] } }))

/-- The grant of a beat that writes the frame's last byte into the FILLING slot: the frame counter advances, the slot becomes
READY with the captured zoom position and the stabiliser's crop, every other READY slot becomes FREE, and the timecode unit,
the audio path, the ring monitor and the iris act. Here no clip is open and the card engine has nothing to do by itself. The
timecode unit's action: the free timecode goes on by one frame in FREE_RUN and stands in RECORD_RUN, and the log, of at most 32
entries, takes the frame's number, timecode and rate. Counting by one frame adds one to the frames since midnight, modulo a
day; at 29.97 DF the first two frame numbers of each minute not divisible by ten are passed over. The iris's action: the duty moves
toward the target by at most the step, and not past it. The ring monitor's: the average moves by a sixteenth of its distance from
the bytes of this frame, rounded toward zero, and those bytes become 0. The audio path's: a channel's peak p, of bit length b and
with h the bit below its highest, stands for segment max(0, 2b + h - 23), 0 for p 0; a segment at or above the held one becomes
it, with hold count 25 and fall count 0; under a lower one the hold count falls to 0, and then every second frame the held segment
falls by 1, not below the segment; the peak becomes 0. -/
def Obligations.FrameCompleteActs : Prop :=
  (∀ (s : State) (a k o last : Nat) (data : List Byte) (enables : List Bool),
    LinkIsNext s.part (.write a data enables (.capture k o)) → s.part.slots.table[k]? = some (FrameSlot.filling last) →
    0 < s.part.map.cw * s.part.map.ch →
    (∃ i < 32, o + i + 1 = s.part.map.cw * s.part.map.ch * 2 ∧ enables[i]? = some true) →
    s.part.slots.Laws → s.part.recd.card.Quiet →
    let c := s.part.stab.frame s.part.map.mx s.part.map.my s.part.lens.coord.table s.part.lens.zoom.pos
    let n := (s.part.slots.frameCounter + 1) % 4294967296
    ∃ t, exec .linkRequestGrant s = .next t ∧ t.mem = s.mem.writeMasked a data enables ∧
      t.part.slots.frameCounter = n ∧ t.part.stab = c.stab ∧
      t.part.slots.table[k]? = some (FrameSlot.complete ⟨n, c.dx, c.dy, s.part.lens.zoom.pos, false, false⟩) ∧
      t.part.slots.completion = (s.part.slots.completion.filter fun i => s.part.slots.attached i) ++ [k] ∧
      (∀ i : Nat, i ∈ s.part.slots.completion → s.part.slots.attached i = false →
        t.part.slots.table[i]? = some FrameSlot.free) ∧
      (∀ i : Nat, i ≠ k → (i ∉ s.part.slots.completion ∨ s.part.slots.attached i = true) →
        t.part.slots.table[i]? = s.part.slots.table[i]?) ∧
      t.part.slots.freeOrder =
        s.part.slots.freeOrder ++ s.part.slots.completion.filter (fun i => !s.part.slots.attached i) ∧
      t.part.slots.enc = s.part.slots.enc ∧ t.part.slots.vf = s.part.slots.vf ∧ t.part.slots.torn = s.part.slots.torn ∧
      t.part.recd.tc = s.part.recd.tc.frame n ∧ (∀ i : ChannelNo, t.part.audio[i] = s.part.audio[i].frame) ∧
      t.part.recd.ring = s.part.recd.ring.frame ∧ t.part.lens = { s.part.lens with iris := s.part.lens.iris.frame } ∧
      PartReq.status ∈ t.part.bus.partQ ∧ t.part.map = s.part.map ∧
      (c.panned = true → t.part.bus.report.pending &&& Factor.pan.bit ≠ 0)) ∧
  (∀ (n : Nat) (t : TimecodeUnit),
    let now := match t.mode with
      | .freeRun => t.current.increment t.rate
      | .recordRun => t.current
    (t.frame n).current = now ∧ (t.frame n).recordRun = t.recordRun ∧ (t.frame n).mode = t.mode ∧
    (t.frame n).rate = t.rate ∧ (t.frame n).log.getLast? = some ⟨n, now, t.rate⟩ ∧
    (t.frame n).log = t.log.drop (if t.log.length < 32 then 0 else 1) ++ [⟨n, now, t.rate⟩]) ∧
  (∀ (r : TcRate) (t : Timecode), t.valid r = true →
    let fps := match r with
      | .fps25 => 25
      | .fps30 | .df2997 => 30
    let v (b : Bcd) : Nat := b.tens * 10 + b.units
    let frames (t : Timecode) : Nat := ((v t.hh * 60 + v t.mm) * 60 + v t.ss) * fps + v t.ff
    let passed := if r = .df2997 ∧ v t.ss = 59 ∧ v t.ff = 29 ∧ (v t.mm + 1) % 10 ≠ 0 then 2 else 0
    (t.increment r).valid r = true ∧ frames (t.increment r) = (frames t + 1 + passed) % (86400 * fps)) ∧
  (∀ i : Iris,
    (i.frame.target = i.target ∧ i.frame.step = i.step ∧ i.frame.loaded = i.loaded) ∧
    (i.duty < i.target → i.frame.duty = min i.target (i.duty + i.step)) ∧
    (i.target < i.duty → (i.frame.duty : Int) = max (i.target : Int) ((i.duty : Int) - i.step)) ∧
    (i.duty = i.target → i.frame.duty = i.target)) ∧
  (∀ m : RingMonitor,
    m.frame = { m with rBpf := m.frame.rBpf, frameBytes := 0 } ∧
    (m.frame.rBpf : Int) = m.rBpf + Int.tdiv ((m.frameBytes : Int) - m.rBpf) 16) ∧
  ∀ (c : Channel) (sg b h : Nat),
    (c.peak = 0 → sg = 0) →
    (c.peak ≠ 0 → 2 ^ b ≤ 2 * c.peak ∧ c.peak < 2 ^ b ∧ h = (if b = 1 then 0 else c.peak / 2 ^ (b - 2) % 2) ∧
      sg = 2 * b + h - 23) →
    segment c.peak = sg ∧
    c.frame =
      (if c.held ≤ sg then { c with peak := 0, held := sg, holdCount := 25, fallCount := 0 }
      else if 0 < c.holdCount then { c with peak := 0, holdCount := c.holdCount - 1 }
      else if c.fallCount = 0 then { c with peak := 0, fallCount := 1 }
      else { c with peak := 0, held := max sg (c.held - 1), fallCount := 0 })

/-- A granted front beat with a sound header of a chunk that fits, while no recording is running: a VIDEO_KEY, or a chunk
behind a RETAINED entry, is queued RETAINED with the free stamp of its frame; any other chunk is passed over; the write front
moves past the span. Where the depth is exceeded, the oldest RETAINED GOPs are trimmed until it is not, and no longer; where a
VIDEO_KEY's span does not fit behind a queue that is RETAINED throughout, the oldest GOPs are trimmed until it fits, and no longer.
Here the card engine has nothing to do by itself. A header of bad form or,
with joined entries at the queue's front, a span that does not fit raises CHUNK_REJECT and leaves the write front; for want of
space while RECORDING it also sets GAP. With 256 entries and none RETAINED a VIDEO_KEY is dropped with QUEUE_FULL. In RECORDING
a chunk that fits joins, its stamp formed and its stamp write requested: in FREE_RUN its free stamp, in RECORD_RUN the record-run
counter, which a VIDEO chunk takes and moves on, or the last value taken; in ARMED a VIDEO_KEY opens the clip and ends the start
DONE. A beat that writes into a joined entry for the first time marks it OVERWRITTEN and raises RING_OVERRUN, with GAP; where the
entry is JOINED its stamp write still to be granted carries OVERWRITTEN from then on; a STAMPED entry becomes JOINED again, with a new
stamp write of the words of its first, and a CARD request for chunk bytes is withdrawn (the model's choice, log 20). One that writes into RETAINED entries alone silently trims them and every older GOP. -/
def Obligations.ChunksArePublished : Prop :=
  (∀ (s : State) (a : Nat) (data : List Byte) (enables : List Bool) (kind : ChunkKind) (length frame : Nat),
    let m := s.part.recd.ring
    let R := s.part.map.ringSize
    let span := 32 + (length + 31) / 32 * 32
    LinkIsNext s.part (.write a data enables (.ring m.writeFront)) → s.part.recd.card.Quiet →
    (s.part.recd.card.recState = .idle ∨ s.part.recd.card.recState = .standby) →
    data.length = 32 → enables = List.replicate 32 true → m.shadow.length = 32 →
    leNat (data.take 4) = 0x5A574348 → ((data.drop 4).headD 0).toNat = (match kind with
      | .videoKey => 1
      | .videoDelta => 2
      | .audio => 3
      | .metadata => 4) →
    leNat ((data.drop 8).take 4) = length → 0 < length → length ≤ 4194272 → leNat ((data.drop 12).take 4) = frame →
    (∀ e ∈ m.queue, e.touched R m.writeFront enables = false) → span ≤ m.freeSpace R → m.queue.length < 256 →
    let moved (q : RingMonitor) : RingMonitor :=
      { q with
        writeFront := (m.writeFront + span) % R
        shadow := List.replicate 32 0
        frameBytes := m.frameBytes + span }
    let done (q : RingMonitor) : Host.Outcome State Fault Refusal :=
      .next { s with
        part := { s.part with
          recd := { s.part.recd with ring := q }
          link := LinkPort.endBeat none false { s.part.link with request := none }
          lastGrant := .link }
        mem := s.mem.writeMasked a data enables }
    let entry : QueueEntry :=
      { number := m.nextEntry
        offset := m.writeFront
        length := length
        span := span
        kind := kind
        frame := frame
        freeStamp := (s.part.recd.tc.lookup frame).1
        estimated := (s.part.recd.tc.lookup frame).2
        stamp := none
        state := .retained
        overwritten := false
        stampsWaiting := 0
        units := [] }
    let frames := m.videoFrames + (if kind = .videoKey ∨ kind = .videoDelta then 1 else 0)
    (kind = .videoKey ∨ m.hasRetained = true →
      (frames ≤ m.depth → exec .linkRequestGrant s = done (moved { m with
        queue := m.queue ++ [entry]
        nextEntry := m.nextEntry + 1 })) ∧
      (m.depth < frames → (∀ e ∈ m.retainedRun, e.state = .retained) →
        ∃ r kept, exec .linkRequestGrant s = done r ∧ r.queue = m.joinedRun ++ kept ∧
          kept <:+ m.retainedRun ++ [entry] ∧ r.videoFrames ≤ m.depth ∧ (∀ e q, kept = e :: q → e.kind = .videoKey) ∧
          (∀ e q, e :: q <:+ m.retainedRun ++ [entry] → e.kind = .videoKey → kept.length < (e :: q).length →
            m.depth < (e :: q).countP fun x => x.kind = .videoKey ∨ x.kind = .videoDelta) ∧
          r.writeFront = (m.writeFront + span) % R ∧ r.depth = m.depth ∧ r.nextEntry = m.nextEntry + 1)) ∧
    (kind ≠ .videoKey → m.hasRetained = false → m.queue ≠ [] → exec .linkRequestGrant s = done (moved m)) ∧
    (kind ≠ .videoKey → m.queue = [] → exec .linkRequestGrant s =
      done (moved { m with releaseFront := (m.writeFront + span) % R, drainAhead := 0 }))) ∧
  (∀ (s : State) (a : Nat) (data : List Byte),
    let m := s.part.recd.ring
    let c := s.part.recd.card
    let R := s.part.map.ringSize
    let enables := List.replicate 32 true
    LinkIsNext s.part (.write a data enables (.ring m.writeFront)) → data.length = 32 → m.shadow.length = 32 →
    (∀ e ∈ m.queue, e.touched R m.writeFront enables = false) →
    let marker := leNat (data.take 4)
    let kind := ((data.drop 4).headD 0).toNat
    let length := leNat ((data.drop 8).take 4)
    let frame := leNat ((data.drop 12).take 4)
    let span := 32 + (length + 31) / 32 * 32
    let sound : Prop := marker = 0x5A574348 ∧ 1 ≤ kind ∧ kind ≤ 4 ∧ length ≤ 4194272
    0 < length →
    let granted (p : Part) : Part :=
      { p with link := LinkPort.endBeat none false { p.link with request := none }, lastGrant := .link }
    let done (b : Bus) (r : RingMonitor) (k : Option OpenClip) : Host.Outcome State Fault Refusal := .next { s with
      part := granted { s.part with bus := b, recd := { s.part.recd with ring := r, card := { c with clip := k } } }
      mem := s.mem.writeMasked a data enables }
    let gapped := c.clip.map fun k => { k with flags := { k.flags with gap := true } }
    let moved (q : RingMonitor) : RingMonitor :=
      { q with
        writeFront := (m.writeFront + span) % R
        shadow := List.replicate 32 0
        frameBytes := m.frameBytes + span }
    (c.Rests → ¬sound →
      exec .linkRequestGrant s = done (s.part.bus.raise .chunkReject) { m with shadow := data } c.clip) ∧
    (c.Rests → sound → m.freeSpace R < span → (∃ e q, m.queue = e :: q ∧ e.state ≠ .retained) →
      exec .linkRequestGrant s = done (s.part.bus.raise .chunkReject) { m with shadow := data }
        (if c.recState = .recording then gapped else c.clip)) ∧
    (c.Quiet → sound → span ≤ m.freeSpace R → 256 ≤ m.queue.length → m.hasRetained = false → kind = 1 →
      c.recState = .idle ∨ c.recState = .standby →
      exec .linkRequestGrant s = done (s.part.bus.raise .queueFull)
        (moved { m with drops := min 4294967295 (m.drops + 1) }) none) ∧
    (∀ (k : OpenClip) (kd : ChunkKind), c.Waits k → c.recState = .recording → sound → span ≤ m.freeSpace R →
      m.queue.length < 256 → (∀ e ∈ m.queue, e.number ≠ m.nextEntry) → s.part.recd.tc.mode = .freeRun →
      (kind = 1 ∧ kd = .videoKey) ∨ (kind = 2 ∧ kd = .videoDelta) ∨ (kind = 3 ∧ kd = .audio) ∨ (kind = 4 ∧ kd = .metadata) →
      let free := s.part.recd.tc.lookup frame
      let words : Word := BitVec.ofNat 32 free.1.toNat
      exec .linkRequestGrant s = done
        (s.part.bus.request (.stamp m.nextEntry (s.part.map.ringBase + m.writeFront) words s.part.recd.tc.rateMode free.2 false))
        (moved { m with
          queue := m.queue ++ [{
            number := m.nextEntry
            offset := m.writeFront
            length := length
            span := span
            kind := kd
            frame := frame
            freeStamp := free.1
            estimated := free.2
            stamp := some ⟨words, s.part.recd.tc.rateMode, free.2⟩
            state := .joined
            overwritten := false
            stampsWaiting := 1
            units := [] }]
          nextEntry := m.nextEntry + 1 })
        (some k)) ∧
    (∀ (k : OpenClip) (kd : ChunkKind), c.Waits k → c.recState = .recording → sound → span ≤ m.freeSpace R →
      m.queue.length < 256 → (∀ e ∈ m.queue, e.number ≠ m.nextEntry) → s.part.recd.tc.mode = .recordRun →
      (kind = 1 ∧ kd = .videoKey) ∨ (kind = 2 ∧ kd = .videoDelta) ∨ (kind = 3 ∧ kd = .audio) ∨ (kind = 4 ∧ kd = .metadata) →
      let tc := s.part.recd.tc
      let free := tc.lookup frame
      let video : Bool := decide (kind ≤ 2)
      let words : Word := BitVec.ofNat 32 (if video then tc.recordRun else m.lastVideo.getD tc.recordRun).toNat
      exec .linkRequestGrant s = .next { s with
        part := granted { s.part with
          bus := s.part.bus.request
            (.stamp m.nextEntry (s.part.map.ringBase + m.writeFront) words tc.rateMode false false)
          recd := { s.part.recd with
            tc := if video then { tc with recordRun := tc.recordRun.increment tc.rate } else tc
            ring := moved { m with
              queue := m.queue ++ [{
                number := m.nextEntry
                offset := m.writeFront
                length := length
                span := span
                kind := kd
                frame := frame
                freeStamp := free.1
                estimated := free.2
                stamp := some ⟨words, tc.rateMode, false⟩
                state := .joined
                overwritten := false
                stampsWaiting := 1
                units := [] }]
              nextEntry := m.nextEntry + 1
              lastVideo := if video then some tc.recordRun else m.lastVideo } } }
        mem := s.mem.writeMasked a data enables }) ∧
    (c.recState = .armed → c.clip = none → sound → kind = 1 → span ≤ m.freeSpace R → m.queue.length < 256 →
      ∃ t, exec .linkRequestGrant s = .next t ∧ t.part.recd.card.recState = .recording ∧ t.part.recd.card.clip ≠ none ∧
        t.part.recd.card.startSlot = none ∧ t.part.bus.report.pending &&& Factor.recStarted.bit ≠ 0 ∧
        t.part.recd.ring.queue.length = m.queue.length + 1 ∧ t.part.recd.ring.writeFront = (m.writeFront + span) % R ∧
        ∀ k : CmdSlot, c.startSlot = some k → t.part.bus.cmd.slots[k].last = .done)) ∧
  (∀ (s : State) (a : Nat) (data : List Byte),
    let m := s.part.recd.ring
    let R := s.part.map.ringSize
    let enables := List.replicate 32 true
    let length := leNat ((data.drop 8).take 4)
    let span := 32 + (length + 31) / 32 * 32
    LinkIsNext s.part (.write a data enables (.ring m.writeFront)) → s.part.recd.card.Quiet →
    s.part.recd.card.recState = .idle ∨ s.part.recd.card.recState = .standby → data.length = 32 → m.shadow.length = 32 →
    leNat (data.take 4) = 0x5A574348 → ((data.drop 4).headD 0).toNat = 1 → 0 < length → length ≤ 4194272 → span ≤ R →
    (∀ e ∈ m.queue, e.touched R m.writeFront enables = false ∧ e.state = .retained) → m.queue ≠ [] →
    m.queue.length ≤ 256 → m.freeSpace R < span → m.videoFrames + 1 ≤ m.depth →
    let room (e : QueueEntry) : Nat := (e.offset + R - m.writeFront) % R
    ∃ t kept, exec .linkRequestGrant s = .next t ∧ t.mem = s.mem.writeMasked a data enables ∧
      t.part = { s.part with
        recd := { s.part.recd with ring := t.part.recd.ring }
        link := LinkPort.endBeat none false { s.part.link with request := none }
        lastGrant := .link } ∧
      kept <:+ m.queue ∧ kept.length < m.queue.length ∧
      (∀ e q, kept = e :: q → e.kind = .videoKey ∧ span ≤ room e ∧ t.part.recd.ring.releaseFront = e.offset) ∧
      (kept = [] → t.part.recd.ring.releaseFront = m.writeFront) ∧
      (∀ e q, e :: q <:+ m.queue → e.kind = .videoKey → kept.length < (e :: q).length → (e :: q).length < m.queue.length →
        room e < span) ∧
      t.part.recd.ring.queue = kept ++ [{
        number := m.nextEntry
        offset := m.writeFront
        length := length
        span := span
        kind := .videoKey
        frame := leNat ((data.drop 12).take 4)
        freeStamp := (s.part.recd.tc.lookup (leNat ((data.drop 12).take 4))).1
        estimated := (s.part.recd.tc.lookup (leNat ((data.drop 12).take 4))).2
        stamp := none
        state := .retained
        overwritten := false
        stampsWaiting := 0
        units := [] }] ∧
      t.part.recd.ring.writeFront = (m.writeFront + span) % R ∧ t.part.recd.ring.frameBytes = m.frameBytes + span ∧
      t.part.recd.ring.drops = m.drops ∧ t.part.recd.ring.depth = m.depth) ∧
  (∀ (s : State) (a offset : Nat) (data : List Byte) (enables : List Bool),
    let m := s.part.recd.ring
    let c := s.part.recd.card
    let hit (e : QueueEntry) : Prop := e.touched s.part.map.ringSize offset enables = true
    LinkIsNext s.part (.write a data enables (.ring offset)) → c.Rests → (∀ e ∈ m.retainedRun, e.state = .retained) →
    let done (b : Bus) (r : RingMonitor) (k : Option OpenClip) : Host.Outcome State Fault Refusal := .next { s with
      part := { s.part with
        bus := b
        recd := { s.part.recd with ring := r, card := { c with clip := k } }
        link := LinkPort.endBeat none false { s.part.link with request := none }
        lastGrant := .link }
      mem := s.mem.writeMasked a data enables }
    (∀ e ∈ m.joinedRun, e.state ≠ .stamped → e.overwritten = false → hit e → m.queue.Nodup →
      (∀ x ∈ m.queue, hit x ∨ x.number = e.number → x = e) →
      let raised := s.part.bus.raise .ringOverrun
      exec .linkRequestGrant s = done
        (if e.state = .joined then { raised with
          partQ := raised.partQ.map fun r => match r with
            | .stamp n b tc rm est ov => .stamp n b tc rm est (ov || decide (n = e.number))
            | r => r } else raised)
        { m with
          queue := m.queue.map fun x => if x = e then { e with overwritten := true } else x
          overruns := min 4294967295 (m.overruns + 1) }
        (c.clip.map fun k => { k with flags := { k.flags with gap := true } })) ∧
    (∀ e ∈ m.joinedRun, ∀ (w : Stamp) (k : OpenClip), e.state = .stamped → e.stamp = some w → e.overwritten = false → hit e →
      m.queue.Nodup → (∀ x ∈ m.queue, hit x ∨ x.number = e.number → x = e) → c.Waits k →
      (c.recState = .stopping → m.drainAhead < m.ahead s.part.map.ringSize e.offset + e.span) →
      ∃ t, exec .linkRequestGrant s = .next t ∧ t.mem = s.mem.writeMasked a data enables ∧
        t.part = { s.part with
          bus := (s.part.bus.raise .ringOverrun).request
            (.stamp e.number (s.part.map.ringBase + e.offset) w.timecode w.rateMode w.estimated true)
          recd := { s.part.recd with
            card := t.part.recd.card
            ring := { m with
              queue := m.queue.map fun x =>
                if x = e then { e with state := .joined, overwritten := true, stampsWaiting := e.stampsWaiting + 1 } else x
              overruns := min 4294967295 (m.overruns + 1) } }
          link := LinkPort.endBeat none false { s.part.link with request := none }
          lastGrant := .link } ∧
        t.part.recd.card.clip.map OpenClip.flags = some { k.flags with gap := true } ∧
        ((∀ b n, c.request ≠ some (.dir b n)) → c.dirJobs = [] → (∀ x ∈ m.queue, x ≠ e → x.readable = false) →
          t.part.recd.card.request = none)) ∧
    ((∀ e ∈ m.joinedRun, ¬hit e) → (∃ e ∈ m.retainedRun, hit e) →
      ∃ r kept, exec .linkRequestGrant s = done s.part.bus r c.clip ∧ r.queue = m.joinedRun ++ kept ∧
        kept <:+ m.retainedRun ∧ (∀ e ∈ kept, ¬hit e) ∧ (∀ e q, kept = e :: q → e.kind = .videoKey) ∧
        r.writeFront = m.writeFront ∧ r.overruns = m.overruns))

/-- The grant of a CARD request for chunk bytes moves them into its staging buffer and hands the ring monitor the read notice,
which moves the drain front; memory is not changed. The drain front then stands past the bytes read, at the first byte of the queue
not read yet where an entry still holds one; an entry whose bytes were read has the unit among its units, each unit once; and a
joined entry with no stamp write waiting is STAMPED, DRAINING or DRAINED as the drain front is at or before its start, inside it,
or past its end. The grant of one for mirror bytes gives the directory WRITE at the front the
bytes that the private area holds; the WRITE is issued once its data is complete. Here a second request follows where data is
still missing. That the next request and the WRITE follow within the same grant is the model's (log 23, log 46). -/
def Obligations.CardGrantsReadMemory : Prop :=
  (∀ (s : State) (a beats : Nat) (d : DirJob) (ds : List DirJob), CardIsNext s.part (.dir a beats) →
    s.part.recd.card.clip = none → s.part.recd.card.dirJobs = d :: ds → s.part.recd.card.mountCmd = none →
    s.part.recd.card.inFlight = none → s.part.recd.card.mirrorWrites = 0 →
    let bytes := (List.range (32 * beats)).map fun i => s.mem.read (a + i)
    let d' : DirJob := { d with data := d.data ++ bytes }
    (512 * d.count ≤ d.data.length + 32 * beats →
      exec .cardRequestGrant s = .next (s.onPart fun p =>
        { p with
          lastGrant := .card
          recd := { p.recd with card := { p.recd.card with
            request := none, dirJobs := d' :: ds, inFlight := some ⟨.writeDir d.first d.count, false⟩ } } })) ∧
    (d.data.length + 32 * beats < 512 * d.count →
      exec .cardRequestGrant s = .next (s.onPart fun p =>
        { p with
          lastGrant := .card
          recd := { p.recd with card := { p.recd.card with
            request := some (.dir (p.map.privBase + 512 * d.first + (d.data.length + 32 * beats))
              (min 8 ((512 * d.count - (d.data.length + 32 * beats)) / 32)))
            dirJobs := d' :: ds } } }))) ∧
  ∀ (s : State) (offset length unit : Nat) (n : BufName) (c : OpenClip), CardIsNext s.part (.chunk offset length unit n) →
    s.part.recd.card.clip = some c → c.live = true → s.part.recd.card.recState = .recording →
    ∃ t, exec .cardRequestGrant s = .next t ∧ t.mem = s.mem ∧ t.part.lastGrant = .card ∧
      t.part.recd.ring = s.part.recd.ring.readNotice s.part.map.ringSize offset length unit ∧
      ((t.part.recd.card.buffer n).data = (s.part.recd.card.buffer n).data ++
        (List.range length).map fun i => s.mem.read (s.part.map.ringBase + offset + i)) ∧
      (let m := s.part.recd.ring
      let r := t.part.recd.ring
      let R := s.part.map.ringSize
      let first := (offset + R - m.releaseFront) % R
      let start (e : QueueEntry) : Nat := (e.offset + R - m.releaseFront) % R
      first + length ≤ r.drainAhead ∧
      ((∀ e ∈ m.queue, start e + e.span ≤ first + length) → r.drainAhead = first + length) ∧
      (∀ (p q : List QueueEntry) (e : QueueEntry), m.queue = p ++ e :: q → (∀ x ∈ p, start x + x.span ≤ first + length) →
        first + length < start e + e.span → r.drainAhead = max (first + length) (start e)) ∧
      r.queue.length = m.queue.length ∧
      ∀ (i : Nat) (e : QueueEntry), m.queue[i]? = some e →
        r.queue[i]? = some { e with
          units := if (start e < first + length ∧ first < start e + e.span) ∧ ∀ u ∈ e.units, u.1 ≠ unit then
            e.units ++ [(unit, false)] else e.units
          state := if e.state = .retained ∨ 0 < e.stampsWaiting then e.state
            else if r.drainAhead ≤ start e then .stamped
            else if r.drainAhead < start e + e.span then .draining else .drained })

/-- The grant of an outcome write: the slot's word 1 in memory holds the code, the detail, the use count and the kind, CMD_DONE
is raised unless the outcome is PENDING, and the factors that an EVENT_ACK noted are then removed. The grant of a status record
write forms the record from what the owners hold, its fields at the manual's offsets in the manual's codes, sets the changed groups
and keeps the record as the image; that of a factor record write writes the pending set, the mask and the clear mode, and ends start-up step 4; that of a piece of a zeroing run
writes 256 zero bytes and keeps the rest of the run at the front; those of a start-up outcome word and of the last-clip record
write their bytes; a mirror write's bytes go up to the end of its eight beats, the rest staying at the front; that such a run and
such a write are one entry of the class, cut there and kept at its front, is the model's choice (log 22); a stamp write puts the
timecode words and the stamp flags into the header, and its entry becomes STAMPED; where the entry is gone, the stamp carries
OVERWRITTEN as its overruns marked it (log 44). The init state reads INITIALISING in the first record after a reset, where INIT_DONE
is not raised, and RUNNING in every other, the model's reading (log 43). The grant of a lens table load that a
RESTART has overtaken does nothing more; another is judged by the ten checks of R101: the first that fails ends the command FAILED
with its number; a sound table of the same travel replaces the one in force and ends it DONE; a first table also leaves both axes UNHOMED over
their whole range. -/
def Obligations.PartGrantsWriteTheRecords : Prop :=
  (∀ (s : State) (slot : CmdSlot) (code : OutcomeCode) (detail uses kind : Byte) (ack : Word),
    PartIsNext s.part (.outcome slot code detail uses kind ack) → s.part.bus.cmd.restart = none → code ≠ .noOutcome →
    ∃ t, exec .partRequestGrant s = .next t ∧
      t.mem = s.mem.writeBytes (s.part.map.controlBase + 64 * slot.val + 4)
        [BitVec.ofNat 8 code.number, detail, uses, kind] ∧
      (let raised := if code = .pending then s.part.bus else s.part.bus.raise .cmdDone;
        t.part = { s.part with
          lastGrant := .part
          bus := { raised.setPending (raised.report.pending &&& ~~~ack) with
            partQ := (raised.setPending (raised.report.pending &&& ~~~ack)).partQ.drop 1 } }) ∧
      (t.part.bus.report.pending =
        (if code = .pending then s.part.bus.report.pending else s.part.bus.report.pending ||| Factor.cmdDone.bit) &&& ~~~ack)) ∧
  (∀ s : State, s.part.bus.cmd.restart = none →
    let rest := s.part.bus.partQ.drop 1
    (PartIsNext s.part .status →
      let groups := s.part.bus.report.groups.compare (s.part.statusRecord s.part.bus.report.groups) s.part.bus.report.image
      let written := { s.part.statusRecord groups with groups := groups }
      exec .partRequestGrant s = .next { s with
        part := { s.part with
          lastGrant := .part
          bus := { s.part.bus with
            partQ := rest
            report := { s.part.bus.report with groups := groups, image := some written } } }
        mem := s.mem.writeBytes (s.part.map.controlBase + 0x400) written.bytes } ∧
      written.bytes.length = 256 ∧
      (let p := s.part
      let field (o n : Nat) : Nat := leNat ((written.bytes.drop o).take n)
      let axisCode (a : AxisState) : Nat := match a with
        | .unhomed => 0
        | .homing => 1
        | .idle => 2
        | .waiting => 3
        | .moving => 4
        | .dwell => 5
        | .fault => 6
      (field 0x00 2 = 0x0C64 ∧ field 0x02 1 = 1 ∧
        field 0x03 1 = (match p.bus.report.cause with
          | .powerOn => 1
          | .pin => 2
          | .restart => 3) ∧
        field 0x04 1 = (if p.phase = .running ∨ p.bus.report.image ≠ none then 1 else 0) ∧
        field 0x05 1 = (if p.map.conflict = true then 1 else 0) ∧
        field 0x08 4 = groups.lens.toNat + 2 * groups.stab.toNat + 4 * groups.recd.toNat + 8 * groups.card.toNat +
          16 * groups.audio.toNat + 32 * groups.frame.toNat) ∧
      (field 0x10 4 = p.slots.frameCounter % 2 ^ 32 ∧ field 0x14 4 = p.recd.tc.current.toNat % 2 ^ 32 ∧
        field 0x18 4 = p.slots.torn % 2 ^ 32 ∧ field 0x1C 4 = p.slots.skips % 2 ^ 32 ∧
        field 0x20 4 = p.slots.unshown % 2 ^ 32) ∧
      (field 0x24 1 = (match p.stab.mode with
          | .off => 0
          | .active => 1
          | .hold => 2
          | .calibrating => 3) ∧
        (∀ x ∈ [(0x25, p.stab.yaw), (0x26, p.stab.pitch)], field x.1 1 = (match x.2.panState with
          | .track => 0
          | .pan => 1)) ∧
        field 0x2C 2 = (p.stab.yaw.bias % 65536).toNat ∧ field 0x2E 2 = (p.stab.pitch.bias % 65536).toNat) ∧
      (∀ k f, p.slots.completion.getLast? = some k → p.slots.table[k]? = some (FrameSlot.complete f) →
        field 0x28 2 = (f.dx % 65536).toNat ∧ field 0x2A 2 = (f.dy % 65536).toNat) ∧
      (p.slots.completion = [] → field 0x28 4 = 0) ∧
      (field 0x30 2 = p.lens.zoom.pos.getD 0xFFFF % 65536 ∧ field 0x34 2 = p.lens.focus.pos.getD 0xFFFF % 65536 ∧
        field 0x32 1 = axisCode p.lens.zoom.state ∧ field 0x33 1 = axisCode p.lens.focus.state ∧
        field 0x36 2 = p.lens.iris.duty % 65536 ∧ field 0x38 1 = p.lens.coord.distance % 256) ∧
      (field 0x3C 1 = (match p.recd.card.recState with
          | .idle => 0
          | .standby => 1
          | .armed => 2
          | .recording => 3
          | .stopping => 4
          | .closing => 5) ∧
        field 0x3D 1 = (match p.recd.card.state with
          | .absent => 0
          | .mounting => 1
          | .unformatted => 2
          | .ready => 3
          | .writeProtected => 4
          | .full => 5
          | .formatting => 6
          | .fault => 7) ∧
        field 0x40 4 = p.recd.card.freeUnits % 2 ^ 32 ∧
        field 0x44 2 = min 999 (p.recd.card.freeUnits * 2097152 /
          (max p.recd.ring.rBpf 1 * (if p.recd.tc.rate = .fps25 then 25 else 30) * 60)) ∧
        field 0x3E 2 = p.recd.card.clipNumber % 2 ^ 16 ∧ field 0x48 4 = p.recd.ring.releaseFront % 2 ^ 32 ∧
        field 0x4C 4 = p.recd.ring.drops % 2 ^ 32 ∧ field 0x50 4 = p.recd.ring.overruns % 2 ^ 32 ∧
        field 0x54 4 = p.recd.card.retired % 2 ^ 32) ∧
      (∀ n : ChannelNo, field (0x58 + n.val) 1 = p.audio[n].held % 256 ∧
        (field 0x5C 1).testBit n.val = p.audio[n].overSet) ∧
      (∀ i ∈ [0x06, 0x07, 0x0C, 0x0D, 0x0E, 0x0F, 0x27, 0x39, 0x3A, 0x3B, 0x46, 0x47], written.bytes[i]? = some 0) ∧
      ∀ i < 163, written.bytes[0x5D + i]? = some 0)) ∧
    (PartIsNext s.part .factor →
      exec .partRequestGrant s = .next { s with
        part := { s.part with
          lastGrant := .part
          phase := if s.part.phase = .zeroing then .recordsWritten else s.part.phase
          bus := { s.part.bus with partQ := rest } }
        mem := s.mem.writeBytes (s.part.map.controlBase + 0x500)
          (leBytes 4 s.part.bus.report.pending.toNat ++ leBytes 4 s.part.bus.report.mask.toNat ++
            [if s.part.bus.report.clearMode = .onAck then 1 else 0] ++ List.replicate 23 0) }) ∧
    (∀ a pieces : Nat, PartIsNext s.part (.zero a pieces) →
      exec .partRequestGrant s = .next { s with
        part := { s.part with
          lastGrant := .part
          bus := { s.part.bus with partQ := if pieces ≤ 1 then rest else .zero (a + 256) (pieces - 1) :: rest } }
        mem := s.mem.writeBytes a (List.replicate 256 0) })) ∧
  (∀ (b : List Byte) (t : LensTable) (moves : Bool), t = LensTable.ofBytes b → b.length = 256 →
    let field (o : Nat) : Nat := leNat ((b.drop o).take 2)
    t.zr = field 0 ∧ t.fr = field 2 ∧ t.zoomHome = field 4 ∧ t.focusHome = field 6 ∧ t.points.length = 17 ∧
    (∀ i < 17, t.points[i]? = some ⟨field (0x10 + 8 * i), field (0x12 + 8 * i), field (0x14 + 8 * i), field (0x16 + 8 * i)⟩) ∧
    let z (i : Nat) : Nat := field (0x10 + 8 * i)
    let tests : List (Nat × Prop) :=
      [(1, 1 ≤ t.zr ∧ t.zr ≤ 60000), (2, 1 ≤ t.fr ∧ t.fr ≤ 60000), (3, t.zoomHome ≤ t.zr), (4, t.focusHome ≤ t.fr), (5, z 0 = 0),
        (6, ∀ i < 16, z i < z (i + 1)), (7, z 16 = t.zr), (8, ∀ i < 17, 1 ≤ field (0x12 + 8 * i)),
        (9, ∀ i < 17, field (0x14 + 8 * i) ≤ field (0x16 + 8 * i) ∧ field (0x16 + 8 * i) ≤ t.fr), (16, moves = false)]
    (∀ before after check test, tests = before ++ (check, test) :: after → (∀ x ∈ before, x.2) → ¬test →
      t.firstBad moves = some check) ∧
    ((∀ x ∈ tests, x.2) → t.firstBad moves = none)) ∧
  ∀ s : State, s.part.bus.cmd.restart = none →
    let rest := s.part.bus.partQ.drop 1
    let done (f : Part → Part) (mem : Memory) : Host.Outcome State Fault Refusal := .next { s with
      part := f { s.part with lastGrant := .part, bus := { s.part.bus with partQ := rest } }
      mem := mem }
    (∀ slot : CmdSlot, PartIsNext s.part (.zeroOutcome slot) →
      exec .partRequestGrant s =
        done id (s.mem.writeBytes (s.part.map.controlBase + 64 * slot.val + 4) (List.replicate 4 0))) ∧
    (∀ record : List Byte, PartIsNext s.part (.lastClip record) →
      exec .partRequestGrant s = done id (s.mem.writeBytes (s.part.map.controlBase + 0x540) record)) ∧
    (∀ (a : Nat) (bytes : List Byte), PartIsNext s.part (.mirror a bytes) →
      let n := 256 - a % 32
      (bytes.length ≤ n → s.part.recd.card.Rests →
        exec .partRequestGrant s = done (fun p =>
          { p with recd := { p.recd with card := { p.recd.card with mirrorWrites := p.recd.card.mirrorWrites - 1 } } })
          (s.mem.writeBytes a bytes)) ∧
      (n < bytes.length →
        exec .partRequestGrant s = done (fun p =>
          { p with bus := { p.bus with partQ := .mirror (a + n) (bytes.drop n) :: rest } })
          (s.mem.writeBytes a (bytes.take n)))) ∧
    (∀ (n a : Nat) (tc rm : Word) (est ov : Bool) (e : QueueEntry), PartIsNext s.part (.stamp n a tc rm est ov) →
      s.part.recd.card.Rests → e ∈ s.part.recd.ring.queue → e.number = n → e.state = .joined → e.stampsWaiting = 1 →
      (∀ x ∈ s.part.recd.ring.queue, x.number = n → x = e) →
      s.part.recd.ring.drainAhead ≤ s.part.recd.ring.ahead s.part.map.ringSize e.offset →
      exec .partRequestGrant s = done (fun p =>
        { p with recd := { p.recd with ring := { p.recd.ring with
          queue := p.recd.ring.queue.map fun x =>
            if x.number = n then { x with stampsWaiting := 0, state := .stamped } else x } } })
        (s.mem.writeBytes (a + 0x10)
          (leBytes 4 tc.toNat ++ leBytes 4 rm.toNat ++ leBytes 4 (est.toNat + 2 * e.overwritten.toNat)))) ∧
    (∀ (n a : Nat) (tc rm : Word) (est ov : Bool), PartIsNext s.part (.stamp n a tc rm est ov) → s.part.recd.card.Rests →
      (∀ x ∈ s.part.recd.ring.queue, x.number ≠ n) → exec .partRequestGrant s = done id (s.mem.writeBytes (a + 0x10)
        (leBytes 4 tc.toNat ++ leBytes 4 rm.toNat ++ leBytes 4 (est.toNat + 2 * ov.toNat)))) ∧
    (∀ a : Nat, PartIsNext s.part (.lensLoad a true) → exec .partRequestGrant s = done id s.mem) ∧
    (∀ (a b : Nat) (slot : CmdSlot), PartIsNext s.part (.lensLoad a false) → s.part.lens.coord.load = some ⟨b, slot⟩ →
      let t := LensTable.ofBytes ((List.range 256).map fun i => s.mem.read (a + i))
      let moves := s.part.lens.zoom.inMotion || s.part.lens.focus.inMotion
      (∀ check : Nat, t.firstBad moves = some check →
        exec .partRequestGrant s = done (fun p =>
          { p with
            bus := p.bus.finish slot .failed check
            lens := { p.lens with coord := { p.lens.coord with load := none } } }) s.mem) ∧
      (t.firstBad moves = none →
        (∀ u : LensTable, s.part.lens.coord.table = some u → u.zr = t.zr → u.fr = t.fr → u.zoomHome = t.zoomHome →
          u.focusHome = t.focusHome → s.part.lens.coord.tracking = false →
          exec .partRequestGrant s = done (fun p =>
            { p with
              bus := p.bus.finish slot .done 0
              lens := { p.lens with coord := { p.lens.coord with load := none, table := some t } } }) s.mem) ∧
        (s.part.lens.coord.table = none →
          ∃ v, exec .partRequestGrant s = .next v ∧ v.mem = s.mem ∧ v.part.lens.coord.table = some t ∧
            v.part.lens.coord.load = none ∧ v.part.bus.cmd.slots[slot].last = .done ∧
            ∀ n : AxisName, (v.part.lens.axis n).state = .unhomed ∧ (v.part.lens.axis n).pos = none ∧
              (v.part.lens.axis n).dir = none ∧ (v.part.lens.axis n).low = 0 ∧
              (v.part.lens.axis n).high = (match n with
                | .zoom => t.zr
                | .focus => t.fr) ∧
              (v.part.lens.axis n).holder = none ∧ (v.part.lens.axis n).pendingMove = none)))

/-! ### The command unit -/

/-- A slot is not checked before INIT_DONE; offered while its last outcome is PENDING a command collides; in the conflict
state every command but REGION, and during a RESTART every command, is refused NOT_READY and changes nothing but its slot. -/
def Obligations.CommandsOfferedTooSoonAreNotCarriedOut : Prop :=
  ∀ (c : Instr) (slot : CmdSlot) (w : SlotWords) (s : State), encodeSlot c = some (slot, w) →
    (s.part.phase ≠ .running → exec c s = .next s) ∧
    (s.part.phase = .running → s.part.bus.cmd.slots[slot].last = .pending →
      exec c s = .next (s.onPart fun p => { p with bus := p.bus.raise .slotCollision })) ∧
    (s.part.phase = .running → s.part.bus.cmd.slots[slot].last ≠ .pending →
      s.part.bus.cmd.restart ≠ none ∨ (s.part.map.conflict = true ∧ w.kind ≠ 0x01) →
      exec c s = .next (s.onPart (Part.takenOnly slot w.kind (.refuse .notReady))))

/-- Every command that is taken gets one outcome write under its kind and its slot's new use count; where the outcome is a
refusal, nothing else in the part changes. That the row of a command, offered in its slot, is the take itself is the model's choice
(log 6), and so is it that the outcome write is requested behind every other PART request of the take (log 59). -/
def Obligations.TakesAreAnsweredAndRefusalsChangeNothing : Prop :=
  ∀ (c : Instr) (slot : CmdSlot) (w : SlotWords) (s : State), encodeSlot c = some (slot, w) → Ready slot s.part →
    w.kind ≠ 0x02 →
    ∃ t v ack, exec c s = .next t ∧ t.mem = s.mem ∧ t.pending = s.pending ∧
      t.part.bus.cmd.slots[slot] = ⟨v.code, s.part.bus.cmd.slots[slot].uses + 1, w.kind⟩ ∧
      (∃ q : List PartReq, t.part.bus.partQ = q ++
        [.outcome slot v.code (BitVec.ofNat 8 v.detail) (s.part.bus.cmd.slots[slot].uses + 1) w.kind ack]) ∧
      t.part.bus.cmd.shadow = s.part.bus.cmd.shadow ∧
      (16 ≤ v.code.number → t = s.onPart (Part.takenOnly slot w.kind v))

/-- The words with which a host issues a host command spell that command, every operand at every value; a kind with no command
assigned to it spells none. -/
def Obligations.SlotWordsSpellTheirCommand : Prop :=
  (∀ (c : Instr) (slot : CmdSlot) (w : SlotWords), encodeSlot c = some (slot, w) →
    decodeSlot slot w = some c ∧ w.kind ≠ 0) ∧
  ∀ (slot : CmdSlot) (w : SlotWords) (c : Instr), decodeSlot slot w = some c →
    ∃ w', encodeSlot c = some (slot, w') ∧ w'.kind = w.kind

/-! ### Host commands: reports, regions and resets -/

/-- EVENT_SET: a mode above 1 is refused BAD_VALUE with detail 2. Otherwise the mask and the clear mode are replaced, a change
of either requests a factor record write, the pending set stays, the outcome is DONE, and INT is asserted at the take where a
pending factor is left unmasked. EVENT_ACK is accepted in either clear mode with any set: the take changes no factor, and the
DONE outcome write carries the set to its grant. That the outcome write is requested behind the factor record write is the model's
choice (log 59). -/
def Obligations.EventCommandsAct : Prop :=
  (∀ (slot : CmdSlot) (mask mode : Word) (s : State), Ready slot s.part →
    (1 < mode.toNat → exec (.eventSet slot mask mode) s = .next (s.onPart (Part.takenOnly slot 0x03 (.badValue 2)))) ∧
    (mode.toNat ≤ 1 →
      let clear : ClearMode := if mode.toNat = 0 then .onRead else .onAck
      ∃ t, exec (.eventSet slot mask mode) s = .next t ∧
        t = s.onPart (fun p =>
          { p with
            bus :=
              let b := p.bus.beginTake slot 0x03
              let set : Bus := { b with report := { b.report with mask := mask, clearMode := clear } }
              let set := if mask = p.bus.report.mask ∧ clear = p.bus.report.clearMode then b else set.requestFactor
              set.answer slot .done 0 }) ∧
        t.part.bus.report.mask = mask ∧ t.part.bus.report.clearMode = clear ∧
        t.part.bus.report.pending = s.part.bus.report.pending ∧
        (∀ f : Factor, s.part.bus.report.pending &&& f.bit ≠ 0 → mask &&& f.bit = 0 → t.part.bus.report.int = true))) ∧
  (∀ (slot : CmdSlot) (factors : Word) (s : State), Ready slot s.part →
    exec (.eventAck slot factors) s = .next (s.onPart fun p => { p with bus := p.bus.taken slot 0x04 [] .done factors }) ∧
    (s.part.bus.taken slot 0x04 [] .done factors).report = s.part.bus.report ∧
    (s.part.bus.taken slot 0x04 [] .done factors).partQ = s.part.bus.partQ ++
      [.outcome slot .done 0 (s.part.bus.cmd.slots[slot].uses + 1) 0x04 factors])

/-- RESTART: PENDING, and at the restart point every block takes its RESTART values as one change, here with no other command
in progress and no card present: the region map, the rotation, the link port, the mask, the clear mode, the shadow, the
overlay, the iris, the lens table, the depth, the stabiliser's settings and its pending copy, the subject distance and the grip's
settings are kept; the pan states, the runs and the event counters are cleared; a rocker in HOLD becomes LOCKOUT or CENTRE by its
level. Suspended tracking resumes, the distance read back where both axes keep a position. A card that is present and not ejected
is mounted again, its IDENT in flight within the restart point (the model's choice, log 46). With other commands in progress each
of them ends ABORTED. That the restart point is reached within the take is the model's (log 8), and so are the empty pending set
there (log 45) and the free units of 0 (log 27). The grant of the last record write that the RESTART waits for ends it DONE; any
before it counts down, the writes awaited being counted by their place in the PART class: the model's reading (log 37). -/
def Obligations.RestartTakesTheRestartValues : Prop :=
  (∀ (slot : CmdSlot) (s : State), Ready slot s.part → (∀ k : CmdSlot, s.part.bus.cmd.slots[k].last ≠ .pending) →
    s.part.recd.card.present = false → s.part.lens.coord.suspended = false →
    ∃ t, exec (.restart slot) s = .next t ∧ t.mem = s.mem ∧
      t.part.phase = .running ∧ t.part.link = s.part.link ∧ t.part.map = s.part.map ∧
      t.part.lastGrant = s.part.lastGrant ∧ t.part.overlay = s.part.overlay ∧
      t.part.bus.cmd.shadow = s.part.bus.cmd.shadow ∧
      (∀ k : CmdSlot, t.part.bus.cmd.slots[k] =
        if k = slot then ⟨.pending, s.part.bus.cmd.slots[slot].uses + 1, 0x02⟩ else s.part.bus.cmd.slots[k]) ∧
      t.part.bus.cmd.restart.map RestartRecord.slot = some slot ∧
      t.part.bus.report.pending = 0 ∧ t.part.bus.report.mask = s.part.bus.report.mask ∧
      t.part.bus.report.clearMode = s.part.bus.report.clearMode ∧ t.part.bus.report.cause = .restart ∧
      t.part.bus.report.image = none ∧ PartReq.factor ∈ t.part.bus.partQ ∧ PartReq.status ∈ t.part.bus.partQ ∧
      t.part.slots.table = List.replicate s.part.map.slotCount FrameSlot.free ∧
      t.part.slots.freeOrder = List.range s.part.map.slotCount ∧ t.part.slots.completion = [] ∧
      t.part.slots.enc.slot = none ∧ t.part.slots.vf.slot = none ∧ t.part.slots.frameCounter = 0 ∧
      t.part.stab.yaw.acc = 0 ∧ t.part.stab.pitch.acc = 0 ∧ t.part.stab.enable = s.part.stab.enable ∧
      t.part.stab.rate = s.part.stab.rate ∧ t.part.stab.yaw.bias = s.part.stab.yaw.bias ∧ t.part.stab.cal = none ∧
      (s.part.stab.cal = none → t.part.stab.mode = s.part.stab.mode) ∧
      (∀ c : Calibration, s.part.stab.cal = some c → t.part.stab.mode = if c.toActive then .active else .off) ∧
      t.part.stab.copy = s.part.stab.copy ∧ t.part.stab.lTrack = s.part.stab.lTrack ∧ t.part.stab.lPan = s.part.stab.lPan ∧
      t.part.stab.hold = s.part.stab.hold ∧ t.part.stab.missingRun = 0 ∧ t.part.stab.validRun = 0 ∧
      (∀ g : GyroAxis, (t.part.stab.axis g).panState = .track ∧ (t.part.stab.axis g).hitRun = 0 ∧
        (t.part.stab.axis g).centreRun = 0 ∧ (t.part.stab.axis g).clamped = false ∧
        (t.part.stab.axis g).lim = (s.part.stab.axis g).lim ∧ (t.part.stab.axis g).bias = (s.part.stab.axis g).bias ∧
        (t.part.stab.axis g).reversed = (s.part.stab.axis g).reversed) ∧
      t.part.slots.torn = 0 ∧ t.part.slots.unshown = 0 ∧ t.part.slots.skips = 0 ∧ t.part.slots.vfFrames = 0 ∧
      (∀ n : AxisName, ((t.part.lens.axis n).holder = none ∧ (t.part.lens.axis n).pendingMove = none) ∧
        ((s.part.lens.axis n).state = .moving ∨ (s.part.lens.axis n).state = .dwell ∨ (s.part.lens.axis n).state = .waiting →
          (t.part.lens.axis n).state = .idle ∧ (t.part.lens.axis n).pos = (s.part.lens.axis n).pos) ∧
        ((s.part.lens.axis n).state = .homing → (t.part.lens.axis n).state = .unhomed ∧ (t.part.lens.axis n).pos = none)) ∧
      t.part.lens.iris = s.part.lens.iris ∧ t.part.lens.coord.table = s.part.lens.coord.table ∧
      t.part.lens.coord.tracking = s.part.lens.coord.tracking ∧ t.part.lens.coord.load = none ∧
      t.part.lens.coord.distance = s.part.lens.coord.distance ∧ t.part.lens.coord.recEnable = s.part.lens.coord.recEnable ∧
      t.part.lens.coord.recPressed = s.part.lens.coord.recPressed ∧ t.part.lens.coord.recRun = s.part.lens.coord.recRun ∧
      t.part.lens.coord.recLockout = s.part.lens.coord.recLockout ∧ t.part.lens.coord.level = s.part.lens.coord.level ∧
      t.part.lens.coord.rocker = (if s.part.lens.coord.rocker = .hold then
        (if 120 ≤ s.part.lens.coord.level ∧ s.part.lens.coord.level ≤ 136 then .centre else .lockout)
        else s.part.lens.coord.rocker) ∧
      t.part.lens.zoom.quiet = false ∧ t.part.recd.ring.drops = 0 ∧
      t.part.recd.card.retired = s.part.recd.card.retired ∧
      t.part.recd.ring.queue = [] ∧ t.part.recd.ring.writeFront = 0 ∧ t.part.recd.ring.releaseFront = 0 ∧
      t.part.recd.ring.depth = s.part.recd.ring.depth ∧ t.part.recd.ring.overruns = 0 ∧
      t.part.recd.card.clip = none ∧ t.part.recd.card.recState = .idle ∧ t.part.recd.card.state = .absent ∧
      t.part.recd.tc.log = [] ∧ t.part.recd.tc.current = s.part.recd.tc.current ∧
      (∀ n : ChannelNo, t.part.audio[n].threshold = s.part.audio[n].threshold ∧ t.part.audio[n].gain = 32768 ∧
        t.part.audio[n].held = 0 ∧ t.part.audio[n].overSet = false)) ∧
  (∀ (slot : CmdSlot) (s : State), Ready slot s.part → s.part.recd.card.present = false →
    s.part.lens.coord.suspended = false →
    ∃ t, exec (.restart slot) s = .next t ∧ t.part.bus.cmd.slots[slot].last = .pending ∧
      ∀ k : CmdSlot, k ≠ slot → s.part.bus.cmd.slots[k].last = .pending →
        t.part.bus.cmd.slots[k].last = .aborted ∧
        PartReq.outcome k .aborted 0 s.part.bus.cmd.slots[k].uses s.part.bus.cmd.slots[k].kind 0 ∈ t.part.bus.partQ) ∧
  (∀ (slot : CmdSlot) (s : State), Ready slot s.part →
    let c := s.part.recd.card
    let l := s.part.lens
    ∃ t, exec (.restart slot) s = .next t ∧ t.mem = s.mem ∧ t.part.bus.cmd.slots[slot].last = .pending ∧
      t.part.recd.card.recState = .idle ∧ t.part.recd.card.clip = none ∧ t.part.recd.card.mirror = none ∧
      t.part.recd.card.freeUnits = 0 ∧ t.part.recd.card.present = c.present ∧ t.part.recd.card.ejected = c.ejected ∧
      (c.present = true → c.ejected = false → t.part.recd.card.state = .mounting ∧
        (c.inFlight = none → t.part.recd.card.inFlight = some ⟨.ident, false⟩)) ∧
      (c.present = false ∨ c.ejected = true → t.part.recd.card.state = .absent) ∧
      (∀ f, c.inFlight = some f → t.part.recd.card.inFlight = some { f with abandoned := true }) ∧
      t.part.lens.coord.suspended = false ∧ t.part.lens.coord.tracking = l.coord.tracking ∧
      (∀ (tb : LensTable) (z p : Nat), l.coord.suspended = true → l.coord.table = some tb → l.zoom.pos = some z →
        l.focus.pos = some p → l.zoom.state ≠ .homing → l.focus.state ≠ .homing → tb.finf z < tb.fnear z →
        t.part.lens.coord.distance =
          (max 0 (min 255 (roundDiv (((p : Int) - tb.finf z) * 255) (tb.fnear z - tb.finf z)))).toNat) ∧
      (l.coord.suspended = false ∨ l.zoom.pos = none ∨ l.focus.pos = none →
        t.part.lens.coord.distance = l.coord.distance)) ∧
  ∀ (s : State) (slot : CmdSlot) (n : Nat), s.part.bus.cmd.restart = some ⟨slot, n⟩ →
    ∀ r ∈ [PartReq.status, PartReq.factor], PartIsNext s.part r →
    ∃ t, exec .partRequestGrant s = .next t ∧
      (n ≤ 1 → t.part.bus.cmd.restart = none ∧ t.part.bus.cmd.slots[slot].last = .done ∧
        t.part.bus.partQ = s.part.bus.partQ.drop 1 ++
          [.outcome slot .done 0 s.part.bus.cmd.slots[slot].uses s.part.bus.cmd.slots[slot].kind 0]) ∧
      (1 < n → t.part.bus.cmd.restart = some ⟨slot, n - 1⟩ ∧ t.part.bus.cmd.slots = s.part.bus.cmd.slots ∧
        t.part.bus.partQ = s.part.bus.partQ.drop 1)

/-- A REGION is judged in order: the first illegal operand is refused BAD_VALUE with its index; then a region that leaves the
physical window, with the index of its base; regions that share a byte are refused OVERLAP, and a map in use BUSY; a refused
REGION leaves the map as it was. An accepted REGION replaces the map but for the control block: every slot becomes FREE where
the slot area or the geometry changed, the ring pointers become 0 where the record ring changed, and the grid follows VW and VH
(first part: private area kept, no conflict). One that moves the private area requests its zeroing, drops the mirrors and mounts
a card that is present and not ejected again. One that ends the conflict state requests a status record and begins a held
mount. That the free units become 0 with the mirrors is the model's reading (log 27), and that the IDENT of a mount is in flight
within the REGION is its choice (log 46). -/
def Obligations.RegionReplacesTheMap : Prop :=
  (∀ (slot : CmdSlot) (a b c d e f g h i j k : Word) (s : State), Accepts slot s.part →
    let o : RegionOperands := ⟨a.toNat, b.toNat, c.toNat, d.toNat, e.toNat, f.toNat, g.toNat, h.toNat, i.toNat, j.toNat, k.toNat⟩
    let m : RegionMap := o.map s.part.map
    o.Legal → m.Placed → s.part.RegionFree o.privBase → o.privBase = s.part.map.privBase → s.part.map.conflict = false →
    ∃ t, exec (.region slot a b c d e f g h i j k) s = .next t ∧ t.mem = s.mem ∧
      t.part.bus = s.part.bus.taken slot 0x01 [] .done 0 ∧ t.part.map = m ∧
      t.part.map.controlBase = s.part.map.controlBase ∧ t.part.map.conflict = false ∧
      t.part.slots =
        (if f.toNat = s.part.map.slotBase ∧ g.toNat = s.part.map.slotCount ∧ j.toNat = s.part.map.cw ∧
            k.toNat = s.part.map.ch ∧ h.toNat = s.part.map.vw ∧ i.toNat = s.part.map.vh then s.part.slots
          else { s.part.slots with
            table := List.replicate g.toNat .free, freeOrder := List.range g.toNat, completion := [] }) ∧
      t.part.recd =
        (if d.toNat = s.part.map.ringBase ∧ e.toNat = s.part.map.ringSize then s.part.recd
          else { s.part.recd with ring := { s.part.recd.ring with
            writeFront := 0, releaseFront := 0, drainAhead := 0, shadow := List.replicate 32 0 } }) ∧
      (∀ n : ChannelNo, t.part.audio[n] =
        if b.toNat = s.part.map.audioBase ∧ c.toNat = s.part.map.audioSize then s.part.audio[n]
        else { s.part.audio[n] with block := none }) ∧
      (h.toNat = s.part.map.vw ∧ i.toNat = s.part.map.vh → t.part.overlay = s.part.overlay) ∧
      (h.toNat ≠ s.part.map.vw ∨ i.toNat ≠ s.part.map.vh →
        t.part.overlay.columns = h.toNat / 40 ∧ t.part.overlay.rows = i.toNat / 40 ∧
        t.part.overlay.snapshot = s.part.overlay.snapshot ∧ t.part.overlay.palette = s.part.overlay.palette) ∧
      t.part.lens = s.part.lens ∧ t.part.stab = s.part.stab ∧ t.part.link = s.part.link) ∧
  (∀ (slot : CmdSlot) (a b c d e f g h i j k : Word) (s : State), Accepts slot s.part →
    let o : RegionOperands := ⟨a.toNat, b.toNat, c.toNat, d.toNat, e.toNat, f.toNat, g.toNat, h.toNat, i.toNat, j.toNat, k.toNat⟩
    let m : RegionMap := o.map s.part.map
    let card := s.part.recd.card
    let mounting (t : State) : Prop := t.part.recd.card.state = .mounting ∧ t.part.recd.card.recState = .idle ∧
      (card.inFlight = none → t.part.recd.card.inFlight = some ⟨.ident, false⟩)
    o.Legal → m.Placed → s.part.RegionFree o.privBase →
    (o.privBase ≠ s.part.map.privBase → s.part.map.conflict = false →
      ∃ t, exec (.region slot a b c d e f g h i j k) s = .next t ∧ t.mem = s.mem ∧ t.part.map = m ∧
        t.part.bus.cmd.slots[slot].last = .done ∧ PartReq.zero a.toNat 1024 ∈ t.part.bus.partQ ∧
        t.part.recd.card.mirror = none ∧ t.part.recd.card.freeUnits = 0 ∧
        (card.present = true → card.ejected = false → mounting t) ∧
        (card.present = false ∨ card.ejected = true →
          t.part.recd.card.state = card.state ∧ t.part.recd.card.recState = card.recState)) ∧
    (s.part.map.conflict = true →
      ∃ t, exec (.region slot a b c d e f g h i j k) s = .next t ∧ t.mem = s.mem ∧ t.part.map = m ∧
        t.part.map.conflict = false ∧ t.part.bus.cmd.slots[slot].last = .done ∧ PartReq.status ∈ t.part.bus.partQ ∧
        (o.privBase ≠ s.part.map.privBase → PartReq.zero a.toNat 1024 ∈ t.part.bus.partQ) ∧
        (card.present = true → card.ejected = false → card.state = .absent → card.recState = .idle → mounting t))) ∧
  ∀ (slot : CmdSlot) (a b c d e f g h i j k : Word) (s : State), Accepts slot s.part →
    let o : RegionOperands := ⟨a.toNat, b.toNat, c.toNat, d.toNat, e.toNat, f.toNat, g.toNat, h.toNat, i.toNat, j.toNat, k.toNat⟩
    let m : RegionMap := o.map s.part.map
    let ok (n : Nat) : Prop := match n with
      | 1 => 4096 ∣ o.privBase
      | 2 => 4096 ∣ o.audioBase
      | 3 => 4096 ∣ o.audioSize ∧ 0x4000 ≤ o.audioSize ∧ o.audioSize ≤ 0x100000
      | 4 => 4096 ∣ o.ringBase
      | 5 => 0x200000 ∣ o.ringSize ∧ 0x800000 ≤ o.ringSize ∧ o.ringSize ≤ 0x8000000
      | 6 => 32 ∣ o.slotBase
      | 7 => 3 ≤ o.slotCount ∧ o.slotCount ≤ 8
      | 8 => 16 ∣ o.vw ∧ 64 ≤ o.vw ∧ o.vw ≤ 1920
      | 9 => 16 ≤ o.vh ∧ o.vh ≤ 1080
      | 10 => o.vw ≤ o.cw ∧ o.cw ≤ 4096 ∧ 4 ∣ o.cw - o.vw
      | 11 => o.vh ≤ o.ch ∧ o.ch ≤ 2304 ∧ 2 ∣ o.ch - o.vh
      | _ => True
    let fits (base size : Nat) : Prop := base + size ≤ 0x10000000
    let refused (v : Verdict) : Prop :=
      exec (.region slot a b c d e f g h i j k) s = .next (s.onPart (Part.takenOnly slot 0x01 v))
    (∀ n, (∀ x, x < n → ok x) → ¬ok n → refused (.badValue n)) ∧
    ((∀ n, ok n) →
      (¬fits o.privBase 0x40000 → refused (.badValue 1)) ∧
      (fits o.privBase 0x40000 → ¬fits o.audioBase o.audioSize → refused (.badValue 2)) ∧
      (fits o.privBase 0x40000 → fits o.audioBase o.audioSize → ¬fits o.ringBase o.ringSize → refused (.badValue 4)) ∧
      (fits o.privBase 0x40000 → fits o.audioBase o.audioSize → fits o.ringBase o.ringSize →
        (¬fits o.slotBase (o.slotCount * m.pitch) → refused (.badValue 6)) ∧
        (fits o.slotBase (o.slotCount * m.pitch) → ¬m.Placed → refused (.refuse .overlap)) ∧
        (m.Placed → ¬s.part.RegionFree o.privBase → refused (.refuse .busy))))

/-- Every step keeps a clip open exactly in RECORDING, STOPPING and CLOSING, and every complete slot's crop within the margins
with its dx even; both hold after reset. -/
def Obligations.EveryStepKeepsTheRecordStateAndTheCropsSound : Prop :=
  (State.reset.part.recd.card.ClipSound ∧
    ∀ s t : State, s.part.recd.card.ClipSound → step s = .next t → t.part.recd.card.ClipSound) ∧
  State.reset.part.CropsSound ∧ ∀ s t : State, s.part.CropsSound → step s = .next t → t.part.CropsSound

/-! ### Host commands: lens -/

/-- LENS_TABLE: an address that is no multiple of 32 or leaves no room for 256 bytes is refused BAD_VALUE; while a load or a
motion is in progress it is refused BUSY; otherwise the load is requested and the command left in progress. That the load joins the
PART class before the PENDING outcome write is the model's choice (log 59). -/
def Obligations.LensTableRequestsItsLoad : Prop :=
  ∀ (slot : CmdSlot) (address : Word) (s : State), Ready slot s.part →
    exec (.lensTable slot address) s = .next (s.onPart
      (if ¬32 ∣ address.toNat ∨ 0x0FFFFF00 < address.toNat then Part.takenOnly slot 0x10 (.badValue 1)
      else if s.part.lens.coord.load ≠ none ∨ s.part.lens.zoom.inMotion = true ∨ s.part.lens.focus.inMotion = true then
        Part.takenOnly slot 0x10 (.refuse .busy)
      else fun p =>
        { p.afterTake slot 0x10 [.request (.lensLoad address.toNat false)] .pending with
          lens := { p.lens with coord := { p.lens.coord with load := some ⟨address.toNat, slot⟩ } } }))

/-- AXIS_SET: judged in the manual's order; an accepted one replaces all eight values and keeps the rest of the axis. The quiet
cap is the zoom's alone. -/
def Obligations.AxisSetReplacesTheEightValues : Prop :=
  ∀ (slot : CmdSlot) (sel : Byte) (n : AxisName) (vs vm ramp dwell low high action quiet : Word) (s : State),
    Ready slot s.part → (sel = 0 ∧ n = .zoom) ∨ (sel = 1 ∧ n = .focus) →
    ∀ t : LensTable, s.part.lens.coord.table = some t →
    let ax := s.part.lens.axis n
    let bad (k : Nat) := Part.takenOnly slot 0x11 (.badValue k)
    exec (.axisSet slot sel vs vm ramp dwell low high action quiet) s = .next (s.onPart
      (if (ax.state ≠ .idle ∧ ax.state ≠ .unhomed) ∨ (n = .zoom ∧ s.part.lens.coord.rocker = .hold) then
        Part.takenOnly slot 0x11 (.refuse .busy)
      else if vs.toNat < 10 ∨ 2000 < vs.toNat then bad 1
      else if vm.toNat < vs.toNat ∨ 8000 < vm.toNat then bad 2
      else if ramp.toNat < 1 ∨ 4096 < ramp.toNat then bad 3
      else if 255 < dwell.toNat then bad 4
      else if t.range n < low.toNat then bad 5
      else if high.toNat < low.toNat ∨ t.range n < high.toNat then bad 6
      else if 1 < action.toNat then bad 7
      else if n = .zoom ∧ (quiet.toNat < vs.toNat ∨ 8000 < quiet.toNat) then bad 8
      else if t.homeValue n < low.toNat then bad 5
      else if high.toNat < t.homeValue n then bad 6
      else if ax.state = .idle ∧ ax.pos.getD 0 < low.toNat then bad 5
      else if ax.state = .idle ∧ high.toNat < ax.pos.getD 0 then bad 6
      else fun p =>
        { p.afterTake slot 0x11 [] .done with
          lens := p.lens.setAxis n { ax with
            vStart := vs.toNat
            vMax := vm.toNat
            ramp := ramp.toNat
            dwell := dwell.toNat
            low := low.toNat
            high := high.toNat
            action := if action.toNat = 0 then .clamp else .halt
            quietCap := if n = .zoom then quiet.toNat else ax.quietCap } }))

/-- The commands with an axis selector are refused BAD_VALUE with detail 0 for any other selector, AUDIO_SET for one above 3;
AXIS_SET, HOME and FOCUS_TRACK are refused NO_LENS_TABLE without a table, MOVE and JOG NOT_HOMED on an axis that is not homed. -/
def Obligations.CommandsNeedTheirSelectorAndTheirTable : Prop :=
  ∀ (slot : CmdSlot) (sel : Byte) (a b c d e f g h : Word) (s : State), Ready slot s.part →
    let bad (kind : Byte) : Host.Outcome State Fault Refusal := .next (s.onPart (Part.takenOnly slot kind (.badValue 0)))
    (sel ≠ 0 → sel ≠ 1 →
      exec (.axisSet slot sel a b c d e f g h) s = bad 0x11 ∧ exec (.compareSet slot sel a b c d) s = bad 0x12 ∧
      exec (.home slot sel) s = bad 0x13 ∧ exec (.move slot sel a b c d) s = bad 0x14 ∧
      exec (.jog slot sel a b) s = bad 0x15 ∧ exec (.stop slot sel a) s = bad 0x16) ∧
    (3 < sel.toNat → exec (.audioSet slot sel a b c d) s = bad 0x50) ∧
    (s.part.lens.coord.table = none →
      (sel = 0 ∨ sel = 1 →
        exec (.axisSet slot sel a b c d e f g h) s =
          .next (s.onPart (Part.takenOnly slot 0x11 (.refuse .noLensTable))) ∧
        exec (.home slot sel) s = .next (s.onPart (Part.takenOnly slot 0x13 (.refuse .noLensTable)))) ∧
      (a.toNat ≤ 1 → b.toNat ≤ 256 →
        exec (.focusTrack slot a b) s = .next (s.onPart (Part.takenOnly slot 0x17 (.refuse .noLensTable))))) ∧
    (sel = 0 → s.part.lens.zoom.state = .unhomed ∨ s.part.lens.zoom.state = .homing ∨ s.part.lens.zoom.state = .fault →
      s.part.lens.coord.rocker ≠ .hold →
      exec (.move slot sel a 0 0 d) s = .next (s.onPart (Part.takenOnly slot 0x14 (.refuse .notHomed))) ∧
      (a.toNat ≤ 1 → exec (.jog slot sel a 0) s = .next (s.onPart (Part.takenOnly slot 0x15 (.refuse .notHomed))))) ∧
    (sel = 1 → s.part.lens.focus.state = .unhomed ∨ s.part.lens.focus.state = .homing ∨ s.part.lens.focus.state = .fault →
      exec (.move slot sel a 0 0 d) s = .next (s.onPart (Part.takenOnly slot 0x14 (.refuse .notHomed))) ∧
      (a.toNat ≤ 1 → exec (.jog slot sel a 0) s = .next (s.onPart (Part.takenOnly slot 0x15 (.refuse .notHomed)))))

/-- COMPARE_SET replaces the comparator and evaluates it at the position: it fires at once where its condition already holds.
Here no move waits for a mark. That the outcome write is requested behind the factor record write of MARK is the model's choice
(log 59). -/
def Obligations.CompareSetReplacesTheComparator : Prop :=
  ∀ (slot : CmdSlot) (sel : Byte) (n : AxisName) (which value cond enable : Word) (s : State), Ready slot s.part →
    (sel = 0 ∧ n = .zoom) ∨ (sel = 1 ∧ n = .focus) → s.part.lens.zoom.pendingMove = none →
    s.part.lens.focus.pendingMove = none →
    let bad (k : Nat) := Part.takenOnly slot 0x12 (.badValue k)
    let ax := s.part.lens.axis n
    let met : Bool := match ax.pos with
      | none => false
      | some p => decide ((cond.toNat = 1 ∧ p = value.toNat) ∨ (cond.toNat = 2 ∧ value.toNat < p) ∨
          (cond.toNat = 3 ∧ p < value.toNat))
    let c : Comparator := ⟨value.toNat, match cond.toNat with
      | 1 => .eq
      | 2 => .gt
      | 3 => .lt
      | _ => .off, decide (enable.toNat = 1), met⟩
    exec (.compareSet slot sel which value cond enable) s = .next (s.onPart
      (if 1 < which.toNat then bad 1
      else if 60000 < value.toNat then bad 2
      else if 3 < cond.toNat then bad 3
      else if 1 < enable.toNat then bad 4
      else fun p =>
        { p.afterTake slot 0x12 (if met && decide (enable.toNat = 1) then [.raise .mark] else []) .done with
          lens := p.lens.setAxis n (if which.toNat = 0 then { ax with cmpA := c } else { ax with cmpB := c }) }))

/-- HOME with a lens table: refused BUSY while the rocker holds the zoom. Otherwise the command in force and the pending move
end SUPERSEDED; a MOVING axis first stops by deceleration, an axis in a leg waits for its step (the model's reading, log 32), and
any other axis loses its position and begins a leg, toward the sensor where it is inactive and away from it where it is active.
A leg in its dwell and a stop already running are left out here. -/
def Obligations.HomeBeginsAHoming : Prop :=
  ∀ (slot : CmdSlot) (sel : Byte) (n : AxisName) (s : State), Ready slot s.part →
    (sel = 0 ∧ n = .zoom) ∨ (sel = 1 ∧ n = .focus) → s.part.lens.coord.table ≠ none →
    let ax := s.part.lens.axis n
    let held : StepAxis := { ax with holder := some (.host slot), pendingMove := none }
    let done (a : StepAxis) : Host.Outcome State Fault Refusal := .next (s.onPart fun p =>
      { p.afterTake slot 0x13 (ax.ended .superseded) .pending with lens := p.lens.setAxis n a })
    (n = .zoom → s.part.lens.coord.rocker = .hold →
      exec (.home slot sel) s = .next (s.onPart (Part.takenOnly slot 0x13 (.refuse .busy)))) ∧
    (n = .focus ∨ s.part.lens.coord.rocker ≠ .hold →
      (ax.state = .idle ∨ ax.state = .unhomed ∨ ax.state = .fault ∨ ax.state = .waiting ∨ ax.state = .dwell →
        let d : Dir := match n, ax.sensor with
          | .zoom, false => .down
          | .zoom, true => .up
          | .focus, false => .up
          | .focus, true => .down
        exec (.home slot sel) s = done { held with
          state := .homing
          pos := none
          motionDir := d
          goal := .none
          phase := .cruise
          k := 0
          speed := ax.vStart
          ownCap := 0
          cmpA := { ax.cmpA with met := false }
          cmpB := { ax.cmpB with met := false }
          homing := some (.leg (!ax.sensor) 0 (ax.dir.isSome && decide (ax.dir ≠ some d) && decide (0 < ax.dwell))) }) ∧
      (ax.state = .moving → (∀ p x, ax.goal ≠ .stopAt p x) →
        exec (.home slot sel) s = done { held with
          state := .homing
          goal := .stopAt (match ax.motionDir with
            | .up => (ax.pos.getD 0 : Int) + (ax.k + 1)
            | .down => (ax.pos.getD 0 : Int) - (ax.k + 1)) .rest
          homing := some (.slowing false) }) ∧
      (∀ toward steps, ax.state = .homing → ax.homing = some (.leg toward steps false) →
        exec (.home slot sel) s = done { held with homing := some .again }))

/-- The judgement of MOVE: operands 2, 3 and 4, then BUSY, NOT_HOMED, the range and, under HALT, the soft limits. -/
def Obligations.MovesAreJudgedInOrder : Prop :=
  ∀ (slot : CmdSlot) (sel : Byte) (n : AxisName) (target cap cond arg : Word) (s : State), Ready slot s.part →
    (sel = 0 ∧ n = .zoom) ∨ (sel = 1 ∧ n = .focus) →
    let ax := s.part.lens.axis n
    let condOk : Prop := cond.toNat = 0 ∨ (cond.toNat = 1 ∧ arg.toNat ≤ 1 ∧ arg.toNat ≠ sel.toNat) ∨
      (cond.toNat = 2 ∧ arg.toNat ≤ 7)
    let capOk : Prop := cap.toNat = 0 ∨ (ax.vStart ≤ cap.toNat ∧ cap.toNat ≤ 8000)
    let homed : Prop := ax.state = .idle ∨ ax.state = .waiting ∨ ax.state = .moving ∨ ax.state = .dwell
    let held : Prop := n = .zoom ∧ s.part.lens.coord.rocker = .hold
    let refused (v : Verdict) : Prop :=
      exec (.move slot sel target cap cond arg) s = .next (s.onPart (Part.takenOnly slot 0x14 v))
    (¬capOk → refused (.badValue 2)) ∧ (capOk → 2 < cond.toNat → refused (.badValue 3)) ∧
    (capOk → cond.toNat ≤ 2 → ¬condOk → refused (.badValue 4)) ∧
    (capOk → condOk → held → refused (.refuse .busy)) ∧
    (capOk → condOk → ¬held → ¬homed → refused (.refuse .notHomed)) ∧
    (capOk → condOk → ¬held → homed → 60000 < target.toNat ∨ s.part.lens.range n < target.toNat → refused (.badValue 1)) ∧
    (capOk → condOk → ¬held → homed → target.toNat ≤ 60000 → target.toNat ≤ s.part.lens.range n → ax.action = .halt →
      max ax.low (min ax.high target.toNat) ≠ target.toNat → refused (.refuse .outOfLimit))

/-- An accepted MOVE: under CLAMP a target outside the soft limits is replaced by the nearer limit and LIMIT_REACHED raised; the
command in force and the pending move end SUPERSEDED, a focus MOVE suspends tracking, and the axis starts (through a dwell where
it reverses), changes its goal, stops by deceleration first, or waits for the FRAME mark; one that already stands at the target
is DONE at once. A start leaves the axis MOVING at ramp index 0 and its old position, the first step being an event of its own
(the model's choice, log 11), and the outcome write is requested behind the factor record write of the factors raised (the model's
choice, log 59); a stop by deceleration keeps the own cap of the former motion (the model's choice, log 71). Axes in DWELL and the
other start conditions are left out here. -/
def Obligations.MovesStartOrWait : Prop :=
  ∀ (slot : CmdSlot) (sel : Byte) (n : AxisName) (target cap cond arg : Word) (s : State), Ready slot s.part →
    (sel = 0 ∧ n = .zoom) ∨ (sel = 1 ∧ n = .focus) →
    let ax := s.part.lens.axis n
    let t := max ax.low (min ax.high target.toNat)
    t = target.toNat ∨ ax.action = .clamp → target.toNat ≤ 60000 → target.toNat ≤ s.part.lens.range n →
    cap.toNat = 0 ∨ (ax.vStart ≤ cap.toNat ∧ cap.toNat ≤ 8000) → ¬(n = .zoom ∧ s.part.lens.coord.rocker = .hold) →
    let pos := ax.pos.getD 0
    let held : StepAxis := { ax with holder := some (.host slot), pendingMove := none }
    let done (v : Verdict) (more : List Out) (a : StepAxis) : Host.Outcome State Fault Refusal := .next (s.onPart fun p =>
      { p.afterTake slot 0x14 ((if t = target.toNat then [] else [.raise .limitReached]) ++ ax.ended .superseded ++ more) v with
        lens := { p.lens.setAxis n a with coord := { p.lens.coord with
          suspended := p.lens.coord.suspended || (decide (n = .focus) && p.lens.coord.tracking) } } })
    let d : Dir := if pos < t then .up else .down
    (cond.toNat = 0 → ax.state = .idle ∨ ax.state = .waiting →
      (t ≠ pos →
        (ax.dir ≠ none ∧ ax.dir ≠ some d ∧ 0 < ax.dwell →
          exec (.move slot sel target cap cond arg) s = done .pending []
            { held with state := .dwell, goal := .moveTo t, ownCap := cap.toNat, motionDir := d }) ∧
        (ax.dir = none ∨ ax.dir = some d ∨ ax.dwell = 0 →
          let a : StepAxis :=
            { held with
              state := .moving
              goal := .moveTo t
              ownCap := cap.toNat
              motionDir := d
              k := 0
              speed := ax.vStart
              homing := none }
          exec (.move slot sel target cap cond arg) s = done .pending []
            { a with phase := if 0 < a.capIndex then .accel else .cruise })) ∧
      (t = pos → (s.part.lens.axis (otherAxis n)).pendingMove = none →
        (n = .focus → s.part.lens.coord.tracking = false ∧ s.part.lens.coord.suspended = false) →
        exec (.move slot sel target cap cond arg) s = done .done [.raise (match n with
          | .zoom => .zoomDone
          | .focus => .focusDone)] { ax.rest .idle with holder := none, pendingMove := none })) ∧
    (cond.toNat = 0 → ax.state = .moving →
      let ahead : Int := match ax.motionDir with
        | .up => (t : Int) - pos
        | .down => (pos : Int) - t
      (ax.k + 1 ≤ ahead → exec (.move slot sel target cap cond arg) s =
        done .pending [] { held with goal := .moveTo t, ownCap := cap.toNat }) ∧
      (ahead < ax.k + 1 → (∀ p x, ax.goal ≠ .stopAt p x) → exec (.move slot sel target cap cond arg) s =
        done .pending [] { held with goal := .stopAt ax.stopPoint (.goTo t cap.toNat) })) ∧
    (cond.toNat = 2 → arg.toNat = 6 → ax.state = .idle → exec (.move slot sel target cap cond arg) s =
      done .pending [] { ax.rest .waiting with
        holder := none, pendingMove := some ⟨t, cap.toNat, .onMark .frame, slot⟩ })

/-- JOG on a homed axis that the rocker does not hold: standing on the soft limit ahead it is DONE with LIMIT_REACHED under
CLAMP and refused OUT_OF_LIMIT under HALT; otherwise the command in force ends SUPERSEDED and the axis jogs, through a dwell or
a stop by deceleration where it reverses. That a start leaves the axis at its old position, the first step being an event of its
own, and that a JOG standing on its limit leaves tracking and a request alone, are the model's (log 11, log 42), and so is it that
the outcome write is requested behind the factor record write of LIMIT_REACHED (log 59), and that a stop by deceleration keeps the
own cap of the former motion (log 71). Axes in WAITING and DWELL are left out here. -/
def Obligations.JogsRunTowardTheLimit : Prop :=
  ∀ (slot : CmdSlot) (sel : Byte) (n : AxisName) (direction speed : Word) (s : State), Ready slot s.part →
    (sel = 0 ∧ n = .zoom) ∨ (sel = 1 ∧ n = .focus) →
    let ax := s.part.lens.axis n
    ¬(n = .zoom ∧ s.part.lens.coord.rocker = .hold) → speed.toNat = 0 ∨ (ax.vStart ≤ speed.toNat ∧ speed.toNat ≤ 8000) →
    let pos := ax.pos.getD 0
    ∀ d : Dir, (direction.toNat = 0 ∧ d = .down) ∨ (direction.toNat = 1 ∧ d = .up) →
    let onLimit : Prop := (d = .up ∧ ax.high ≤ pos) ∨ (d = .down ∧ pos ≤ ax.low)
    let held : StepAxis := { ax with holder := some (.host slot), pendingMove := none }
    let done (a : StepAxis) : Host.Outcome State Fault Refusal := .next (s.onPart fun p =>
      { p.afterTake slot 0x15 (ax.ended .superseded) .pending with
        lens := { p.lens.setAxis n a with coord := { p.lens.coord with
          suspended := p.lens.coord.suspended || (decide (n = .focus) && p.lens.coord.tracking) } } })
    (ax.state = .idle → onLimit →
      exec (.jog slot sel direction speed) s = .next (s.onPart
        (if ax.action = .halt then Part.takenOnly slot 0x15 (.refuse .outOfLimit)
        else Part.afterTake slot 0x15 [.raise .limitReached] .done))) ∧
    (ax.state = .idle → ¬onLimit →
      (ax.dir ≠ none ∧ ax.dir ≠ some d ∧ 0 < ax.dwell → exec (.jog slot sel direction speed) s =
        done { held with state := .dwell, goal := .jog, ownCap := speed.toNat, motionDir := d }) ∧
      (ax.dir = none ∨ ax.dir = some d ∨ ax.dwell = 0 →
        let a : StepAxis :=
          { held with
            state := .moving
            goal := .jog
            ownCap := speed.toNat
            motionDir := d
            k := 0
            speed := ax.vStart
            homing := none }
        exec (.jog slot sel direction speed) s = done { a with phase := if 0 < a.capIndex then .accel else .cruise })) ∧
    (ax.state = .moving → ax.motionDir = d →
      exec (.jog slot sel direction speed) s = done { held with goal := .jog, ownCap := speed.toNat }) ∧
    (ax.state = .moving → ax.motionDir ≠ d → (∀ p x, ax.goal ≠ .stopAt p x) →
      exec (.jog slot sel direction speed) s = done { held with goal := .stopAt ax.stopPoint (.jogOn d speed.toNat) })

/-- STOP: refused for a kind above 1 and BUSY while the rocker holds the zoom. An axis at rest keeps its state. A MOVING axis
ends its command ABORTED and stops by deceleration (DECEL) or becomes IDLE at its position (IMMEDIATE); a homing leg ends
UNHOMED with its position absent. Here no move waits for this axis to stop and focus tracking is not suspended. -/
def Obligations.StopEndsTheMotion : Prop :=
  ∀ (slot : CmdSlot) (sel : Byte) (n : AxisName) (kind : Word) (s : State), Ready slot s.part →
    (sel = 0 ∧ n = .zoom) ∨ (sel = 1 ∧ n = .focus) →
    let ax := s.part.lens.axis n
    let free : StepAxis := { ax with holder := none, pendingMove := none }
    let done (a : StepAxis) : Host.Outcome State Fault Refusal := .next (s.onPart fun p =>
      { p.afterTake slot 0x16 (ax.ended .aborted) .done with lens := p.lens.setAxis n a })
    (1 < kind.toNat → exec (.stop slot sel kind) s = .next (s.onPart (Part.takenOnly slot 0x16 (.badValue 1)))) ∧
    (kind.toNat ≤ 1 → n = .zoom → s.part.lens.coord.rocker = .hold →
      exec (.stop slot sel kind) s = .next (s.onPart (Part.takenOnly slot 0x16 (.refuse .busy)))) ∧
    (kind.toNat ≤ 1 → n = .focus ∨ s.part.lens.coord.rocker ≠ .hold →
      (ax.state = .idle ∨ ax.state = .unhomed ∨ ax.state = .fault →
        exec (.stop slot sel kind) s = .next (s.onPart (Part.afterTake slot 0x16 [] .done))) ∧
      (ax.state = .moving → kind.toNat = 0 → (∀ p x, ax.goal ≠ .stopAt p x) →
        exec (.stop slot sel kind) s = done { free with goal := .stopAt ax.stopPoint .rest }) ∧
      ((s.part.lens.axis (otherAxis n)).pendingMove = none → s.part.lens.coord.suspended = false →
        (ax.state = .moving ∧ kind.toNat = 1) ∨ ax.state = .waiting ∨ ax.state = .dwell →
        exec (.stop slot sel kind) s = done (free.rest .idle)) ∧
      (∀ toward steps dwells, ax.state = .homing → ax.homing = some (.leg toward steps dwells) →
        exec (.stop slot sel kind) s = done (free.rest .unhomed).losePosition))

/-- FOCUS_TRACK: judged in the manual's order; an accepted one sets the enable and, unless operand 2 is 256, the distance.
While tracking is suspended an accepted one sets both too, the model's reading of R103 against R105 (log 55).
Turned on with the zoom at a position and focus able to move, it requests the focus position of the curve, moved into the soft
limits with LIMIT_REACHED where it lies outside them. An IDLE focus that stands there does nothing, and another starts toward it,
through a dwell where it reverses; a focus that moves or dwells for a request goes on where it already has that target, changes
its target where it can still stop there, and otherwise stops by deceleration first. That a started focus stays at its position,
the first step being an event of its own (log 11), that the outcome write is requested behind the factor's (log 59), and that a
stop by deceleration keeps the own cap of the former motion (log 71), are the model's choices. A focus that dwells for a request and must turn is left out here. -/
def Obligations.FocusTrackSetsTheDistance : Prop :=
  ∀ (slot : CmdSlot) (enable distance : Word) (s : State), Ready slot s.part → s.part.lens.coord.table ≠ none →
    let fo := s.part.lens.focus
    let d := if distance.toNat = 256 then s.part.lens.coord.distance else distance.toNat
    (1 < enable.toNat → exec (.focusTrack slot enable distance) s =
      .next (s.onPart (Part.takenOnly slot 0x17 (.badValue 1)))) ∧
    (enable.toNat ≤ 1 → 256 < distance.toNat → exec (.focusTrack slot enable distance) s =
      .next (s.onPart (Part.takenOnly slot 0x17 (.badValue 2)))) ∧
    (enable.toNat ≤ 1 → distance.toNat ≤ 256 → (∃ h, fo.holder = some (.host h)) ∨ fo.pendingMove ≠ none →
      exec (.focusTrack slot enable distance) s = .next (s.onPart (Part.takenOnly slot 0x17 (.refuse .busy)))) ∧
    (enable.toNat ≤ 1 → distance.toNat ≤ 256 → (∀ h, fo.holder ≠ some (.host h)) → fo.pendingMove = none →
      enable.toNat = 0 ∨ s.part.lens.zoom.pos = none →
      exec (.focusTrack slot enable distance) s = .next (s.onPart fun p =>
        { p.afterTake slot 0x17 [] .done with
          lens := { p.lens with coord := { p.lens.coord with
            tracking := decide (enable.toNat = 1), distance := d } } })) ∧
    ∀ (t : LensTable) (z : Nat), s.part.lens.coord.table = some t → s.part.lens.zoom.pos = some z →
      s.part.lens.coord.suspended = false → enable.toNat = 1 → distance.toNat ≤ 256 → fo.pendingMove = none →
      let pos := fo.pos.getD 0
      let f := ((t.finf z : Int) + roundDiv (((t.fnear z : Int) - t.finf z) * d) 255).toNat
      let g := max fo.low (min fo.high f)
      let way : Dir := if pos < g then .up else .down
      let requested (asked : List Out) (a : StepAxis) : Prop :=
        exec (.focusTrack slot enable distance) s = .next (s.onPart fun p =>
          { p.afterTake slot 0x17 asked .done with
            lens := { p.lens with
              focus := a
              coord := { p.lens.coord with tracking := true, distance := d } } })
      let limit : List Out := if g = f then [] else [.raise .limitReached]
      let held : StepAxis := { fo with holder := some .request }
      (fo.state = .idle → fo.holder = none →
        (g = pos → requested [] fo) ∧
        (g ≠ pos →
          (fo.dir ≠ none ∧ fo.dir ≠ some way ∧ 0 < fo.dwell →
            requested limit { held with state := .dwell, goal := .moveTo g, ownCap := 0, motionDir := way }) ∧
          (fo.dir = none ∨ fo.dir = some way ∨ fo.dwell = 0 →
            let a : StepAxis :=
              { held with
                state := .moving
                goal := .moveTo g
                ownCap := 0
                motionDir := way
                k := 0
                speed := fo.vStart
                homing := none }
            requested limit { a with phase := if 0 < a.capIndex then .accel else .cruise }))) ∧
      (fo.state = .moving ∨ fo.state = .dwell → fo.holder = some .request →
        (fo.goal = .moveTo g ∨ (∃ p c, fo.goal = .stopAt p (.goTo g c)) → requested [] fo) ∧
        ∀ u : Nat, u ≠ g →
          let ahead : Int := match fo.motionDir with
            | .up => (g : Int) - pos
            | .down => (pos : Int) - g
          (fo.goal = .moveTo u → fo.state = .dwell → g ≠ pos → way = fo.motionDir →
            requested limit { fo with goal := .moveTo g, ownCap := 0 }) ∧
          (fo.state = .moving → fo.goal = .moveTo u ∨ (∃ p c, fo.goal = .stopAt p (.goTo u c)) → fo.k + 1 ≤ ahead →
            requested limit { fo with goal := .moveTo g, ownCap := 0 }) ∧
          (fo.state = .moving → fo.goal = .moveTo u → ahead < fo.k + 1 →
            requested limit { fo with goal := .stopAt fo.stopPoint (.goTo g 0) }) ∧
          ∀ p c, fo.state = .moving → fo.goal = .stopAt p (.goTo u c) → ahead < fo.k + 1 →
            requested limit { fo with goal := .stopAt p (.goTo g 0) })

/-- IRIS replaces the target and the step and moves no duty; a value out of range is refused BAD_VALUE with its index, operand
1 first. IRIS_PWM_PERIOD loads the duty. -/
def Obligations.IrisSetsItsTarget : Prop :=
  (∀ (slot : CmdSlot) (target step : Word) (s : State), Ready slot s.part →
    exec (.iris slot target step) s = .next (s.onPart
      (if 1023 < target.toNat then Part.takenOnly slot 0x18 (.badValue 1)
      else if step.toNat < 1 ∨ 1023 < step.toNat then Part.takenOnly slot 0x18 (.badValue 2)
      else fun p =>
        { p.afterTake slot 0x18 [] .done with
          lens := { p.lens with iris := { p.lens.iris with target := target.toNat, step := step.toNat } } }))) ∧
  ∀ s : State, exec .irisPwmPeriod s = .next (s.onPart fun p =>
    { p with lens := { p.lens with iris := { p.lens.iris with loaded := p.lens.iris.duty } } })

/-- GRIP_SET: judged in index order; turning the rocker on from OFF puts it in CENTRE with the last level in the dead band and
in LOCKOUT otherwise, turning it off from CENTRE or LOCKOUT makes it OFF, and from HOLD it also stops a moving zoom by
deceleration; turning the button on while it is PRESSED sets the REC lockout. Before the first rocker sample the last level is
taken as 128, the model's choice (log 15). HOLD with a zoom that is not moving is left out here. -/
def Obligations.GripSetTurnsTheGripOnAndOff : Prop :=
  ∀ (slot : CmdSlot) (rocker button : Word) (s : State), Ready slot s.part →
    let c := s.part.lens.coord
    let z := s.part.lens.zoom
    let done (r : RockerState) (a : StepAxis) : Host.Outcome State Fault Refusal := .next (s.onPart fun p =>
      { p.afterTake slot 0x19 [] .done with
        lens := { p.lens with
          zoom := a
          coord := { p.lens.coord with
            rocker := r
            recEnable := decide (button.toNat = 1)
            recLockout := c.recLockout || (decide (button.toNat = 1) && !c.recEnable && c.recPressed) } } })
    (1 < rocker.toNat → exec (.gripSet slot rocker button) s =
      .next (s.onPart (Part.takenOnly slot 0x19 (.badValue 1)))) ∧
    (rocker.toNat ≤ 1 → 1 < button.toNat → exec (.gripSet slot rocker button) s =
      .next (s.onPart (Part.takenOnly slot 0x19 (.badValue 2)))) ∧
    (rocker.toNat ≤ 1 → button.toNat ≤ 1 →
      (c.rocker = .off → exec (.gripSet slot rocker button) s = done
        (if rocker.toNat = 0 then .off else if 120 ≤ c.level ∧ c.level ≤ 136 then .centre else .lockout) z) ∧
      (c.rocker ≠ .off → rocker.toNat = 1 → exec (.gripSet slot rocker button) s = done c.rocker z) ∧
      (c.rocker = .centre ∨ c.rocker = .lockout → rocker.toNat = 0 → exec (.gripSet slot rocker button) s = done .off z) ∧
      (c.rocker = .hold → rocker.toNat = 0 → z.state = .moving → (∀ p x, z.goal ≠ .stopAt p x) →
        exec (.gripSet slot rocker button) s = done .off
          { z with goal := .stopAt z.stopPoint .rest, holder := some .request }))

/-! ### Host commands: stabiliser, recording, audio and overlay -/

/-- STAB_SET: judged in the manual's order. An accepted one becomes the pending copy and applies a change of the gyro rate at
once, which zeroes the accumulators and the runs; the mode and the parameters in force stay. -/
def Obligations.StabSetBecomesThePendingCopy : Prop :=
  ∀ (slot : CmdSlot) (enable rate lTrack lPan hold yaw pitch : Word) (s : State), Ready slot s.part →
    let bad (k : Nat) := Part.takenOnly slot 0x20 (.badValue k)
    let still (a : StabAxis) : StabAxis := { a with acc := 0, clamped := false }
    exec (.stabSet slot enable rate lTrack lPan hold yaw pitch) s = .next (s.onPart
      (if 1 < enable.toNat then bad 1
      else if rate.toNat ≠ 512 ∧ rate.toNat ≠ 1024 ∧ rate.toNat ≠ 2048 then bad 2
      else if lTrack.toNat < 8 ∨ 16 < lTrack.toNat then bad 3
      else if lPan.toNat < 4 ∨ 12 < lPan.toNat ∨ lTrack.toNat < lPan.toNat then bad 4
      else if hold.toNat < 1 ∨ 15 < hold.toNat then bad 5
      else if 1 < yaw.toNat then bad 6
      else if 1 < pitch.toNat then bad 7
      else if s.part.lens.coord.table = none then Part.takenOnly slot 0x20 (.refuse .noLensTable)
      else if s.part.stab.mode = .calibrating then Part.takenOnly slot 0x20 (.refuse .busy)
      else fun p =>
        let new : GyroRate := if rate.toNat = 512 then .hz512 else if rate.toNat = 1024 then .hz1024 else .hz2048
        let t : Stabiliser := if new = p.stab.rate then p.stab
          else { p.stab with
            rate := new
            yaw := still p.stab.yaw
            pitch := still p.stab.pitch
            missingRun := 0
            validRun := 0 }
        { p.afterTake slot 0x20 [] .done with
          stab := { t with copy := some ⟨decide (enable.toNat = 1), lTrack.toNat, lPan.toNat, hold.toNat,
            decide (yaw.toNat = 1), decide (pitch.toNat = 1)⟩ } }))

/-- STAB_CAL: BUSY while CALIBRATING, NOT_READY in HOLD; otherwise the mode becomes CALIBRATING with the former mode to return
to, both axes are cleared, and the command is left in progress. That the missing run and the valid run become 0 with them is the
model's reading (log 34). -/
def Obligations.StabCalBeginsACalibration : Prop :=
  ∀ (slot : CmdSlot) (s : State), Ready slot s.part →
    let clear (a : StabAxis) : StabAxis :=
      { a with
        acc := 0
        clamped := false
        panState := .track
        hitRun := 0
        centreRun := 0 }
    (s.part.stab.mode = .calibrating →
      exec (.stabCal slot) s = .next (s.onPart (Part.takenOnly slot 0x21 (.refuse .busy)))) ∧
    (s.part.stab.mode = .hold →
      exec (.stabCal slot) s = .next (s.onPart (Part.takenOnly slot 0x21 (.refuse .notReady)))) ∧
    (s.part.stab.mode = .off ∨ s.part.stab.mode = .active →
      exec (.stabCal slot) s = .next (s.onPart fun p =>
        { p.afterTake slot 0x21 [] .pending with
          stab := { p.stab with
            mode := .calibrating
            yaw := clear p.stab.yaw
            pitch := clear p.stab.pitch
            missingRun := 0
            validRun := 0
            cal := some ⟨slot, decide (p.stab.mode = .active), 0, none, 0, 0⟩ } }))

/-- PREREC_SET: a depth above 600 is refused BAD_VALUE with detail 1. Otherwise the depth applies from the take: in ARMED
nothing is trimmed; in any other record state the ring monitor trims for depth at once, so that no more RETAINED VIDEO frames
are left than the depth, in order, the joined run untouched. -/
def Obligations.PrerecSetTrimsForTheDepth : Prop :=
  ∀ (slot : CmdSlot) (depth : Word) (s : State), Ready slot s.part →
    let m := s.part.recd.ring
    (600 < depth.toNat → exec (.prerecSet slot depth) s = .next (s.onPart (Part.takenOnly slot 0x30 (.badValue 1)))) ∧
    (depth.toNat ≤ 600 →
      ∃ r, exec (.prerecSet slot depth) s = .next (s.onPart fun p =>
          { p.afterTake slot 0x30 [] .done with recd := { p.recd with ring := r } }) ∧
        r.depth = depth.toNat ∧ r.writeFront = m.writeFront ∧ r.shadow = m.shadow ∧
        (s.part.recd.card.recState = .armed ∨ m.videoFrames ≤ depth.toNat → r = { m with depth := depth.toNat }) ∧
        (s.part.recd.card.recState ≠ .armed →
          r.videoFrames ≤ depth.toNat ∧ r.queue.Sublist m.queue ∧ m.joinedRun <+: r.queue))

/-- REC_START and REC_STOP by the record state. A start is refused BUSY while an eject is in progress, and in IDLE by the card
state; in STANDBY without pre-record it arms and is left in progress; in ARMED and RECORDING it is DONE with no effect; while a
clip closes it becomes the pending start, or is DONE with no effect where there is one. A stop is DONE with no effect in IDLE and
STANDBY; it disarms ARMED, whose start ends ABORTED; in RECORDING it makes the state STOPPING, raises REC_STOPPED and is left in
progress; while a clip closes it drops a pending start, ABORTED. These parts are stated while the card engine has nothing to do
by itself: no clip open, or its clip waiting with a card command in flight and a CARD request or a complete closing WRITE. A start
in STANDBY with a RETAINED VIDEO_KEY opens a clip and is DONE: RECORDING, REC_STARTED, every RETAINED entry joined with its
stamp write requested, the zoom's quiet flag set. That the outcome write of a take is requested behind its record writes is the
model's choice (log 59). -/
def Obligations.RecCommandsActByTheRecordState : Prop :=
  (∀ (slot : CmdSlot) (s : State), Ready slot s.part →
    let c := s.part.recd.card
    let quiet := s.part.lens.zoom.quiet
    let took (kind : Byte) (asked : List Out) (v : Verdict) (f : CardEngine → CardEngine) (quiet : Bool) :
        Host.Outcome State Fault Refusal := .next (s.onPart fun p =>
      { p.afterTake slot kind asked v with
        recd := { p.recd with card := f p.recd.card }
        lens := { p.lens with zoom := { p.lens.zoom with quiet := quiet } } })
    (c.ejectSlot ≠ none →
      exec (.recStart slot) s = .next (s.onPart (Part.takenOnly slot 0x31 (.refuse .busy)))) ∧
    (c.ejectSlot = none → c.recState = .idle →
      exec (.recStart slot) s = .next (s.onPart (Part.takenOnly slot 0x31 (.refuse (match c.state with
        | .writeProtected => .cardProtected
        | .full => .cardFull
        | _ => .noCard))))) ∧
    (c.Quiet →
      (c.ejectSlot = none →
        (c.recState = .standby → s.part.recd.ring.hasRetained = false → exec (.recStart slot) s =
          took 0x31 [.status] .pending (fun c => { c with recState := .armed, startSlot := some slot }) true) ∧
        (c.recState = .armed → exec (.recStart slot) s = took 0x31 [] .done id quiet)) ∧
      (c.recState = .idle ∨ c.recState = .standby → exec (.recStop slot) s = took 0x32 [] .done id quiet) ∧
      (c.recState = .armed →
        (c.startSlot = none → exec (.recStop slot) s =
          took 0x32 [.status] .done (fun c => { c with recState := .standby }) false) ∧
        ∀ k, c.startSlot = some k → exec (.recStop slot) s =
          took 0x32 [.status, .finish k .aborted 0] .done
            (fun c => { c with recState := .standby, startSlot := none }) false)) ∧
    ∀ k : OpenClip, c.Waits k →
      (c.recState = .recording →
        (c.ejectSlot = none → exec (.recStart slot) s = took 0x31 [] .done id quiet) ∧
        exec (.recStop slot) s = took 0x32 [.status, .raise .recStopped] .pending
          (fun c => { c with recState := .stopping, stopSlot := some slot }) true) ∧
      (c.recState = .stopping ∨ c.recState = .closing →
        (c.ejectSlot = none →
          (c.pendingStart = none → exec (.recStart slot) s =
            took 0x31 [] .pending (fun c => { c with pendingStart := some (.slot slot) }) quiet) ∧
          (c.pendingStart ≠ none → exec (.recStart slot) s = took 0x31 [] .done id quiet)) ∧
        (c.pendingStart = none ∨ c.pendingStart = some .toggle → exec (.recStop slot) s =
          took 0x32 [] .done (fun c => { c with pendingStart := none }) quiet) ∧
        ∀ n, c.pendingStart = some (.slot n) → exec (.recStop slot) s =
          took 0x32 [.finish n .aborted 0] .done (fun c => { c with pendingStart := none }) quiet)) ∧
  (∀ (slot : CmdSlot) (s : State), Ready slot s.part →
    let c := s.part.recd.card
    (c.recState = .standby → c.ejectSlot = none → s.part.recd.ring.hasRetained = true → c.clip = none →
        s.part.lens.zoom.pendingMove = none → s.part.lens.focus.pendingMove = none →
        ∃ t, exec (.recStart slot) s = .next t ∧ t.mem = s.mem ∧ t.part.recd.card.recState = .recording ∧
        t.part.bus.cmd.slots[slot].last = .done ∧ t.part.recd.card.clip ≠ none ∧
        t.part.recd.card.clipNumber = c.image.readNat 0x10 2 ∧
        t.part.bus.report.pending &&& Factor.recStarted.bit ≠ 0 ∧ t.part.lens.zoom.quiet = true ∧
        t.part.recd.ring.queue.length = s.part.recd.ring.queue.length ∧
        (∀ e ∈ t.part.recd.ring.queue, e.state ≠ .retained) ∧
        (∀ e ∈ s.part.recd.ring.queue, e.state = .retained → ∃ q ∈ t.part.bus.partQ, ∃ tc rm est,
          q = .stamp e.number (s.part.map.ringBase + e.offset) tc rm est e.overwritten)) ∧
    (∀ k, c.recState = .recording → c.request ≠ none → c.clip = some k → k.live = true →
      ∃ t, exec (.recStop slot) s = .next t ∧ t.mem = s.mem ∧ t.part.recd.card.recState = .stopping ∧
        t.part.recd.card.stopSlot = some slot ∧ t.part.bus.cmd.slots[slot].last = .pending ∧
        t.part.bus.report.pending &&& Factor.recStopped.bit ≠ 0 ∧ t.part.recd.ring.queue = s.part.recd.ring.queue))

/-- CARD_FORMAT on an UNFORMATTED, READY or FULL card that is not recording: FORMATTING and IDLE, the mirror of an empty
directory with U units and next clip number 1, and the two directory WRITEs; the command is left in progress. It is refused
NO_CARD, PROTECTED or BUSY otherwise. The OK of its second WRITE makes the card READY, the record state STANDBY and the units all
free, and ends it DONE; a second ERROR makes the card FAULT and ends it FAILED. CARD_EJECT: refused NO_CARD with the card ABSENT
and BUSY while it mounts, formats or is being ejected. In IDLE and STANDBY, and in ARMED after its start ends ABORTED, it is
carried out at once: the ejected flag set, the mirrors dropped, the card ABSENT, the record state IDLE, DONE. In RECORDING it
stops as a REC_STOP does; in STOPPING and CLOSING it drops a pending start, ABORTED, and waits for the close. The OK of the
closing map WRITE ends the clip: CLIP_CLOSED, the last-clip record, STANDBY (or IDLE for a FULL card), the stop DONE, a waiting
eject carried out; that this record shows the open clip record as it stands then is the model's choice (log 67). A second ERROR of a
closing or opening WRITE ends the clip with the card FAULT. -/
def Obligations.FormatsAndEjects : Prop :=
  (∀ (slot : CmdSlot) (s : State), Ready slot s.part →
    let c := s.part.recd.card
    let ok : Prop := (c.state = .unformatted ∨ c.state = .ready ∨ c.state = .full) ∧
      (c.recState = .idle ∨ c.recState = .standby) ∧ c.ejectSlot = none
    let refused (code : OutcomeCode) : Prop :=
      exec (.cardFormat slot) s = .next (s.onPart (Part.takenOnly slot 0x33 (.refuse code)))
    (c.state = .absent → refused .noCard) ∧ (c.state = .writeProtected → refused .cardProtected) ∧
    (c.state ≠ .absent → c.state ≠ .writeProtected → ¬ok → refused .busy) ∧
    (ok → c.Quiet → ∃ t, exec (.cardFormat slot) s = .next t ∧ t.mem = s.mem ∧
      t.part.recd.card.state = .formatting ∧ t.part.recd.card.recState = .idle ∧
      t.part.recd.card.formatSlot = some slot ∧ t.part.bus.cmd.slots[slot].last = .pending ∧
      t.part.recd.card.dirJobs.map DirJob.first = [0, 256] ∧ t.part.recd.card.dirJobs.map DirJob.count = [256, 25] ∧
      (∀ x, t.part.recd.card.image.read x =
        if x < 0x200 then (headerBytes c.unitTotal 1).getD x 0 else 0) ∧
      t.part.recd.ring = s.part.recd.ring ∧ t.part.slots = s.part.slots ∧ t.part.map = s.part.map)) ∧
  (∀ (slot : CmdSlot) (s : State), Ready slot s.part →
    let c := s.part.recd.card
    let busy : Prop := c.state = .mounting ∨ c.state = .formatting ∨ c.ejectSlot ≠ none
    let ejected (t : State) : Prop := t.mem = s.mem ∧ t.part.recd.card.ejected = true ∧
      t.part.recd.card.mirror = none ∧ t.part.recd.card.state = .absent ∧ t.part.recd.card.recState = .idle ∧
      t.part.recd.card.inFlight = c.inFlight ∧ t.part.bus.cmd.slots[slot].last = .done ∧
      t.part.recd.ring = s.part.recd.ring
    (c.state = .absent → exec (.cardEject slot) s = .next (s.onPart (Part.takenOnly slot 0x34 (.refuse .noCard)))) ∧
    (c.state ≠ .absent → busy → exec (.cardEject slot) s = .next (s.onPart (Part.takenOnly slot 0x34 (.refuse .busy)))) ∧
    (c.state ≠ .absent → ¬busy →
      (c.recState = .idle ∨ c.recState = .standby → c.clip = none →
        ∃ t, exec (.cardEject slot) s = .next t ∧ ejected t) ∧
      (c.recState = .armed → c.clip = none →
        ∃ t, exec (.cardEject slot) s = .next t ∧ ejected t ∧ t.part.recd.card.startSlot = none ∧
          ∀ k, c.startSlot = some k → k ≠ slot → t.part.bus.cmd.slots[k].last = .aborted) ∧
      (∀ k, c.recState = .recording → c.request ≠ none → c.clip = some k → k.live = true →
        ∃ t, exec (.cardEject slot) s = .next t ∧ t.mem = s.mem ∧ t.part.recd.card.recState = .stopping ∧
          t.part.recd.card.ejectSlot = some slot ∧ t.part.bus.cmd.slots[slot].last = .pending ∧
          t.part.bus.report.pending &&& Factor.recStopped.bit ≠ 0) ∧
      ∀ k : OpenClip, c.Waits k → c.recState = .stopping ∨ c.recState = .closing →
        exec (.cardEject slot) s = .next (s.onPart fun p =>
          { p.afterTake slot 0x34 (match c.pendingStart with
              | some (.slot n) => [.finish n .aborted 0]
              | _ => []) .pending with
            recd := { p.recd with card := { p.recd.card with ejectSlot := some slot, pendingStart := none } } }))) ∧
  ∀ (s : State) (d : DirJob),
    let c := s.part.recd.card
    c.inFlight = some ⟨.writeDir d.first d.count, false⟩ → c.dirJobs = [d] → c.mountCmd = none → c.request = none →
    (d.purpose = .formatMap → c.clip = none → c.state = .formatting → c.recState = .idle →
      (∃ t, exec (.cardWriteAnswer (.inTime true)) s = .next t ∧ t.mem = s.mem ∧ t.part.recd.card.state = .ready ∧
        t.part.recd.card.recState = .standby ∧ t.part.recd.card.freeUnits = c.unitTotal ∧
        t.part.recd.card.formatSlot = none ∧ ∀ k, c.formatSlot = some k → t.part.bus.cmd.slots[k].last = .done) ∧
      (d.retried = true → ∃ t, exec (.cardWriteAnswer (.inTime false)) s = .next t ∧ t.mem = s.mem ∧
        t.part.recd.card.state = .fault ∧ t.part.recd.card.recState = .idle ∧
        t.part.bus.report.pending &&& Factor.cardFault.bit ≠ 0 ∧
        ∀ k, c.formatSlot = some k → t.part.bus.cmd.slots[k].last = .failed)) ∧
    (∀ k : OpenClip, d.purpose = .closeMap → c.clip = some k → c.recState = .closing → c.pendingStart = none →
      c.state = .ready ∨ c.state = .full →
      ∃ t, exec (.cardWriteAnswer (.inTime true)) s = .next t ∧ t.mem = s.mem ∧ t.part.recd.card.clip = none ∧
        t.part.bus.report.pending &&& Factor.clipClosed.bit ≠ 0 ∧
        PartReq.lastClip (k.entryBytes c.unitTotal 2) ∈ t.part.bus.partQ ∧ t.part.recd.card.stopSlot = none ∧
        t.part.recd.card.ejectSlot = none ∧
        (c.ejectSlot = none → c.state = .ready → c.freeUnits ≠ 0 → c.freeEntry ≠ none →
          t.part.recd.card.state = .ready ∧ t.part.recd.card.recState = .standby) ∧
        (c.ejectSlot = none → c.state = .full → t.part.recd.card.state = .full ∧ t.part.recd.card.recState = .idle) ∧
        (c.ejectSlot ≠ none → t.part.recd.card.state = .absent ∧ t.part.recd.card.recState = .idle ∧
          t.part.recd.card.ejected = true) ∧
        (∀ n, c.ejectSlot = some n → t.part.bus.cmd.slots[n].last = .done) ∧
        ∀ n, c.stopSlot = some n → t.part.bus.cmd.slots[n].last = .done) ∧
    ∀ k : OpenClip, d.purpose = .opening ∨ d.purpose = .closeHead ∨ d.purpose = .closeMap → d.retried = true →
      c.clip = some k → c.recState = .recording ∨ c.recState = .stopping ∨ c.recState = .closing →
      ∃ t, exec (.cardWriteAnswer (.inTime false)) s = .next t ∧ t.mem = s.mem ∧ t.part.recd.card.state = .fault ∧
        t.part.recd.card.recState = .idle ∧ t.part.recd.card.clip = none ∧
        t.part.bus.report.pending &&& Factor.cardFault.bit ≠ 0 ∧
        (c.recState = .recording → t.part.bus.report.pending &&& Factor.recStopped.bit ≠ 0) ∧
        PartReq.lastClip ({ k with flags := { k.flags with endedFault := true } }.entryBytes c.unitTotal 1) ∈
          t.part.bus.partQ ∧
        (∀ e ∈ t.part.recd.ring.queue, e.state = .retained) ∧ t.part.recd.card.stopSlot = none ∧
        t.part.recd.card.pendingStart = none ∧ t.part.recd.card.ejectSlot = none ∧
        ∀ n, c.stopSlot = some n → t.part.bus.cmd.slots[n].last = .failed

/-- TC_SET: judged in the order of R161; an accepted one sets the current timecode, the record-run counter, the mode and the
rate and keeps the frame log; a refused one changes nothing but its slot. -/
def Obligations.TcSetSetsBothTimecodes : Prop :=
  ∀ (slot : CmdSlot) (timecode mode rate : Word) (s : State), Ready slot s.part →
    let r : TcRate := if rate.toNat = 0 then .fps25 else if rate.toNat = 1 then .fps30 else .df2997
    let tc := Timecode.ofNat timecode.toNat
    let digit (b : Bcd) : Prop := b.tens ≤ 9 ∧ b.units ≤ 9
    let valid : Prop := (digit tc.hh ∧ digit tc.mm ∧ digit tc.ss ∧ digit tc.ff) ∧
      tc.hh.tens * 10 + tc.hh.units ≤ 23 ∧ tc.mm.tens * 10 + tc.mm.units ≤ 59 ∧ tc.ss.tens * 10 + tc.ss.units ≤ 59 ∧
      tc.ff.tens * 10 + tc.ff.units < (if rate.toNat = 0 then 25 else 30) ∧
      ¬(rate.toNat = 2 ∧ tc.ss = ⟨0, 0⟩ ∧ tc.ff.tens = 0 ∧ tc.ff.units ≤ 1 ∧ tc.mm.units ≠ 0)
    let rec' := s.part.recd.card.recState
    let refused (v : Verdict) : Prop :=
      exec (.tcSet slot timecode mode rate) s = .next (s.onPart (Part.takenOnly slot 0x40 v))
    (1 < mode.toNat → refused (.badValue 2)) ∧ (mode.toNat ≤ 1 → 2 < rate.toNat → refused (.badValue 3)) ∧
    (mode.toNat ≤ 1 → rate.toNat ≤ 2 → ¬valid → refused (.badValue 1)) ∧
    (mode.toNat ≤ 1 → rate.toNat ≤ 2 → valid → rec' = .recording ∨ rec' = .stopping ∨ rec' = .closing →
      refused (.refuse .busy)) ∧
    (mode.toNat ≤ 1 → rate.toNat ≤ 2 → valid → rec' = .idle ∨ rec' = .standby ∨ rec' = .armed →
      exec (.tcSet slot timecode mode rate) s = .next (s.onPart fun p =>
        { p.afterTake slot 0x40 [] .done with
          recd := { p.recd with tc := { p.recd.tc with
            current := tc
            recordRun := tc
            mode := if mode.toNat = 0 then .freeRun else .recordRun
            rate := r } } }))

/-- AUDIO_SET: judged in index order; an accepted one sets the channel's enable, threshold and release, clears its OVER where
operand 4 is 1, and keeps its gain, block, peak, held segment and counts. -/
def Obligations.AudioSetSetsTheLimiter : Prop :=
  ∀ (slot : CmdSlot) (sel : Byte) (n : ChannelNo) (enable threshold release clear : Word) (s : State), Ready slot s.part →
    sel.toNat = n.val →
    let bad (k : Nat) := Part.takenOnly slot 0x50 (.badValue k)
    exec (.audioSet slot sel enable threshold release clear) s = .next (s.onPart
      (if 1 < enable.toNat then bad 1
      else if threshold.toNat < 65536 ∨ 8388607 < threshold.toNat then bad 2
      else if release.toNat < 1 ∨ 512 < release.toNat then bad 3
      else if 1 < clear.toNat then bad 4
      else fun p =>
        { p.afterTake slot 0x50 [] .done with
          audio := p.audio.set n { p.audio[n] with
            enable := decide (enable.toNat = 1)
            threshold := threshold.toNat
            release := release.toNat
            overSet := p.audio[n].overSet && decide (clear.toNat = 0) } }))

/-- TEXT writes the count's codes into the host layer from its cell rightward, none past the row's last column, and nothing
else; TEXT_CLEAR empties a row or the whole layer. Out of range they are refused BAD_VALUE, TEXT's count before its cell. -/
def Obligations.TextWritesTheHostLayer : Prop :=
  (∀ (slot : CmdSlot) (position form : Word) (codes : Vector Word 12) (s : State), Ready slot s.part →
    let o := s.part.overlay
    let column := position.toNat % 256
    let row := position.toNat / 256 % 256
    let count := form.toNat % 256
    let refused (n : Nat) : Prop :=
      exec (.text slot position form codes) s = .next (s.onPart (Part.takenOnly slot 0x60 (.badValue n)))
    (count = 0 ∨ 48 < count → refused 2) ∧
    (1 ≤ count → count ≤ 48 → o.rows ≤ row ∨ o.columns ≤ column → refused 1) ∧
    (1 ≤ count → count ≤ 48 → row < o.rows → column < o.columns →
      ∃ layer, exec (.text slot position form codes) s = .next (s.onPart fun p =>
          { p.afterTake slot 0x60 [] .done with overlay := { p.overlay with host := layer } }) ∧
        ∀ r c : Nat, r < o.host.length → c < (o.host[r]?.getD []).length →
          cellAt layer r c =
            if r = row ∧ column ≤ c ∧ c < column + count ∧ c < o.columns then
              ⟨(codes[(c - column) / 4]?.getD 0).toNat / 256 ^ ((c - column) % 4) % 256, form.toNat / 256 % 4,
                form.toNat.testBit 10, form.toNat.testBit 11⟩
            else cellAt o.host r c)) ∧
  ∀ (slot : CmdSlot) (row : Word) (s : State), Ready slot s.part →
    let o := s.part.overlay
    (o.rows ≤ row.toNat → row.toNat ≠ 255 →
      exec (.textClear slot row) s = .next (s.onPart (Part.takenOnly slot 0x61 (.badValue 1)))) ∧
    (row.toNat < o.rows ∨ row.toNat = 255 →
      ∃ layer, exec (.textClear slot row) s = .next (s.onPart fun p =>
          { p.afterTake slot 0x61 [] .done with overlay := { p.overlay with host := layer } }) ∧
        ∀ r c : Nat, r < o.host.length →
          cellAt layer r c = if row.toNat = 255 ∨ r = row.toNat then ⟨0, 0, false, false⟩ else cellAt o.host r c)

/-- FIELD_SET: judged in the order of R182; with enable 1 the field takes its place, with enable 0 it is disabled and keeps its
place; the live layer stays until its next refresh. -/
def Obligations.FieldSetPlacesAField : Prop :=
  ∀ (slot : CmdSlot) (field row column enable : Word) (s : State), Ready slot s.part →
    let o := s.part.overlay
    let width := [11, 4, 12, 12, 12, 12, 12, 4, 2].getD field.toNat 0
    let meets (i : Fin 9) : Prop := i.val ≠ field.toNat ∧ o.fields[i].enabled = true ∧ o.fields[i].row = row.toNat ∧
      column.toNat < o.fields[i].column + [11, 4, 12, 12, 12, 12, 12, 4, 2].getD i.val 0 ∧
      o.fields[i].column < column.toNat + width
    let refused (v : Verdict) : Prop :=
      exec (.fieldSet slot field row column enable) s = .next (s.onPart (Part.takenOnly slot 0x62 v))
    (8 < field.toNat → refused (.badValue 1)) ∧ (field.toNat ≤ 8 → 1 < enable.toNat → refused (.badValue 4)) ∧
    (field.toNat ≤ 8 → enable.toNat = 1 → o.rows ≤ row.toNat → refused (.badValue 2)) ∧
    (field.toNat ≤ 8 → enable.toNat = 1 → row.toNat < o.rows → o.columns < column.toNat + width → refused (.badValue 3)) ∧
    (field.toNat ≤ 8 → enable.toNat = 1 → row.toNat < o.rows → column.toNat + width ≤ o.columns → (∃ i, meets i) →
      refused (.refuse .overlap)) ∧
    (∀ k : Fin 9, field.toNat = k.val →
      (enable.toNat = 1 → row.toNat < o.rows → column.toNat + width ≤ o.columns → (∀ i, ¬meets i) →
        exec (.fieldSet slot field row column enable) s = .next (s.onPart fun p =>
          { p.afterTake slot 0x62 [] .done with
            overlay := { p.overlay with fields := p.overlay.fields.set k ⟨row.toNat, column.toNat, true⟩ } })) ∧
      (enable.toNat = 0 →
        exec (.fieldSet slot field row column enable) s = .next (s.onPart fun p =>
          { p.afterTake slot 0x62 [] .done with
            overlay := { p.overlay with
              fields := p.overlay.fields.set k { p.overlay.fields[k] with enabled := false } } })))

/-- ZEBRA_SET and PALETTE_SET: judged in index order; an accepted one replaces the enable and the level, or the named entry, at
its take, in every state, and leaves the snapshot that the viewfinder shows; POWER_ON and PIN_RESET give the palette its
default, and RESTART keeps the overlay. -/
def Obligations.ZebraAndPaletteAreReplaced : Prop :=
  (∀ (slot : CmdSlot) (enable level : Word) (s : State), Ready slot s.part →
    exec (.zebraSet slot enable level) s = .next (s.onPart
      (if 1 < enable.toNat then Part.takenOnly slot 0x63 (.badValue 1)
      else if 255 < level.toNat then Part.takenOnly slot 0x63 (.badValue 2)
      else fun p =>
        { p.afterTake slot 0x63 [] .done with
          overlay := { p.overlay with zebra := decide (enable.toNat = 1), level := level.toNat } }))) ∧
  (∀ (slot : CmdSlot) (entry y cb cr : Word) (s : State), Ready slot s.part →
    (3 < entry.toNat → exec (.paletteSet slot entry y cb cr) s =
      .next (s.onPart (Part.takenOnly slot 0x64 (.badValue 1)))) ∧
    ∀ k : Fin 4, entry.toNat = k.val →
      exec (.paletteSet slot entry y cb cr) s = .next (s.onPart
        (if 255 < y.toNat then Part.takenOnly slot 0x64 (.badValue 2)
        else if 255 < cb.toNat then Part.takenOnly slot 0x64 (.badValue 3)
        else if 255 < cr.toNat then Part.takenOnly slot 0x64 (.badValue 4)
        else fun p =>
          { p.afterTake slot 0x64 [] .done with
            overlay := { p.overlay with
              palette := p.overlay.palette.set k ⟨y.setWidth 8, cb.setWidth 8, cr.setWidth 8⟩ } }))) ∧
  (∀ (vfFrames : Nat) (o : Overlay), (o.takeSnapshot vfFrames).snapshot.palette = o.palette ∧
    (o.takeSnapshot vfFrames).snapshot.zebra = o.zebra ∧ (o.takeSnapshot vfFrames).snapshot.level = o.level) ∧
  (∀ (pins : Pins) (s : State), ∀ c ∈ [Instr.powerOn pins, Instr.pinReset pins],
    ∃ t, exec c s = .next t ∧
      t.part.overlay.palette = #v[⟨235, 128, 128⟩, ⟨81, 90, 240⟩, ⟨210, 16, 146⟩, ⟨145, 54, 34⟩]) ∧
  ∀ (slot : CmdSlot) (s : State), Ready slot s.part →
    ∃ t, exec (.restart slot) s = .next t ∧ t.part.overlay = s.part.overlay

/-! ### Events -/

/-- PAN, TRACK_RETURN and METER_FALL name cases of a frame complete (the model's choice, log 9): where the next grant completes
a frame and has that case, the row is that grant, and the axis's pan state or the channel's held segment changes as it says.
The stabiliser's work at a frame complete: the pending copy is applied (OFF becomes ACTIVE where it turns on, ACTIVE and HOLD
become OFF with all cleared where it turns off, and a calibration takes it as its return mode); each limit becomes
min(2^30, trunc(margin x 16 x 2^18 / K16)), or 0 without a lens table. In ACTIVE and HOLD each accumulator is clamped to it and
the crop formed: px is A x K16 / 2^18 truncated, then rounded by sixteenths, on yaw moved to an even number toward zero; dx is
-px and dy px, within the margins. A clamp by a sample or here, or a crop at the margin, is a margin hit; the hits run in TRACK and
the frames nearer the centre than half the margin run in PAN, and a run that reaches H turns the axis, both runs 0; with margin 0
it stays in TRACK. A frame that does not count sets the run to 0 even where the run is already at a lowered H (the model's
reading, log 57). In OFF and CALIBRATING the crop is 0, 0. Both clamped flags are cleared. -/
def Obligations.NamedCasesOfAFrameComplete : Prop :=
  (∀ (s : State) (a k o last : Nat) (data : List Byte) (enables : List Bool),
    LinkIsNext s.part (.write a data enables (.capture k o)) → s.part.slots.table[k]? = some (FrameSlot.filling last) →
    0 < s.part.map.cw * s.part.map.ch →
    (∃ i < 32, o + i + 1 = s.part.map.cw * s.part.map.ch * 2 ∧ enables[i]? = some true) →
    let c := s.part.stab.frame s.part.map.mx s.part.map.my s.part.lens.coord.table s.part.lens.zoom.pos
    let live : Prop := s.part.stab.applyCopy.mode = .active ∨ s.part.stab.applyCopy.mode = .hold
    (∀ axis : GyroAxis, live → s.part.map.margin axis ≠ 0 → (s.part.stab.applyCopy.axis axis).panState = .track →
      (c.stab.axis axis).panState = .pan →
      ∃ t, exec (.pan axis) s = .next t ∧ exec .linkRequestGrant s = .next t ∧ (t.part.stab.axis axis).panState = .pan ∧
        (t.part.stab.axis axis).hitRun = 0 ∧ t.part.bus.report.pending &&& Factor.pan.bit ≠ 0) ∧
    (∀ axis : GyroAxis, live → s.part.map.margin axis ≠ 0 → (s.part.stab.applyCopy.axis axis).panState = .pan →
      (c.stab.axis axis).panState = .track →
      ∃ t, exec (.trackReturn axis) s = .next t ∧ exec .linkRequestGrant s = .next t ∧
        (t.part.stab.axis axis).panState = .track ∧ (t.part.stab.axis axis).centreRun = 0) ∧
    (∀ channel : ChannelNo,
      let ch := s.part.audio[channel]
      segment ch.peak < ch.held → ch.holdCount = 0 → ch.fallCount = 1 →
      ∃ t, exec (.meterFall channel) s = .next t ∧ exec .linkRequestGrant s = .next t ∧
        t.part.audio[channel].held = max (segment ch.peak) (ch.held - 1) ∧ t.part.audio[channel].fallCount = 0 ∧
        t.part.audio[channel].peak = 0)) ∧
  (∀ s : Stabiliser,
    (s.copy = none → s.applyCopy = s) ∧
    ∀ c : StabCopy, s.copy = some c →
      let t : Stabiliser :=
        { s with
          copy := none
          enable := c.enable
          lTrack := c.lTrack
          lPan := c.lPan
          hold := c.hold
          yaw := { s.yaw with reversed := c.yawReversed }
          pitch := { s.pitch with reversed := c.pitchReversed } }
      let clear (a : StabAxis) : StabAxis :=
        { a with
          acc := 0
          clamped := false
          panState := .track
          hitRun := 0
          centreRun := 0 }
      (s.mode = .off → c.enable = true → s.applyCopy = { t with mode := .active, missingRun := 0 }) ∧
      ((s.mode = .off ∧ c.enable = false) ∨ ((s.mode = .active ∨ s.mode = .hold) ∧ c.enable = true) → s.applyCopy = t) ∧
      (s.mode = .active ∨ s.mode = .hold → c.enable = false → s.applyCopy =
        { t with mode := .off, missingRun := 0, validRun := 0, yaw := clear t.yaw, pitch := clear t.pitch }) ∧
      (s.mode = .calibrating → s.applyCopy = { t with cal := s.cal.map fun k => { k with toActive := c.enable } })) ∧
  ∀ (mx my : Nat) (table : Option LensTable) (zoom : Option Nat) (s : Stabiliser),
    let r := s.frame mx my table zoom
    let a := s.applyCopy
    let gain : Nat := (table.map fun t => t.gain zoom).getD 0
    let limit (margin : Nat) : Nat := if table = none then 0 else min (2 ^ 30) (margin * 16 * 2 ^ 18 / gain)
    let clampTo (l : Nat) (v : Int) : Int := max (-(l : Int)) (min l v)
    let px (acc : Int) : Int := roundDiv (Int.tdiv (acc * gain) (2 ^ 18)) 16
    let even (p : Int) : Int := if p % 2 = 0 then p else if 0 < p then p - 1 else p + 1
    let moved (margin : Nat) (crop : Int) (before : StabAxis) (acc : Int) : StabAxis :=
      let hit : Prop := before.clamped = true ∨ acc ≠ before.acc ∨ crop.natAbs = margin
      let at_ : StabAxis := { before with acc := acc, lim := limit margin, clamped := false }
      let hits := if hit then before.hitRun + 1 else 0
      let centred := if 2 * crop.natAbs < margin then before.centreRun + 1 else 0
      if margin = 0 then { at_ with panState := .track, hitRun := 0, centreRun := 0 }
      else match before.panState with
        | .track =>
          if a.hold ≤ hits then { at_ with panState := .pan, hitRun := 0, centreRun := 0 } else { at_ with hitRun := hits }
        | .pan =>
          if a.hold ≤ centred then { at_ with panState := .track, hitRun := 0, centreRun := 0 }
          else { at_ with centreRun := centred }
    (a.mode = .active ∨ a.mode = .hold →
      let yaw := clampTo (limit mx) a.yaw.acc
      let pitch := clampTo (limit my) a.pitch.acc
      r.dx = clampTo mx (-(even (px yaw))) ∧ r.dy = clampTo my (px pitch) ∧
      r.stab = { a with yaw := moved mx r.dx a.yaw yaw, pitch := moved my r.dy a.pitch pitch } ∧
      (r.panned = true ↔ (a.yaw.panState = .track ∧ r.stab.yaw.panState = .pan) ∨
        (a.pitch.panState = .track ∧ r.stab.pitch.panState = .pan))) ∧
    (a.mode = .off ∨ a.mode = .calibrating →
      r.dx = 0 ∧ r.dy = 0 ∧ r.panned = false ∧
      r.stab = { a with
        yaw := { a.yaw with lim := limit mx, clamped := false }
        pitch := { a.pitch with lim := limit my, clamped := false } })

/-- GYRO_SAMPLE: in ACTIVE a valid sample is integrated on each axis, leaked, corrected, scaled by the gyro rate and clamped to
the limit, and a missing one advances the missing run; in OFF both change nothing; in HOLD the accumulators leak and the valid
run advances; an overtaken answer changes nothing. -/
def Obligations.GyroSamplesAreIntegrated : Prop :=
  ∀ (s : State) (yaw pitch : BitVec 16), s.part.phase = .running →
    let st := s.part.stab
    let units : Int := match st.rate with
      | .hz512 => 4
      | .hz1024 => 2
      | .hz2048 => 1
    let leak (shift : Nat) (x : Int) : Int := x - x.tdiv (2 ^ shift)
    let moved (a : StabAxis) (raw : BitVec 16) : Int :=
      leak (match a.panState with
        | .track => st.lTrack
        | .pan => st.lPan) a.acc +
      max (-32768) (min 32767 ((if a.reversed then -1 else 1) * (raw.toInt - a.bias))) * units
    let limited (a : StabAxis) (raw : BitVec 16) : Int := max (-(a.lim : Int)) (min a.lim (moved a raw))
    let integrated (a : StabAxis) (raw : BitVec 16) : StabAxis :=
      { a with acc := limited a raw, clamped := a.clamped || decide (limited a raw ≠ moved a raw) }
    let drained (a : StabAxis) : StabAxis := { a with acc := leak st.lPan a.acc }
    exec (.gyroSample .overtaken) s = .next s ∧
    (st.mode = .off → exec (.gyroSample (.valid yaw pitch)) s = .next s ∧ exec (.gyroSample .missing) s = .next s) ∧
    (st.mode = .active →
      exec (.gyroSample (.valid yaw pitch)) s = .next (s.onPart fun p =>
        { p with stab :=
          { p.stab with
            yaw := integrated st.yaw yaw
            pitch := integrated st.pitch pitch
            missingRun := 0 } }) ∧
      (st.missingRun < 7 → exec (.gyroSample .missing) s = .next (s.onPart fun p =>
        { p with stab := { p.stab with missingRun := st.missingRun + 1 } }))) ∧
    (st.mode = .hold →
      (st.validRun < 15 → exec (.gyroSample (.valid yaw pitch)) s = .next (s.onPart fun p =>
        { p with stab :=
          { p.stab with
            yaw := drained st.yaw
            pitch := drained st.pitch
            validRun := st.validRun + 1 } })) ∧
      exec (.gyroSample .missing) s = .next (s.onPart fun p =>
        { p with stab :=
          { p.stab with
            yaw := drained st.yaw
            pitch := drained st.pitch
            validRun := 0 } }))

/-- GYRO_LOST, GYRO_BACK and CAL_DONE: the eighth missing sample in a row makes ACTIVE HOLD and raises GYRO_LOST; the sixteenth
valid one in a row makes HOLD ACTIVE and raises GYRO_BACK; the 256th still sample of a calibration sets both biases to the
rounded means, returns to the former mode, raises CAL_DONE and ends the STAB_CAL DONE. Before it, in CALIBRATING, a missing
sample changes nothing, the first valid sample and each one within 640 of it on both axes is counted and summed, and one further
off on either axis ends the calibration: CAL_FAILED, the former mode, the biases as they were, FAILED with detail 1. -/
def Obligations.GyroIsLostComesBackAndIsCalibrated : Prop :=
  (∀ s : State, s.part.phase = .running →
    let st := s.part.stab
    let drained (a : StabAxis) : StabAxis := { a with acc := a.acc - a.acc.tdiv (2 ^ st.lPan) }
    (st.mode = .active → st.missingRun = 7 → exec .gyroLost s = .next (s.onPart fun p =>
      { p with
        bus := p.bus.raise .gyroLost
        stab :=
          { p.stab with
            mode := .hold
            yaw := drained st.yaw
            pitch := drained st.pitch
            validRun := 0
            missingRun := 0 } })) ∧
    (st.mode = .hold → st.validRun = 15 → exec .gyroBack s = .next (s.onPart fun p =>
      { p with
        bus := p.bus.raise .gyroBack
        stab :=
          { p.stab with
            mode := .active
            yaw := drained st.yaw
            pitch := drained st.pitch
            validRun := 0
            missingRun := 0 } })) ∧
    ∀ (yaw pitch : BitVec 16) (slot : CmdSlot) (back : Bool) (y0 p0 sy sp : Int), st.mode = .calibrating →
      st.cal = some ⟨slot, back, 255, some (y0, p0), sy, sp⟩ → (yaw.toInt - y0).natAbs ≤ 640 →
      (pitch.toInt - p0).natAbs ≤ 640 →
      exec (.calDone yaw pitch) s = .next (s.onPart fun p =>
        { p with
          bus := (p.bus.raise .calDone).finish slot .done 0
          stab :=
            { p.stab with
              mode := if back then .active else .off
              cal := none
              missingRun := 0
              yaw := { st.yaw with bias := roundDiv (sy + yaw.toInt) 256 }
              pitch := { st.pitch with bias := roundDiv (sp + pitch.toInt) 256 } } })) ∧
  ∀ (s : State) (yaw pitch : BitVec 16) (slot : CmdSlot) (back : Bool) (n : Nat) (first : Option (Int × Int)) (sy sp : Int),
    s.part.phase = .running → s.part.stab.mode = .calibrating → s.part.stab.cal = some ⟨slot, back, n, first, sy, sp⟩ →
    let near : Prop := ∀ y0 p0, first = some (y0, p0) → (yaw.toInt - y0).natAbs ≤ 640 ∧ (pitch.toInt - p0).natAbs ≤ 640
    exec (.gyroSample .missing) s = .next s ∧
    (near → n < 255 → exec (.gyroSample (.valid yaw pitch)) s = .next (s.onPart fun p =>
      { p with stab := { p.stab with
        cal := some ⟨slot, back, n + 1, some (first.getD (yaw.toInt, pitch.toInt)), sy + yaw.toInt, sp + pitch.toInt⟩ } })) ∧
    (¬near → exec (.gyroSample (.valid yaw pitch)) s = .next (s.onPart fun p =>
      { p with
        bus := (p.bus.raise .calFailed).finish slot .failed 1
        stab := { p.stab with mode := if back then .active else .off, cal := none, missingRun := 0 } }))

/-- AXIS_STEP of a MOVING axis moves it one position in its direction; a move that reaches its target becomes IDLE, raises its
factor and ends DONE, and otherwise the step ends with the decision of the ramp. HOMING_FAIL at the step budget makes the axis
FAULT and ends the HOME FAILED with detail 1. A homing leg's step with the sensor active sets the home value. DWELL_EXPIRE
starts the motion that waits. Here no comparator is on, no move waits and tracking is off. The decision, for the cap c, its
index kc (the least k with v(k) at or above c) and R steps left: k falls by one in DECEL where R is at most k or k is past kc;
else k rises by one where R is above k + 1 and k below kc, into CRUISE at kc and ACCEL before it; else k stays in CRUISE; the
speed is the lower of c and v(k). -/
def Obligations.AxesStepTowardTheirGoal : Prop :=
  (∀ (s : State) (n : AxisName) (sensor : Bool) (k : CmdSlot), s.part.lens.zoom.pendingMove = none →
    s.part.lens.focus.pendingMove = none → s.part.lens.coord.tracking = false → s.part.lens.coord.suspended = false →
    let ax := s.part.lens.axis n
    ax.cmpA.cond = .off → ax.cmpB.cond = .off → ax.cmpA.met = false → ax.cmpB.met = false → ax.holder = some (.host k) →
    let pos' : Nat := match ax.motionDir with
      | .up => ax.pos.getD 0 + 1
      | .down => ax.pos.getD 0 - 1
    let done (outs : List Out) (a : StepAxis) : Host.Outcome State Fault Refusal := .next (s.onPart fun p =>
      { p with bus := p.bus.meetAll outs, lens := p.lens.setAxis n a })
    let now : StepAxis := { ax with sensor := sensor }
    let stepped : StepAxis := { now with pos := some pos', dir := some ax.motionDir }
    (∀ t, ax.state = .moving → ax.goal = .moveTo t →
      (pos' = t → exec (.axisStep n sensor) s = done [.raise (match n with
          | .zoom => .zoomDone
          | .focus => .focusDone), .finish k .done 0] { stepped.rest .idle with holder := none }) ∧
      (pos' ≠ t → exec (.axisStep n sensor) s = done [] stepped.decideNext)) ∧
    (∀ steps, ax.state = .homing → ax.homing = some (.leg true steps false) → sensor = false →
      s.part.lens.range n * 11 / 10 ≤ steps + 1 →
      ∃ a, exec (.homingFail n sensor) s = done [.raise .axisFault, .finish k .failed 1] a ∧ a.state = .fault ∧
        a.pos = none ∧ a.holder = none ∧ a.low = ax.low ∧ a.high = ax.high) ∧
    (∀ steps, ax.state = .homing → ax.homing = some (.leg true steps false) → sensor = true →
      ∃ a, exec (.axisStep n sensor) s = done [.raise .homeDone, .finish k .done 0] a ∧ a.state = .idle ∧
        a.pos = some (s.part.lens.homeValue n) ∧ a.holder = none ∧ a.homing = none ∧ a.sensor = true) ∧
    (ax.state = .dwell →
      ∃ a, exec (.dwellExpire n) s = .next (s.onPart fun p => { p with lens := p.lens.setAxis n a }) ∧
        a.state = .moving ∧ a.motionDir = ax.motionDir ∧ a.goal = ax.goal ∧ a.k = 0 ∧ a.speed = ax.vStart ∧
        a.pos = ax.pos ∧ a.holder = ax.holder)) ∧
  ∀ (a : StepAxis) (kc : Nat), 1 ≤ a.ramp → a.vStart ≤ a.vMax →
    let v (k : Nat) : Nat := a.vStart + (a.vMax - a.vStart) * k / a.ramp
    let own := if a.ownCap = 0 then a.vMax else min a.vMax a.ownCap
    let c := max a.vStart (if a.quiet = true then min own a.quietCap else own)
    c ≤ v kc → (∀ k < kc, v k < c) →
    let pos := a.pos.getD 0
    let left : Option Nat := match a.goal with
      | .moveTo t => some ((t : Int) - pos).natAbs
      | .stopAt p _ => some (p - pos).natAbs
      | .jog =>
        match a.action, a.motionDir with
        | .clamp, .up => some ((a.high : Int) - pos).natAbs
        | .clamp, .down => some ((a.low : Int) - pos).natAbs
        | .halt, _ => none
      | .none => none
    let close : Prop := (∃ r, left = some r ∧ r ≤ a.k) ∨ kc < a.k
    let faster : Prop := (∀ r, left = some r → a.k + 1 < r) ∧ a.k < kc
    let next (k : Nat) (phase : Phase) : StepAxis := { a with k := k, phase := phase, speed := min c (v k) }
    (close → a.decideNext = next (a.k - 1) .decel) ∧
    (¬close → faster → a.decideNext = next (a.k + 1) (if a.k + 1 = kc then .cruise else .accel)) ∧
    (¬close → ¬faster → a.decideNext = next a.k .cruise)

/-- ROCKER_SAMPLE from INIT_DONE on: a level as before changes nothing; from CENTRE out of the dead band a zoom that is IDLE,
WAITING, MOVING or in DWELL is taken, its command and its pending move ending ABORTED, and jogs by the level, and a zoom that is
not homed puts the rocker in LOCKOUT; from HOLD back in the dead band a moving zoom stops by deceleration, one that dwells becomes
IDLE with ZOOM_DONE (the model's reading, log 50) and one that is IDLE is let go; in HOLD a new level outside the dead band renews
the jog. A jog runs on the same way with its new speed, turns through a stop by deceleration or a dwell, and makes no motion on the
limit ahead, where a zoom that was WAITING or in DWELL becomes IDLE (the model's reading, log 30; here no focus move waits);
LOCKOUT ends in the dead band. That a start leaves the zoom at its old position (log 11), and that a stop by deceleration keeps the
own cap of the former jog or move (log 71), are the model's choices. -/
def Obligations.TheRockerTakesAndReleasesTheZoom : Prop :=
  ∀ (s : State) (level : Byte), s.part.phase = .running → s.part.lens.coord.sampled = true →
    let l := level.toNat
    let c := s.part.lens.coord
    let z := s.part.lens.zoom
    let inBand : Prop := 120 ≤ l ∧ l ≤ 136
    let d : Dir := if 128 < l then .up else .down
    let speed := max z.vStart (min z.vMax ((2 * ((((l : Int) - 128).natAbs - 8) * z.vMax) + 119) / 238))
    let onLimit : Prop := (d = .up ∧ z.high ≤ z.pos.getD 0) ∨ (d = .down ∧ z.pos.getD 0 ≤ z.low)
    let done (outs : List Out) (r : RockerState) (a : StepAxis) : Host.Outcome State Fault Refusal := .next (s.onPart fun p =>
      { p with
        bus := p.bus.meetAll outs
        lens := { p.lens with
          zoom := a
          coord := { p.lens.coord with
            level := l
            rocker := r } } })
    let jogs (outs : List Out) (held : StepAxis) : Prop :=
      let took (a : StepAxis) : Prop := exec (.rockerSample level) s = done outs .hold a
      let fresh : StepAxis :=
        { held with
          state := .moving
          goal := .jog
          ownCap := speed
          motionDir := d
          k := 0
          speed := z.vStart
          homing := none }
      (z.state = .moving →
        (z.motionDir = d → took { held with goal := .jog, ownCap := speed }) ∧
        (z.motionDir ≠ d →
          (∀ p x, z.goal = .stopAt p x → took { held with goal := .stopAt p (.jogOn d speed) }) ∧
          ((∀ p x, z.goal ≠ .stopAt p x) → took { held with goal := .stopAt z.stopPoint (.jogOn d speed) }))) ∧
      (onLimit →
        (z.state = .idle → took held) ∧
        (z.state = .waiting ∨ z.state = .dwell → s.part.lens.focus.pendingMove = none → took (held.rest .idle))) ∧
      (¬onLimit →
        (z.state = .dwell → z.motionDir = d → took { held with goal := .jog, ownCap := speed }) ∧
        (z.state = .idle ∨ z.state = .waiting ∨ (z.state = .dwell ∧ z.motionDir ≠ d) →
          (z.dir ≠ none ∧ z.dir ≠ some d ∧ 0 < z.dwell →
            took { held with state := .dwell, goal := .jog, ownCap := speed, motionDir := d }) ∧
          (z.dir = none ∨ z.dir = some d ∨ z.dwell = 0 →
            took { fresh with phase := if 0 < fresh.capIndex then .accel else .cruise })))
    (l = c.level → exec (.rockerSample level) s = done [] c.rocker z) ∧
    (l ≠ c.level →
      (c.rocker = .off ∨ (c.rocker = .centre ∧ inBand) ∨ (c.rocker = .lockout ∧ ¬inBand) →
        exec (.rockerSample level) s = done [] c.rocker z) ∧
      (c.rocker = .lockout → inBand → exec (.rockerSample level) s = done [] .centre z) ∧
      (c.rocker = .centre → ¬inBand →
        (z.state = .unhomed ∨ z.state = .homing ∨ z.state = .fault →
          exec (.rockerSample level) s = done [] .lockout z) ∧
        jogs (z.ended .aborted) { z with holder := some .request, pendingMove := none }) ∧
      (c.rocker = .hold → inBand → z.state = .moving →
        ((∀ p x, z.goal ≠ .stopAt p x) → exec (.rockerSample level) s = done [] .centre
          { z with goal := .stopAt z.stopPoint .rest, holder := some .request }) ∧
        ∀ p x, z.goal = .stopAt p x → exec (.rockerSample level) s = done [] .centre
          { z with goal := .stopAt p .rest, holder := some .request }) ∧
      (c.rocker = .hold → inBand → z.state = .idle →
        exec (.rockerSample level) s = done [] .centre { z with holder := none }) ∧
      (c.rocker = .hold → inBand → z.state = .dwell → s.part.lens.focus.pendingMove = none →
        exec (.rockerSample level) s = done [.raise .zoomDone] .centre { z.rest .idle with holder := none }) ∧
      (c.rocker = .hold → ¬inBand → jogs [] { z with holder := some .request }))

/-- REC_BUTTON_PRESS and REC_BUTTON_RELEASE: fewer than 20 readings in a row that differ from the debounced state only advance
the run count; 20 change the state. A press acted on raises GRIP_REC and is a toggle: disregarded in IDLE, and as a start while an
eject is in progress; in STANDBY without pre-record it arms with no slot; in ARMED it returns to STANDBY, the start there ending
ABORTED; in RECORDING it stops with no slot; while a clip closes it becomes the pending start where there is none. One with the
enable off or the lockout set raises nothing; a release clears the lockout. -/
def Obligations.TheRecButtonIsDebounced : Prop :=
  ∀ (s : State) (n : Nat), s.part.phase = .running → 0 < n →
    let c := s.part.lens.coord
    let card := s.part.recd.card
    let done (bus : Bus) (f : Coordinator → Coordinator) : Host.Outcome State Fault Refusal := .next (s.onPart fun p =>
      { p with bus := bus, lens := { p.lens with coord := f p.lens.coord } })
    let toggled (asked : List Out) (f : CardEngine → CardEngine) (quiet : Bool) : Host.Outcome State Fault Refusal :=
      .next (s.onPart fun p =>
        { p with
          bus := (p.bus.raise .gripRec).meetAll asked
          lens := { p.lens with
            zoom := { p.lens.zoom with quiet := quiet }
            coord := { p.lens.coord with recPressed := true, recRun := 0, recLockout := false } }
          recd := { p.recd with card := f p.recd.card } })
    let quiet := s.part.lens.zoom.quiet
    (c.recPressed = false → c.recRun + n < 20 →
      exec (.recButtonPress n) s = done s.part.bus fun c => { c with recRun := c.recRun + n }) ∧
    (c.recPressed = false → 20 ≤ c.recRun + n →
      (c.recEnable = false ∨ c.recLockout = true → exec (.recButtonPress n) s = done s.part.bus fun c =>
        { c with recPressed := true, recRun := 0 }) ∧
      (c.recEnable = true → c.recLockout = false →
        (card.recState = .idle → card.Quiet →
          exec (.recButtonPress n) s = done (s.part.bus.raise .gripRec) fun c =>
            { c with recPressed := true, recRun := 0, recLockout := false }) ∧
        (card.recState = .standby → card.Quiet →
          (card.ejectSlot ≠ none → exec (.recButtonPress n) s = toggled [] id quiet) ∧
          (card.ejectSlot = none → s.part.recd.ring.hasRetained = false → exec (.recButtonPress n) s =
            toggled [.status] (fun c => { c with recState := .armed, startSlot := none }) true)) ∧
        (card.recState = .armed → card.Quiet →
          (card.startSlot = none → exec (.recButtonPress n) s =
            toggled [.status] (fun c => { c with recState := .standby }) false) ∧
          ∀ k, card.startSlot = some k → exec (.recButtonPress n) s =
            toggled [.status, .finish k .aborted 0] (fun c => { c with recState := .standby, startSlot := none }) false) ∧
        ∀ k : OpenClip, card.Waits k →
          (card.recState = .recording → exec (.recButtonPress n) s =
            toggled [.status, .raise .recStopped] (fun c => { c with recState := .stopping, stopSlot := none }) true) ∧
          (card.recState = .stopping ∨ card.recState = .closing →
            (card.ejectSlot ≠ none ∨ card.pendingStart ≠ none → exec (.recButtonPress n) s = toggled [] id quiet) ∧
            (card.ejectSlot = none → card.pendingStart = none → exec (.recButtonPress n) s =
              toggled [] (fun c => { c with pendingStart := some .toggle }) quiet)))) ∧
    (c.recPressed = true → exec (.recButtonPress n) s = done s.part.bus fun c => { c with recRun := 0 }) ∧
    (c.recPressed = true → c.recRun + n < 20 →
      exec (.recButtonRelease n) s = done s.part.bus fun c => { c with recRun := c.recRun + n }) ∧
    (c.recPressed = true → 20 ≤ c.recRun + n → exec (.recButtonRelease n) s = done s.part.bus fun c =>
      { c with recPressed := false, recRun := 0, recLockout := false }) ∧
    (c.recPressed = false → exec (.recButtonRelease n) s = done s.part.bus fun c => { c with recRun := 0 })

/-- CARD_INSERTION and CARD_REMOVAL: fewer than 100 samples in a row that differ from the debounced state only advance the run
count, and samples that agree with it set the run count to 0 (here the card engine has nothing to do by itself). An insertion begins a mount with an IDENT, unless INIT_DONE is not raised or the map is in the conflict state; that the
IDENT is in flight within the insertion itself is the model's choice (log 46). A removal while a clip is open raises CARD_OUT and
gives the clip up; of a mounted card at rest it raises CARD_OUT; both leave the card ABSENT, the record state IDLE and the
ejected flag clear. -/
def Obligations.CardsAreMountedAndRemoved : Prop :=
  ∀ (s : State) (n : Nat), 0 < n →
    let c := s.part.recd.card
    let counted (run : Nat) : Host.Outcome State Fault Refusal := .next (s.onPart fun p =>
      { p with recd := { p.recd with card := { p.recd.card with detectRun := run } } })
    (c.Rests → c.detectRun + n < 100 →
      (c.present = false → exec (.cardInsertion n) s = counted (c.detectRun + n)) ∧
      (c.present = true → exec (.cardRemoval n) s = counted (c.detectRun + n))) ∧
    (c.Rests → (c.present = true → exec (.cardInsertion n) s = counted 0) ∧
      (c.present = false → exec (.cardRemoval n) s = counted 0)) ∧
    (c.Quiet → c.present = false → 100 ≤ c.detectRun + n → c.state = .absent → c.recState = .idle → c.ejected = false →
      c.request = none →
      (s.part.phase ≠ .running ∨ s.part.map.conflict = true → exec (.cardInsertion n) s = .next (s.onPart fun p =>
        { p with recd := { p.recd with card := { p.recd.card with present := true, detectRun := 0 } } })) ∧
      (s.part.phase = .running → s.part.map.conflict = false → c.inFlight = none →
        exec (.cardInsertion n) s = .next (s.onPart fun p =>
          { p with
            bus := p.bus.requestStatus
            recd := { p.recd with card :=
              { p.recd.card with
                present := true
                detectRun := 0
                state := .mounting
                inFlight := some ⟨.ident, false⟩ } } }))) ∧
    (c.present = true → 100 ≤ c.detectRun + n → (c.recState = .standby → c.state ≠ .absent) →
      (c.recState = .idle ∨ c.recState = .standby ∨ c.recState = .armed → c.clip = none) →
      ∃ t, exec (.cardRemoval n) s = .next t ∧ t.mem = s.mem ∧ t.part.recd.card.present = false ∧
        t.part.recd.card.state = .absent ∧ t.part.recd.card.recState = .idle ∧ t.part.recd.card.ejected = false ∧
        t.part.recd.card.mirror = none ∧
        t.part.recd.card.inFlight = c.inFlight.map (fun f => { f with abandoned := true }) ∧
        (c.recState = .recording ∨ c.recState = .stopping ∨ c.recState = .closing →
          t.part.bus.report.pending &&& Factor.cardOut.bit ≠ 0 ∧ t.part.recd.card.clip = none ∧
          (∀ e ∈ t.part.recd.ring.queue, e.state = .retained)) ∧
        (c.recState = .idle ∨ c.recState = .standby → c.state ≠ .absent →
          t.part.bus.report.pending &&& Factor.cardOut.bit ≠ 0))

/-- The card's answers in a mount and a clip: IDENT gives the units and the READ of the first 256 blocks; a sound READ answer
fills the mirror; the second READ's answer ends the mount, UNFORMATTED where the directory fails its check, else with the FREE
units counted, FULL, PROTECTED or READY, and CARD_IN raised; in a mount a card of fewer than 8,192 blocks, an ERROR of a READ and
a timeout of the IDENT or a READ make the card FAULT. A batch WRITE that answers OK frees its buffer, the sixteenth also commits the unit; the first ERROR or timeout of one
keeps its data to be written again, and a second one retires the unit where it is no replacement. The OK of the opening WRITE lets
chunk bytes be read. An answer to an abandoned IDENT, READ or WRITE, or its timeout, only frees the link to the card, a late one
changes nothing, and ordinary data that is not the blocks asked for is no answer (log 35, log 48). That a READ is issued within the answer before it is the
model's (log 46), and so are the mirror image and its single PART entry (log 24, log 22). -/
def Obligations.CardAnswersAreTaken : Prop :=
  (∀ s : State,
    let c := s.part.recd.card
    let idle : Prop := c.clip = none ∧ c.dirJobs = [] ∧ c.mountCmd = none ∧ c.request = none
    let faulted (t : State) : Prop := t.part.recd.card.state = .fault ∧ t.part.recd.card.inFlight = none ∧
      t.part.bus.report.pending &&& Factor.cardFault.bit ≠ 0
    (∀ (blocks : Nat) (wp : Bool), idle → c.inFlight = some ⟨.ident, false⟩ →
      (8192 ≤ blocks → exec (.cardIdentAnswer (.inTime blocks) wp) s = .next (s.onPart fun p =>
        { p with recd := { p.recd with card :=
          { p.recd.card with
            writeProtect := wp
            unitTotal := min 65533 (blocks / 4096 - 1)
            inFlight := some ⟨.read 0 256, false⟩ } } })) ∧
      (blocks < 8192 → c.state = .mounting → ∃ t, exec (.cardIdentAnswer (.inTime blocks) wp) s = .next t ∧ faulted t)) ∧
    (∀ data : List Byte, idle → c.inFlight = some ⟨.read 0 256, false⟩ →
      (data.length = 131072 → c.mirror = none →
        ∃ t, exec (.cardReadAnswer (.inTime (some data))) s = .next t ∧ t.mem = s.mem ∧
          t.part.recd.card.inFlight = some ⟨.read 256 25, false⟩ ∧
          (∀ x < 131072, t.part.recd.card.image.read x = data.getD x 0) ∧
          t.part.bus.partQ = s.part.bus.partQ ++ [.mirror s.part.map.privBase data]) ∧
      (data.length ≠ 131072 → exec (.cardReadAnswer (.inTime (some data))) s = .refused .illFormed) ∧
      (c.state = .mounting → ∃ t, exec (.cardReadAnswer (.inTime none)) s = .next t ∧ faulted t)) ∧
    (∀ (first : Nat) (buf : BufName) (k : OpenClip), c.inFlight = some ⟨.writeBatch first buf, false⟩ → c.clip = some k →
      c.recState = .recording → k.live = true → k.finishing = false →
      (k.batchesDone + 1 < 16 → ∃ t, exec (.cardWriteAnswer (.inTime true)) s = .next t ∧ t.mem = s.mem ∧
        t.part.recd.card.clip.map OpenClip.batchesDone = some (k.batchesDone + 1) ∧
        (t.part.recd.card.buffer buf).state ≠ .writing ∧ t.part.recd.ring = s.part.recd.ring) ∧
      ((c.buffer buf).retried = false → ∀ row ∈ [Instr.cardWriteAnswer (.inTime false), Instr.cardTimeout],
        ∃ t, exec row s = .next t ∧ t.mem = s.mem ∧ (t.part.recd.card.buffer buf).retried = true ∧
          (t.part.recd.card.buffer buf).data = (c.buffer buf).data ∧ t.part.recd.card.recState = .recording ∧
          t.part.recd.card.state = c.state)) ∧
    (c.state = .mounting → idle →
      (∀ cmd ∈ [CardCmd.ident, .read 0 256, .read 256 25], c.inFlight = some ⟨cmd, false⟩ →
        ∃ t, exec .cardTimeout s = .next t ∧ faulted t) ∧
      (c.inFlight = some ⟨.read 256 25, false⟩ → ∃ t, exec (.cardReadAnswer (.inTime none)) s = .next t ∧ faulted t)) ∧
    (∀ cmd, idle → c.inFlight = some ⟨cmd, true⟩ →
      let freed (row : Instr) : Prop := exec row s = .next (s.onPart fun p =>
        { p with recd := { p.recd with card := { p.recd.card with inFlight := none } } })
      freed .cardTimeout ∧
      (cmd = .ident → ∀ blocks wp, freed (.cardIdentAnswer (.inTime blocks) wp)) ∧
      (∀ first count, cmd = .read first count →
        freed (.cardReadAnswer (.inTime none)) ∧
        ∀ data : List Byte, data.length = 512 * count → freed (.cardReadAnswer (.inTime (some data)))) ∧
      ((∃ first count, cmd = .writeDir first count) ∨ (∃ first buf, cmd = .writeBatch first buf) →
        ∀ ok, freed (.cardWriteAnswer (.inTime ok))))) ∧
  (∀ (s : State) (wp : Bool),
    exec (.cardIdentAnswer .late wp) s = .next s ∧ exec (.cardReadAnswer .late) s = .next s ∧
    exec (.cardWriteAnswer .late) s = .next s) ∧
  (∀ (s : State) (data : List Byte),
    let c := s.part.recd.card
    c.clip = none → c.dirJobs = [] → c.mountCmd = none → c.request = none → c.inFlight = some ⟨.read 256 25, false⟩ →
    data.length = 12800 → c.state = .mounting →
    let d : CardEngine := { c with mirror := some (c.image.writeBytes 131072 data) }
    let left := ((List.range c.unitTotal).map (· + 1)).countP fun u => d.image.readNat (0x3200 + 2 * u) 2 = 0
    ∃ t, exec (.cardReadAnswer (.inTime (some data))) s = .next t ∧ t.mem = s.mem ∧
      t.part.recd.card.inFlight = none ∧
      (d.directoryOk = false → t.part.recd.card.state = .unformatted ∧
        t.part.bus.report.pending &&& Factor.cardIn.bit ≠ 0) ∧
      (d.directoryOk = true → (∀ e < 96, d.entryState e ≠ 1) →
        t.part.bus.report.pending &&& Factor.cardIn.bit ≠ 0 ∧ t.part.recd.card.freeUnits = left ∧
        (left = 0 ∨ (∀ e < 96, d.entryState e ≠ 0) → t.part.recd.card.state = .full) ∧
        (left ≠ 0 → (∃ e < 96, d.entryState e = 0) →
          t.part.recd.card.state = (if c.writeProtect then CardState.writeProtected else CardState.ready)) ∧
        (t.part.recd.card.state = .ready → c.recState = .idle → t.part.recd.card.recState = .standby))) ∧
  ∀ (s : State) (k : OpenClip),
    let c := s.part.recd.card
    c.clip = some k → c.recState = .recording →
    (∀ d : DirJob, c.inFlight = some ⟨.writeDir d.first d.count, false⟩ → c.dirJobs = [d] → d.purpose = .opening →
      k.live = true →
      ∃ t, exec (.cardWriteAnswer (.inTime true)) s = .next t ∧ t.mem = s.mem ∧
        t.part.recd.card.clip.map OpenClip.opened = some true ∧ t.part.recd.card.dirJobs = []) ∧
    (∀ (first : Nat) (buf : BufName), c.inFlight = some ⟨.writeBatch first buf, false⟩ → k.live = true →
      (15 ≤ k.batchesDone → ∃ t k', exec (.cardWriteAnswer (.inTime true)) s = .next t ∧ t.mem = s.mem ∧
        t.part.recd.card.clip = some k' ∧ k'.unitCount = k.unitCount + 1 ∧ k'.byteLength = k.byteLength + k.unitBytes ∧
        k'.relocated = false ∧ k'.batchesDone = 0) ∧
      ((c.buffer buf).retried = true → k.relocated = false →
        ∀ row ∈ [Instr.cardWriteAnswer (.inTime false), Instr.cardTimeout],
        ∃ t, exec row s = .next t ∧ t.mem = s.mem ∧ t.part.bus.report.pending &&& Factor.unitRetired.bit ≠ 0 ∧
          t.part.recd.card.retired = min 4294967295 (c.retired + 1) ∧ t.part.recd.card.bufA.data = [] ∧
          t.part.recd.card.bufB.data = []) ∧
      ((c.buffer buf).retried = true → k.relocated = true →
        ∀ row ∈ [Instr.cardWriteAnswer (.inTime false), Instr.cardTimeout],
        ∃ t, exec row s = .next t ∧ t.mem = s.mem ∧ t.part.recd.card.state = .fault ∧ t.part.recd.card.clip = none ∧
          t.part.recd.card.recState = .idle ∧ t.part.bus.report.pending &&& Factor.cardFault.bit ≠ 0))

/-! ### What every step keeps -/

/-- Every step keeps the canonical form of memory; the memory after reset has it. The form is the model's own (log 4). -/
def Obligations.EveryStepKeepsTheMemoryForm : Prop :=
  State.reset.mem.wf = true ∧ ∀ s t : State, s.mem.wf = true → step s = .next t → t.mem.wf = true

/-- Every step keeps the accumulators within their limits, and at 0 in OFF and CALIBRATING. -/
def Obligations.EveryStepKeepsTheAccumulatorsBounded : Prop :=
  State.reset.part.stab.Bounded ∧ ∀ s t : State, s.part.stab.Bounded → step s = .next t → t.part.stab.Bounded

/-- Every step keeps the laws of the slot table: at most one slot FILLING, the free and completion orders exact, readers on
complete slots only; and under them a capture beat always finds the slot that its frame start claims. -/
def Obligations.EveryStepKeepsTheSlotTableSound : Prop :=
  State.reset.part.SlotsSound ∧ (∀ s t : State, s.part.SlotsSound → step s = .next t → t.part.SlotsSound) ∧
  ∀ s : State, s.part.SlotsSound → ∃ t, exec .captureWrite s = .next t

/-- Every step keeps the link port within its sixteen transactions, with a sender waiting only while it holds sixteen. -/
def Obligations.EveryStepKeepsTheLinkPortBounded : Prop :=
  State.reset.part.link.Bounded ∧ ∀ s t : State, s.part.link.Bounded → step s = .next t → t.part.link.Bounded
end

