-- ==== Sys2Proof/Laws/Memory.lean ====
section
/-! SUPPORT. The laws of memory: every operation keeps the canonical form, a read after a write to the same place gives the
value written, and a write leaves every other place alone. -/

namespace Sys2Proof.Machine

/-- Every listed address lies above `a`. -/
def Memory.above (a : Nat) (m : Memory) : Prop := ∀ c ∈ m, a < c.1

theorem Memory.wf_cons (c : Host.Cell) (m : Memory) :
    Memory.wf (c :: m) = true ↔ c.2 ≠ Memory.unlisted ∧ Memory.above c.1 m ∧ Memory.wf m = true := by
  induction m generalizing c with
  | nil => simp [Memory.wf, Memory.above]
  | cons d m ih =>
    simp only [Memory.wf, Bool.and_eq_true, decide_eq_true_eq, Memory.above]
    constructor
    · rintro ⟨⟨h, hne⟩, hw⟩
      refine ⟨hne, ?_, hw⟩
      intro x hx
      rcases List.mem_cons.mp hx with rfl | hx
      · exact h
      · exact lt_trans h (((ih d).mp hw).2.1 x hx)
    · rintro ⟨hne, hab, hw⟩
      exact ⟨⟨hab d (List.mem_cons_self ..), hne⟩, hw⟩

theorem Memory.above_write {lo : Nat} {m : Memory} (h : Memory.above lo m) {a : Nat} (ha : lo < a) (b : Byte) :
    Memory.above lo (m.write a b) := by
  induction m with
  | nil =>
    intro c hc
    unfold Memory.write at hc
    split at hc
    · simp at hc
    · simp at hc; rw [hc]; exact ha
  | cons d m ih =>
    have hd : lo < d.1 := h d (List.mem_cons_self ..)
    have hm : Memory.above lo m := fun c hc => h c (List.mem_cons_of_mem _ hc)
    intro c hc
    unfold Memory.write at hc
    split at hc
    · split at hc
      · exact h c hc
      · rcases List.mem_cons.mp hc with rfl | hc
        · exact ha
        · exact h c hc
    · split at hc
      · split at hc
        · exact hm c hc
        · rcases List.mem_cons.mp hc with rfl | hc
          · exact ha
          · exact hm c hc
      · rcases List.mem_cons.mp hc with rfl | hc
        · exact hd
        · exact ih hm c hc

/-- A write keeps the canonical form. -/
theorem Memory.wf_write {m : Memory} (h : m.wf = true) (a : Nat) (b : Byte) : (m.write a b).wf = true := by
  induction m with
  | nil =>
    unfold Memory.write
    split
    · rfl
    · simp [Memory.wf, *]
  | cons d m ih =>
    obtain ⟨hne, hab, hm⟩ := (Memory.wf_cons d m).mp h
    unfold Memory.write
    split
    · split
      · exact h
      · rename_i hlt hb
        refine (Memory.wf_cons _ _).mpr ⟨hb, ?_, h⟩
        intro c hc
        rcases List.mem_cons.mp hc with rfl | hc
        · exact hlt
        · exact lt_trans hlt (hab c hc)
    · split
      · rename_i hlt heq
        split
        · exact hm
        · rename_i hb
          refine (Memory.wf_cons _ _).mpr ⟨hb, ?_, hm⟩
          intro c hc; simpa [heq] using hab c hc
      · rename_i hlt hne'
        exact (Memory.wf_cons _ _).mpr ⟨hne, Memory.above_write hab (by omega) b, ih hm⟩

theorem Memory.wf_writeBytes {m : Memory} (h : m.wf = true) (a : Nat) (bs : List Byte) : (m.writeBytes a bs).wf = true := by
  induction bs generalizing m a with
  | nil => exact h
  | cons b bs ih => exact ih (Memory.wf_write h a b) (a + 1)

theorem Memory.wf_writeMasked {m : Memory} (h : m.wf = true) (a : Nat) (bs : List Byte) (es : List Bool) :
    (m.writeMasked a bs es).wf = true := by
  induction bs generalizing m a es with
  | nil => cases es <;> exact h
  | cons b bs ih =>
    cases es with
    | nil => exact h
    | cons e es =>
      unfold Memory.writeMasked
      cases e
      · exact ih h (a + 1) es
      · exact ih (Memory.wf_write h a b) (a + 1) es

/-- The memory after reset has the canonical form. -/
theorem State.reset_mem_wf : State.reset.mem.wf = true := rfl

theorem Memory.read_above {a : Nat} {m : Memory} (h : Memory.above a m) : m.read a = Memory.unlisted := by
  induction m with
  | nil => rfl
  | cons d m ih =>
    have : d.1 ≠ a := by have := h d (List.mem_cons_self ..); omega
    simp [Memory.read, this, ih fun c hc => h c (List.mem_cons_of_mem _ hc)]

/-- What is read at an address after a write (R17): the byte written there, the old byte elsewhere. -/
theorem Memory.read_write {m : Memory} (h : m.wf = true) (a : Nat) (b : Byte) (x : Nat) :
    (m.write a b).read x = if x = a then b else m.read x := by
  induction m with
  | nil =>
    unfold Memory.write
    split
    · rename_i hb; simp [Memory.read, hb]
    · by_cases hx : x = a
      · simp [Memory.read, hx]
      · simp [Memory.read, hx, Ne.symm hx]
  | cons d m ih =>
    obtain ⟨hne, hab, hm⟩ := (Memory.wf_cons d m).mp h
    have habove {y : Nat} (hy : y ≤ d.1) : Memory.read m y = Memory.unlisted :=
      Memory.read_above fun c hc => lt_of_le_of_lt hy (hab c hc)
    unfold Memory.write
    split
    · rename_i hlt
      split
      · rename_i hb
        by_cases hx : x = a
        · subst hx
          have : d.1 ≠ x := by omega
          simp [Memory.read, this, habove (le_of_lt hlt), hb]
        · simp [hx]
      · by_cases hx : x = a
        · simp [Memory.read, hx]
        · simp [Memory.read, hx, Ne.symm hx]
    · split
      · rename_i hlt heq
        subst heq
        split
        · rename_i hb
          by_cases hx : x = d.1
          · subst hx; simp [habove (le_refl _), hb]
          · simp [Memory.read, hx, Ne.symm hx]
        · by_cases hx : x = d.1
          · simp [Memory.read, hx]
          · simp [Memory.read, hx, Ne.symm hx]
      · rename_i hlt hne'
        by_cases hd : d.1 = x
        · have : x ≠ a := by omega
          simp [Memory.read, hd, this]
        · simp [Memory.read, hd, ih hm]

/-- What is read at an address after a run of bytes is written. -/
theorem Memory.read_writeBytes {m : Memory} (h : m.wf = true) (a : Nat) (bs : List Byte) (x : Nat) :
    (m.writeBytes a bs).read x = if a ≤ x ∧ x < a + bs.length then bs.getD (x - a) 0 else m.read x := by
  induction bs generalizing m a with
  | nil =>
    have : ¬(a ≤ x ∧ x < a + ([] : List Byte).length) := by simp
    simp only [Memory.writeBytes, if_neg this]
  | cons b bs ih =>
    rw [Memory.writeBytes, ih (Memory.wf_write h a b), Memory.read_write h]
    rcases Nat.lt_trichotomy x a with hx | hx | hx
    · have h1 : ¬(a + 1 ≤ x ∧ x < a + 1 + bs.length) := by omega
      have h2 : ¬(a ≤ x ∧ x < a + (b :: bs).length) := by omega
      have h3 : x ≠ a := by omega
      rw [if_neg h1, if_neg h2, if_neg h3]
    · subst hx
      have h1 : ¬(x + 1 ≤ x ∧ x < x + 1 + bs.length) := by omega
      have h2 : x ≤ x ∧ x < x + (b :: bs).length := by simp
      rw [if_neg h1, if_pos h2, if_pos rfl]; simp
    · by_cases hb : x < a + 1 + bs.length
      · have h1 : a + 1 ≤ x ∧ x < a + 1 + bs.length := by omega
        have h2 : a ≤ x ∧ x < a + (b :: bs).length := by simp; omega
        rw [if_pos h1, if_pos h2]
        obtain ⟨k, hk⟩ : ∃ k, x - a = k + 1 := ⟨x - a - 1, by omega⟩
        have hk' : x - (a + 1) = k := by omega
        rw [hk, hk']; simp
      · have h1 : ¬(a + 1 ≤ x ∧ x < a + 1 + bs.length) := by omega
        have h2 : ¬(a ≤ x ∧ x < a + (b :: bs).length) := by simp; omega
        have h3 : x ≠ a := by omega
        rw [if_neg h1, if_neg h2, if_neg h3]

/-- What is read at an address after a beat's enabled bytes are written. -/
theorem Memory.read_writeMasked {m : Memory} (h : m.wf = true) (a : Nat) (bs : List Byte) (es : List Bool)
    (he : es.length = bs.length) (x : Nat) :
    (m.writeMasked a bs es).read x =
      if a ≤ x ∧ x < a + bs.length ∧ es.getD (x - a) false = true then bs.getD (x - a) 0 else m.read x := by
  induction bs generalizing m a es with
  | nil =>
    have : ¬(a ≤ x ∧ x < a + ([] : List Byte).length ∧ es.getD (x - a) false = true) := by simp; omega
    rw [if_neg this]; cases es <;> rfl
  | cons b bs ih =>
    cases es with
    | nil => simp at he
    | cons e es =>
      have he' : es.length = bs.length := by simpa using he
      have hw : (if e then m.write a b else m).wf = true := by
        cases e
        · exact h
        · exact Memory.wf_write h a b
      rw [Memory.writeMasked, ih hw (a + 1) es he']
      have hread (hx : x ≠ a) : (if e then m.write a b else m).read x = m.read x := by
        cases e
        · rfl
        · simp [Memory.read_write h, hx]
      rcases Nat.lt_trichotomy x a with hx | hx | hx
      · have h1 : ¬(a + 1 ≤ x ∧ x < a + 1 + bs.length ∧ es.getD (x - (a + 1)) false = true) := by omega
        have h2 : ¬(a ≤ x ∧ x < a + (b :: bs).length ∧ (e :: es).getD (x - a) false = true) := by omega
        rw [if_neg h1, if_neg h2, hread (by omega)]
      · subst hx
        have h1 : ¬(x + 1 ≤ x ∧ x < x + 1 + bs.length ∧ es.getD (x - (x + 1)) false = true) := by omega
        rw [if_neg h1]
        cases e <;> simp [Memory.read_write h]
      · obtain ⟨k, hk⟩ : ∃ k, x - a = k + 1 := ⟨x - a - 1, by omega⟩
        have hk' : x - (a + 1) = k := by omega
        have hiff : (a + 1 ≤ x ∧ x < a + 1 + bs.length ∧ es.getD (x - (a + 1)) false = true) ↔
            (a ≤ x ∧ x < a + (b :: bs).length ∧ (e :: es).getD (x - a) false = true) := by
          rw [hk, hk']
          simp only [List.length_cons, List.getD_cons_succ]
          constructor <;> rintro ⟨h1, h2, h3⟩ <;> exact ⟨by omega, by omega, h3⟩
        simp only [hiff, hread (by omega : x ≠ a)]
        rw [hk, hk']; simp

end Sys2Proof.Machine
end

