-- ==== Sys2Proof/Laws/State.lean ====
section
/-! SUPPORT. One lemma for each field and each update of the part, the machine, the bus and a block at work, so that no
proof unfolds a record update. -/

namespace Sys2Proof.Machine


/-! `Part.raise` -/

@[simp] theorem Part.raise_phase (f : Factor) (p : Part) : (Part.raise f p).phase = p.phase := rfl
@[simp] theorem Part.raise_bus (f : Factor) (p : Part) : (Part.raise f p).bus = p.bus.raise f := rfl
@[simp] theorem Part.raise_link (f : Factor) (p : Part) : (Part.raise f p).link = p.link := rfl
@[simp] theorem Part.raise_map (f : Factor) (p : Part) : (Part.raise f p).map = p.map := rfl
@[simp] theorem Part.raise_lastGrant (f : Factor) (p : Part) : (Part.raise f p).lastGrant = p.lastGrant := rfl
@[simp] theorem Part.raise_slots (f : Factor) (p : Part) : (Part.raise f p).slots = p.slots := rfl
@[simp] theorem Part.raise_stab (f : Factor) (p : Part) : (Part.raise f p).stab = p.stab := rfl
@[simp] theorem Part.raise_lens (f : Factor) (p : Part) : (Part.raise f p).lens = p.lens := rfl
@[simp] theorem Part.raise_recd (f : Factor) (p : Part) : (Part.raise f p).recd = p.recd := rfl
@[simp] theorem Part.raise_audio (f : Factor) (p : Part) : (Part.raise f p).audio = p.audio := rfl
@[simp] theorem Part.raise_overlay (f : Factor) (p : Part) : (Part.raise f p).overlay = p.overlay := rfl
@[simp] theorem Part.raise_choices (f : Factor) (p : Part) : (Part.raise f p).choices = p.choices := rfl

/-! `Part.status` -/

@[simp] theorem Part.status_phase (p : Part) : (Part.status p).phase = p.phase := rfl
@[simp] theorem Part.status_bus (p : Part) : (Part.status p).bus = p.bus.requestStatus := rfl
@[simp] theorem Part.status_link (p : Part) : (Part.status p).link = p.link := rfl
@[simp] theorem Part.status_map (p : Part) : (Part.status p).map = p.map := rfl
@[simp] theorem Part.status_lastGrant (p : Part) : (Part.status p).lastGrant = p.lastGrant := rfl
@[simp] theorem Part.status_slots (p : Part) : (Part.status p).slots = p.slots := rfl
@[simp] theorem Part.status_stab (p : Part) : (Part.status p).stab = p.stab := rfl
@[simp] theorem Part.status_lens (p : Part) : (Part.status p).lens = p.lens := rfl
@[simp] theorem Part.status_recd (p : Part) : (Part.status p).recd = p.recd := rfl
@[simp] theorem Part.status_audio (p : Part) : (Part.status p).audio = p.audio := rfl
@[simp] theorem Part.status_overlay (p : Part) : (Part.status p).overlay = p.overlay := rfl
@[simp] theorem Part.status_choices (p : Part) : (Part.status p).choices = p.choices := rfl

/-! `Part.linkRequest` -/

@[simp] theorem Part.linkRequest_phase (r : LinkReq) (p : Part) : (Part.linkRequest r p).phase = p.phase := rfl
@[simp] theorem Part.linkRequest_bus (r : LinkReq) (p : Part) : (Part.linkRequest r p).bus = p.bus := rfl
@[simp] theorem Part.linkRequest_link (r : LinkReq) (p : Part) : (Part.linkRequest r p).link = { p.link with request := some r } := rfl
@[simp] theorem Part.linkRequest_map (r : LinkReq) (p : Part) : (Part.linkRequest r p).map = p.map := rfl
@[simp] theorem Part.linkRequest_lastGrant (r : LinkReq) (p : Part) : (Part.linkRequest r p).lastGrant = p.lastGrant := rfl
@[simp] theorem Part.linkRequest_slots (r : LinkReq) (p : Part) : (Part.linkRequest r p).slots = p.slots := rfl
@[simp] theorem Part.linkRequest_stab (r : LinkReq) (p : Part) : (Part.linkRequest r p).stab = p.stab := rfl
@[simp] theorem Part.linkRequest_lens (r : LinkReq) (p : Part) : (Part.linkRequest r p).lens = p.lens := rfl
@[simp] theorem Part.linkRequest_recd (r : LinkReq) (p : Part) : (Part.linkRequest r p).recd = p.recd := rfl
@[simp] theorem Part.linkRequest_audio (r : LinkReq) (p : Part) : (Part.linkRequest r p).audio = p.audio := rfl
@[simp] theorem Part.linkRequest_overlay (r : LinkReq) (p : Part) : (Part.linkRequest r p).overlay = p.overlay := rfl
@[simp] theorem Part.linkRequest_choices (r : LinkReq) (p : Part) : (Part.linkRequest r p).choices = p.choices := rfl

/-! `Part.endBeat` -/

@[simp] theorem Part.endBeat_phase (d : Option (List Byte)) (e : Bool) (p : Part) : (Part.endBeat d e p).phase = p.phase := rfl
@[simp] theorem Part.endBeat_bus (d : Option (List Byte)) (e : Bool) (p : Part) : (Part.endBeat d e p).bus = p.bus := rfl
@[simp] theorem Part.endBeat_link (d : Option (List Byte)) (e : Bool) (p : Part) : (Part.endBeat d e p).link = p.link.endBeat d e := rfl
@[simp] theorem Part.endBeat_map (d : Option (List Byte)) (e : Bool) (p : Part) : (Part.endBeat d e p).map = p.map := rfl
@[simp] theorem Part.endBeat_lastGrant (d : Option (List Byte)) (e : Bool) (p : Part) : (Part.endBeat d e p).lastGrant = p.lastGrant := rfl
@[simp] theorem Part.endBeat_slots (d : Option (List Byte)) (e : Bool) (p : Part) : (Part.endBeat d e p).slots = p.slots := rfl
@[simp] theorem Part.endBeat_stab (d : Option (List Byte)) (e : Bool) (p : Part) : (Part.endBeat d e p).stab = p.stab := rfl
@[simp] theorem Part.endBeat_lens (d : Option (List Byte)) (e : Bool) (p : Part) : (Part.endBeat d e p).lens = p.lens := rfl
@[simp] theorem Part.endBeat_recd (d : Option (List Byte)) (e : Bool) (p : Part) : (Part.endBeat d e p).recd = p.recd := rfl
@[simp] theorem Part.endBeat_audio (d : Option (List Byte)) (e : Bool) (p : Part) : (Part.endBeat d e p).audio = p.audio := rfl
@[simp] theorem Part.endBeat_overlay (d : Option (List Byte)) (e : Bool) (p : Part) : (Part.endBeat d e p).overlay = p.overlay := rfl
@[simp] theorem Part.endBeat_choices (d : Option (List Byte)) (e : Bool) (p : Part) : (Part.endBeat d e p).choices = p.choices := rfl

/-! `Part.requeue` -/

@[simp] theorem Part.requeue_phase (r : PartReq) (p : Part) : (Part.requeue r p).phase = p.phase := rfl
@[simp] theorem Part.requeue_link (r : PartReq) (p : Part) : (Part.requeue r p).link = p.link := rfl
@[simp] theorem Part.requeue_map (r : PartReq) (p : Part) : (Part.requeue r p).map = p.map := rfl
@[simp] theorem Part.requeue_lastGrant (r : PartReq) (p : Part) : (Part.requeue r p).lastGrant = p.lastGrant := rfl
@[simp] theorem Part.requeue_slots (r : PartReq) (p : Part) : (Part.requeue r p).slots = p.slots := rfl
@[simp] theorem Part.requeue_stab (r : PartReq) (p : Part) : (Part.requeue r p).stab = p.stab := rfl
@[simp] theorem Part.requeue_lens (r : PartReq) (p : Part) : (Part.requeue r p).lens = p.lens := rfl
@[simp] theorem Part.requeue_recd (r : PartReq) (p : Part) : (Part.requeue r p).recd = p.recd := rfl
@[simp] theorem Part.requeue_audio (r : PartReq) (p : Part) : (Part.requeue r p).audio = p.audio := rfl
@[simp] theorem Part.requeue_overlay (r : PartReq) (p : Part) : (Part.requeue r p).overlay = p.overlay := rfl
@[simp] theorem Part.requeue_choices (r : PartReq) (p : Part) : (Part.requeue r p).choices = p.choices := rfl

/-! `Part.dequeue` -/

@[simp] theorem Part.dequeue_phase (p : Part) : (Part.dequeue p).phase = p.phase := rfl
@[simp] theorem Part.dequeue_link (p : Part) : (Part.dequeue p).link = p.link := rfl
@[simp] theorem Part.dequeue_map (p : Part) : (Part.dequeue p).map = p.map := rfl
@[simp] theorem Part.dequeue_lastGrant (p : Part) : (Part.dequeue p).lastGrant = p.lastGrant := rfl
@[simp] theorem Part.dequeue_slots (p : Part) : (Part.dequeue p).slots = p.slots := rfl
@[simp] theorem Part.dequeue_stab (p : Part) : (Part.dequeue p).stab = p.stab := rfl
@[simp] theorem Part.dequeue_lens (p : Part) : (Part.dequeue p).lens = p.lens := rfl
@[simp] theorem Part.dequeue_recd (p : Part) : (Part.dequeue p).recd = p.recd := rfl
@[simp] theorem Part.dequeue_audio (p : Part) : (Part.dequeue p).audio = p.audio := rfl
@[simp] theorem Part.dequeue_overlay (p : Part) : (Part.dequeue p).overlay = p.overlay := rfl
@[simp] theorem Part.dequeue_choices (p : Part) : (Part.dequeue p).choices = p.choices := rfl

/-! `Part.takenOnly` -/

@[simp] theorem Part.takenOnly_phase (slot : CmdSlot) (kind : Byte) (v : Verdict) (p : Part) : (Part.takenOnly slot kind v p).phase = p.phase := rfl
@[simp] theorem Part.takenOnly_bus (slot : CmdSlot) (kind : Byte) (v : Verdict) (p : Part) : (Part.takenOnly slot kind v p).bus = p.bus.taken slot kind [] v 0 := rfl
@[simp] theorem Part.takenOnly_link (slot : CmdSlot) (kind : Byte) (v : Verdict) (p : Part) : (Part.takenOnly slot kind v p).link = p.link := rfl
@[simp] theorem Part.takenOnly_map (slot : CmdSlot) (kind : Byte) (v : Verdict) (p : Part) : (Part.takenOnly slot kind v p).map = p.map := rfl
@[simp] theorem Part.takenOnly_lastGrant (slot : CmdSlot) (kind : Byte) (v : Verdict) (p : Part) : (Part.takenOnly slot kind v p).lastGrant = p.lastGrant := rfl
@[simp] theorem Part.takenOnly_slots (slot : CmdSlot) (kind : Byte) (v : Verdict) (p : Part) : (Part.takenOnly slot kind v p).slots = p.slots := rfl
@[simp] theorem Part.takenOnly_stab (slot : CmdSlot) (kind : Byte) (v : Verdict) (p : Part) : (Part.takenOnly slot kind v p).stab = p.stab := rfl
@[simp] theorem Part.takenOnly_lens (slot : CmdSlot) (kind : Byte) (v : Verdict) (p : Part) : (Part.takenOnly slot kind v p).lens = p.lens := rfl
@[simp] theorem Part.takenOnly_recd (slot : CmdSlot) (kind : Byte) (v : Verdict) (p : Part) : (Part.takenOnly slot kind v p).recd = p.recd := rfl
@[simp] theorem Part.takenOnly_audio (slot : CmdSlot) (kind : Byte) (v : Verdict) (p : Part) : (Part.takenOnly slot kind v p).audio = p.audio := rfl
@[simp] theorem Part.takenOnly_overlay (slot : CmdSlot) (kind : Byte) (v : Verdict) (p : Part) : (Part.takenOnly slot kind v p).overlay = p.overlay := rfl
@[simp] theorem Part.takenOnly_choices (slot : CmdSlot) (kind : Byte) (v : Verdict) (p : Part) : (Part.takenOnly slot kind v p).choices = p.choices := rfl

/-! `Part.lensJob` and `Part.onStab` -/

@[simp] theorem Part.lensJob_phase (g : Job Lens Out → Job Lens Out) (p : Part) : (p.lensJob g).phase = p.phase := rfl
@[simp] theorem Part.lensJob_link (g : Job Lens Out → Job Lens Out) (p : Part) : (p.lensJob g).link = p.link := rfl
@[simp] theorem Part.lensJob_map (g : Job Lens Out → Job Lens Out) (p : Part) : (p.lensJob g).map = p.map := rfl
@[simp] theorem Part.lensJob_lastGrant (g : Job Lens Out → Job Lens Out) (p : Part) : (p.lensJob g).lastGrant = p.lastGrant := rfl
@[simp] theorem Part.lensJob_slots (g : Job Lens Out → Job Lens Out) (p : Part) : (p.lensJob g).slots = p.slots := rfl
@[simp] theorem Part.lensJob_stab (g : Job Lens Out → Job Lens Out) (p : Part) : (p.lensJob g).stab = p.stab := rfl
@[simp] theorem Part.lensJob_recd (g : Job Lens Out → Job Lens Out) (p : Part) : (p.lensJob g).recd = p.recd := rfl
@[simp] theorem Part.lensJob_audio (g : Job Lens Out → Job Lens Out) (p : Part) : (p.lensJob g).audio = p.audio := rfl
@[simp] theorem Part.lensJob_overlay (g : Job Lens Out → Job Lens Out) (p : Part) : (p.lensJob g).overlay = p.overlay := rfl
@[simp] theorem Part.lensJob_choices (g : Job Lens Out → Job Lens Out) (p : Part) : (p.lensJob g).choices = p.choices := rfl
@[simp] theorem Part.lensJob_lens (g : Job Lens Out → Job Lens Out) (p : Part) : (p.lensJob g).lens = (g (.start p.lens)).st := rfl
@[simp] theorem Part.lensJob_bus (g : Job Lens Out → Job Lens Out) (p : Part) : (p.lensJob g).bus = p.bus.meetAll (g (.start p.lens)).out := rfl
@[simp] theorem Part.onStab_phase (g : StabWork → StabWork) (p : Part) : (p.onStab g).phase = p.phase := rfl
@[simp] theorem Part.onStab_link (g : StabWork → StabWork) (p : Part) : (p.onStab g).link = p.link := rfl
@[simp] theorem Part.onStab_map (g : StabWork → StabWork) (p : Part) : (p.onStab g).map = p.map := rfl
@[simp] theorem Part.onStab_lastGrant (g : StabWork → StabWork) (p : Part) : (p.onStab g).lastGrant = p.lastGrant := rfl
@[simp] theorem Part.onStab_slots (g : StabWork → StabWork) (p : Part) : (p.onStab g).slots = p.slots := rfl
@[simp] theorem Part.onStab_lens (g : StabWork → StabWork) (p : Part) : (p.onStab g).lens = p.lens := rfl
@[simp] theorem Part.onStab_recd (g : StabWork → StabWork) (p : Part) : (p.onStab g).recd = p.recd := rfl
@[simp] theorem Part.onStab_audio (g : StabWork → StabWork) (p : Part) : (p.onStab g).audio = p.audio := rfl
@[simp] theorem Part.onStab_overlay (g : StabWork → StabWork) (p : Part) : (p.onStab g).overlay = p.overlay := rfl
@[simp] theorem Part.onStab_choices (g : StabWork → StabWork) (p : Part) : (p.onStab g).choices = p.choices := rfl
@[simp] theorem Part.onStab_stab (g : StabWork → StabWork) (p : Part) : (p.onStab g).stab = (g (.start p.stab)).st := rfl
@[simp] theorem Part.onStab_bus (g : StabWork → StabWork) (p : Part) : (p.onStab g).bus = p.bus.meetAll (g (.start p.stab)).out := rfl

/-! `State.onPart` -/

@[simp] theorem State.onPart_part (g : Part → Part) (s : State) : (s.onPart g).part = g s.part := rfl
@[simp] theorem State.onPart_mem (g : Part → Part) (s : State) : (s.onPart g).mem = s.mem := rfl
@[simp] theorem State.onPart_pending (g : Part → Part) (s : State) : (s.onPart g).pending = s.pending := rfl

/-! The bus -/

@[simp] theorem Bus.request_cmd (r : PartReq) (b : Bus) : (b.request r).cmd = b.cmd := rfl
@[simp] theorem Bus.request_report (r : PartReq) (b : Bus) : (b.request r).report = b.report := rfl
@[simp] theorem Bus.request_partQ (r : PartReq) (b : Bus) : (b.request r).partQ = b.partQ ++ [r] := rfl
@[simp] theorem Bus.answer_report (slot : CmdSlot) (v : Verdict) (ack : Word) (b : Bus) : (b.answer slot v ack).report = b.report := rfl
@[simp] theorem Bus.beginTake_report (slot : CmdSlot) (kind : Byte) (b : Bus) : (b.beginTake slot kind).report = b.report := rfl
@[simp] theorem Bus.beginTake_partQ (slot : CmdSlot) (kind : Byte) (b : Bus) : (b.beginTake slot kind).partQ = b.partQ := rfl
@[simp] theorem Bus.meetAll_nil (b : Bus) : b.meetAll [] = b := rfl
@[simp] theorem Bus.meetAll_cons (o : Out) (os : List Out) (b : Bus) : b.meetAll (o :: os) = (b.meet o).meetAll os := rfl
@[simp] theorem Bus.meet_raise (f : Factor) (b : Bus) : b.meet (.raise f) = b.raise f := rfl
@[simp] theorem Bus.meet_finish (slot : CmdSlot) (c : OutcomeCode) (d : Nat) (b : Bus) : b.meet (.finish slot c d) = b.finish slot c d := rfl
@[simp] theorem Bus.meet_status (b : Bus) : b.meet .status = b.requestStatus := rfl
@[simp] theorem Bus.meet_request (r : PartReq) (b : Bus) : b.meet (.request r) = b.request r := rfl
@[simp] theorem Bus.meet_overwrite (n : Nat) (b : Bus) :
    b.meet (.overwrite n) = { b with partQ := b.partQ.map (PartReq.overwrite n) } := rfl

/-! A block at work -/

@[simp] theorem Job.start_st {σ ε : Type} (x : σ) : (Job.start x : Job σ ε).st = x := rfl
@[simp] theorem Job.start_out {σ ε : Type} (x : σ) : (Job.start x : Job σ ε).out = [] := rfl
@[simp] theorem Job.emit_st {σ ε : Type} (j : Job σ ε) (e : ε) : (j.emit e).st = j.st := rfl
@[simp] theorem Job.emit_out {σ ε : Type} (j : Job σ ε) (e : ε) : (j.emit e).out = j.out ++ [e] := rfl
@[simp] theorem Job.change_st {σ ε : Type} (j : Job σ ε) (f : σ → σ) : (j.change f).st = f j.st := rfl
@[simp] theorem Job.change_out {σ ε : Type} (j : Job σ ε) (f : σ → σ) : (j.change f).out = j.out := rfl
@[simp] theorem Job.ring_st_ring (j : RecWork) (f : RingMonitor → RingMonitor) : (Job.ring j f).st.ring = f j.st.ring := rfl
@[simp] theorem Job.ring_st_card (j : RecWork) (f : RingMonitor → RingMonitor) : (Job.ring j f).st.card = j.st.card := rfl
@[simp] theorem Job.ring_st_tc (j : RecWork) (f : RingMonitor → RingMonitor) : (Job.ring j f).st.tc = j.st.tc := rfl
@[simp] theorem Job.ring_out (j : RecWork) (f : RingMonitor → RingMonitor) : (Job.ring j f).out = j.out := rfl
@[simp] theorem Job.card_st_ring (j : RecWork) (f : CardEngine → CardEngine) : (Job.card j f).st.ring = j.st.ring := rfl
@[simp] theorem Job.card_st_card (j : RecWork) (f : CardEngine → CardEngine) : (Job.card j f).st.card = f j.st.card := rfl
@[simp] theorem Job.card_st_tc (j : RecWork) (f : CardEngine → CardEngine) : (Job.card j f).st.tc = j.st.tc := rfl
@[simp] theorem Job.card_out (j : RecWork) (f : CardEngine → CardEngine) : (Job.card j f).out = j.out := rfl
@[simp] theorem Job.tc_st_ring (j : RecWork) (f : TimecodeUnit → TimecodeUnit) : (Job.tc j f).st.ring = j.st.ring := rfl
@[simp] theorem Job.tc_st_card (j : RecWork) (f : TimecodeUnit → TimecodeUnit) : (Job.tc j f).st.card = j.st.card := rfl
@[simp] theorem Job.tc_st_tc (j : RecWork) (f : TimecodeUnit → TimecodeUnit) : (Job.tc j f).st.tc = f j.st.tc := rfl
@[simp] theorem Job.tc_out (j : RecWork) (f : TimecodeUnit → TimecodeUnit) : (Job.tc j f).out = j.out := rfl
@[simp] theorem Job.ask_st (j : RecWork) (o : Out) : (j.ask o).st = j.st := rfl
@[simp] theorem Job.ask_out (j : RecWork) (o : Out) : (j.ask o).out = j.out ++ [.bus o] := rfl
@[simp] theorem Job.coord_out (f : Coordinator → Coordinator) (j : LensWork) : (Job.coord f j).out = j.out := rfl
@[simp] theorem Job.coord_st (f : Coordinator → Coordinator) (j : LensWork) : (Job.coord f j).st = { j.st with coord := f j.st.coord } := rfl
@[simp] theorem Job.putAxis_out (n : AxisName) (ax : StepAxis) (j : LensWork) : (Job.putAxis n ax j).out = j.out := rfl
@[simp] theorem Job.putAxis_st (n : AxisName) (ax : StepAxis) (j : LensWork) : (Job.putAxis n ax j).st = j.st.setAxis n ax := rfl

/-! The two axes -/

@[simp] theorem Lens.setAxis_coord (n : AxisName) (ax : StepAxis) (l : Lens) : (l.setAxis n ax).coord = l.coord := by cases n <;> rfl
@[simp] theorem Lens.setAxis_iris (n : AxisName) (ax : StepAxis) (l : Lens) : (l.setAxis n ax).iris = l.iris := by cases n <;> rfl
@[simp] theorem Lens.axis_setAxis (n : AxisName) (ax : StepAxis) (l : Lens) : (l.setAxis n ax).axis n = ax := by cases n <;> rfl
@[simp] theorem Lens.axis_setAxis_other (n : AxisName) (ax : StepAxis) (l : Lens) : (l.setAxis n ax).axis (otherAxis n) = l.axis (otherAxis n) := by cases n <;> rfl
@[simp] theorem Lens.setAxis_axis (n : AxisName) (l : Lens) : l.setAxis n (l.axis n) = l := by cases n <;> rfl
@[simp] theorem otherAxis_otherAxis (n : AxisName) : otherAxis (otherAxis n) = n := by cases n <;> rfl

end Sys2Proof.Machine
end

