-- ==== Sys2Proof/Laws/Ops.lean ====
section
/-! SUPPORT. What each shared operation can do, said once: raising a factor, the requests for the records, the offer and the
take of a command, the work of the recording side and of the slot manager, the card engine at rest, mirror writes, a grant, and
a step. -/

namespace Sys2Proof.Machine

/-! ### The bus -/

@[simp] theorem Bus.requestStatus_cmd (b : Bus) : b.requestStatus.cmd = b.cmd := by unfold Bus.requestStatus; split <;> rfl

@[simp] theorem Bus.requestStatus_report (b : Bus) : b.requestStatus.report = b.report := by
  unfold Bus.requestStatus; split <;> rfl

@[simp] theorem Bus.requestFactor_cmd (b : Bus) : b.requestFactor.cmd = b.cmd := by unfold Bus.requestFactor; split <;> rfl

@[simp] theorem Bus.requestFactor_report (b : Bus) : b.requestFactor.report = b.report := by
  unfold Bus.requestFactor; split <;> rfl

@[simp] theorem Bus.setPending_cmd (w : Word) (b : Bus) : (b.setPending w).cmd = b.cmd := by
  unfold Bus.setPending; split
  · rfl
  · exact Bus.requestFactor_cmd _

/-- A new pending set changes nothing else at the report unit. -/
@[simp] theorem Bus.setPending_report (w : Word) (b : Bus) : (b.setPending w).report = { b.report with pending := w } := by
  unfold Bus.setPending; split
  · subst w; rfl
  · exact Bus.requestFactor_report _

@[simp] theorem Bus.raise_cmd (f : Factor) (b : Bus) : (b.raise f).cmd = b.cmd := Bus.setPending_cmd ..

/-- Raising a factor joins it to the pending set and changes nothing else at the report unit (R28). -/
@[simp] theorem Bus.raise_report (f : Factor) (b : Bus) :
    (b.raise f).report = { b.report with pending := b.report.pending ||| f.bit } := Bus.setPending_report ..

/-- Raising a pending factor changes nothing (R28). -/
theorem Bus.raise_pending {f : Factor} {b : Bus} (h : b.report.pending ||| f.bit = b.report.pending) : b.raise f = b := by
  unfold Bus.raise Bus.setPending; rw [if_pos h]

/-- What an outcome write request holds (R23). -/
theorem Bus.answer_partQ (slot : CmdSlot) (v : Verdict) (ack : Word) (b : Bus) :
    (b.answer slot v ack).partQ =
      b.partQ ++ [.outcome slot v.code (BitVec.ofNat 8 v.detail) b.cmd.slots[slot].uses b.cmd.slots[slot].kind ack] := rfl

@[simp] theorem Bus.answer_shadow (slot : CmdSlot) (v : Verdict) (ack : Word) (b : Bus) :
    (b.answer slot v ack).cmd.shadow = b.cmd.shadow := rfl

@[simp] theorem Bus.answer_restart (slot : CmdSlot) (v : Verdict) (ack : Word) (b : Bus) :
    (b.answer slot v ack).cmd.restart = b.cmd.restart := rfl

@[simp] theorem Bus.beginTake_shadow (slot : CmdSlot) (kind : Byte) (b : Bus) :
    (b.beginTake slot kind).cmd.shadow = b.cmd.shadow := rfl

@[simp] theorem Bus.beginTake_restart (slot : CmdSlot) (kind : Byte) (b : Bus) :
    (b.beginTake slot kind).cmd.restart = b.cmd.restart := rfl

/-- One demand leaves the shadow and the RESTART record alone. -/
theorem Bus.meet_cmd (o : Out) (b : Bus) :
    (b.meet o).cmd.shadow = b.cmd.shadow ∧ (b.meet o).cmd.restart = b.cmd.restart := by
  cases o with
  | raise f => simp
  | finish slot c d => exact ⟨rfl, rfl⟩
  | status => simp
  | request r => exact ⟨rfl, rfl⟩
  | overwrite n => exact ⟨rfl, rfl⟩

/-- A block's demands leave the shadow and the RESTART record alone. -/
theorem Bus.meetAll_cmd (os : List Out) (b : Bus) :
    (b.meetAll os).cmd.shadow = b.cmd.shadow ∧ (b.meetAll os).cmd.restart = b.cmd.restart := by
  induction os generalizing b with
  | nil => exact ⟨rfl, rfl⟩
  | cons o os ih =>
    rw [Bus.meetAll_cons]
    exact ⟨(ih (b.meet o)).1.trans (Bus.meet_cmd o b).1, (ih (b.meet o)).2.trans (Bus.meet_cmd o b).2⟩

/-! ### Offers and takes -/

/-- What an offer can do (R20, R21): nothing before INIT_DONE, a collision while the slot shows PENDING, else the take. -/
theorem Part.offer_cases (slot : CmdSlot) (taken : Part → Part) (p : Part) :
    (p.phase ≠ .running ∧ p.offer slot taken = p) ∨
    (p.phase = .running ∧ p.bus.cmd.slots[slot].last = .pending ∧ p.offer slot taken = p.raise .slotCollision) ∨
    (p.phase = .running ∧ p.bus.cmd.slots[slot].last ≠ .pending ∧ p.offer slot taken = taken p) := by
  unfold Part.offer
  by_cases h : p.phase = .running
  · rw [if_neg (not_not_intro h)]
    by_cases hl : p.bus.cmd.slots[slot].last = .pending
    · exact .inr (.inl ⟨h, hl, if_pos hl⟩)
    · exact .inr (.inr ⟨h, hl, if_neg hl⟩)
  · exact .inl ⟨h, if_pos h⟩

/-- An accepting slot takes what is offered in it. -/
theorem Part.offer_accepts {slot : CmdSlot} {p : Part} (h : Accepts slot p) (taken : Part → Part) :
    p.offer slot taken = taken p := by
  obtain ⟨hr, hl, -⟩ := h
  unfold Part.offer
  rw [if_neg (not_not_intro hr), if_neg hl]

/-- The take of a kind other than REGION in a ready slot, its selector in range: the owner's judgement and action, and the
outcome write (R22, R23). -/
theorem Part.take_ready {slot : CmdSlot} {kind : Byte} {p : Part} (h : Ready slot p) (ack : Word)
    (carry : Part → Part × Verdict) :
    p.take slot kind true ack carry =
      { (carry { p with bus := p.bus.beginTake slot kind }).1 with
        bus := (carry { p with bus := p.bus.beginTake slot kind }).1.bus.answer slot
          (carry { p with bus := p.bus.beginTake slot kind }).2
          (if (carry { p with bus := p.bus.beginTake slot kind }).2.code = .done then ack else 0) } := by
  obtain ⟨⟨-, -, hn⟩, hc⟩ := h
  simp [Part.take, hn, hc]

/-- The take of a REGION in an accepting slot (R22 step 2 does not refuse it for the conflict state). -/
theorem Part.take_region {slot : CmdSlot} {p : Part} (h : Accepts slot p) (carry : Part → Part × Verdict) :
    p.take slot 0x01 true 0 carry =
      { (carry { p with bus := p.bus.beginTake slot 0x01 }).1 with
        bus := (carry { p with bus := p.bus.beginTake slot 0x01 }).1.bus.answer slot
          (carry { p with bus := p.bus.beginTake slot 0x01 }).2 0 } := by
  obtain ⟨-, -, hn⟩ := h
  simp [Part.take, hn]

/-! ### The recording side and the slot manager -/

/-- What the recording side hands over reaches the bus and the lens alone. -/
theorem Part.deliverRec_frame (p : Part) (o : RecOut) :
    p.deliverRec o = { p with bus := (p.deliverRec o).bus, lens := (p.deliverRec o).lens } := by
  cases o <;> rfl

theorem Part.deliverAll_frame (os : List RecOut) (p : Part) :
    ∃ b l, os.foldl Part.deliverRec p = { p with bus := b, lens := l } := by
  induction os generalizing p with
  | nil => exact ⟨p.bus, p.lens, rfl⟩
  | cons o os ih =>
    obtain ⟨b, l, h⟩ := ih (p.deliverRec o)
    rw [List.foldl_cons, h]
    cases o <;> exact ⟨b, l, rfl⟩

/-- What an event at the recording side can change: that side, the bus and the lens. -/
theorem Part.onRecorder_frame (f : Recorder → RecWork) (p : Part) :
    p.onRecorder f =
      { p with bus := (p.onRecorder f).bus, lens := (p.onRecorder f).lens, recd := ((f p.recd).pump p.map).st } := by
  unfold Part.onRecorder
  generalize (f p.recd).pump p.map = j
  obtain ⟨b, l, h⟩ := Part.deliverAll_frame j.out { p with recd := j.st }
  simp only [h]

/-- What the slot manager hands over reaches the bus, the lens and the recording side alone. -/
theorem Part.deliverSlot_frame (p : Part) (o : SlotOut) :
    ∃ b l r, p.deliverSlot o = { p with bus := b, lens := l, recd := r } := by
  cases o with
  | raise f => exact ⟨_, _, _, rfl⟩
  | skip =>
    have h : p.deliverSlot .skip = p.onRecorder fun r => (Job.start r).skip := rfl
    rw [h]
    exact ⟨_, _, _, Part.onRecorder_frame (fun r => (Job.start r).skip) p⟩
  | frameMark => exact ⟨_, _, _, rfl⟩

theorem Part.deliverSlots_frame (os : List SlotOut) (p : Part) :
    ∃ b l r, os.foldl Part.deliverSlot p = { p with bus := b, lens := l, recd := r } := by
  induction os generalizing p with
  | nil => exact ⟨p.bus, p.lens, p.recd, rfl⟩
  | cons o os ih =>
    obtain ⟨b, l, r, h⟩ := Part.deliverSlot_frame p o
    obtain ⟨b', l', r', h'⟩ := ih (p.deliverSlot o)
    refine ⟨b', l', r', ?_⟩
    rw [List.foldl_cons, h', h]

/-- What the slot manager's work can change. -/
theorem Part.withSlots_frame (j : SlotWork) (p : Part) :
    p.withSlots j =
      { p with
        slots := j.st
        bus := (p.withSlots j).bus
        lens := (p.withSlots j).lens
        recd := (p.withSlots j).recd } := by
  obtain ⟨b, l, r, h⟩ := Part.deliverSlots_frame j.out { p with slots := j.st }
  have h' : p.withSlots j = { p with slots := j.st, bus := b, lens := l, recd := r } := h
  rw [h']

/-! ### The card engine by itself, and its mirrors -/

/-- With no clip open, no directory WRITE and no mount command ready the card engine does nothing by itself. -/
theorem Job.pump_quiet {j : RecWork} (h : j.st.card.Quiet) (map : RegionMap) : j.pump map = j := by
  obtain ⟨hc, hd, hm⟩ := h
  have h1 : j.stopProgress map = j := by simp [Job.stopProgress, hc]
  have h2 : j.nextUnit map = j := by simp [Job.nextUnit, hc]
  have h3 : j.makeRequest map = j := by simp [Job.makeRequest, Job.requestChunk, hc, hd]
  have h4 : j.issue = j := by simp [Job.issue, hc, hd, hm]
  simp only [Job.pump, h1, h2, h3, h4]

/-- A card engine that waits with its clip does nothing by itself. -/
theorem Job.pump_waits {j : RecWork} {k : OpenClip} (h : j.st.card.Waits k) (map : RegionMap) : j.pump map = j := by
  obtain ⟨hc, hf, hw⟩ := h
  have hf' : j.st.card.inFlight.isSome = true := Option.isSome_iff_ne_none.2 hf
  have h1 : j.stopProgress map = j := by
    obtain ⟨-, -, hr⟩ | ⟨hr, -⟩ := hw
    · simp [Job.stopProgress, hc, hr]
    · simp [Job.stopProgress, hc, hr]
  have h2 : j.nextUnit map = j := by
    unfold Job.nextUnit; rw [hc]
    cases j.st.ring.nextRun map.ringSize with
    | none => rfl
    | some run =>
      obtain ⟨-, hl, -⟩ | ⟨hr, -⟩ := hw
      · simp [hl]
      · simp [hr, RecState.drains]
  have h3 : j.makeRequest map = j := by
    by_cases hr : j.st.card.request = none
    · obtain ⟨-, -, hn⟩ | ⟨hs, hn | ⟨d, ds, hd, hl⟩⟩ := hw
      · exact absurd hr hn
      · exact absurd hr hn
      · have hq : j.requestChunk map = j := by
          unfold Job.requestChunk; rw [hc]
          split
          · simp [hs, RecState.drains]
          · rfl
        simp [Job.makeRequest, hr, hd, hq, Nat.not_lt.2 hl]
    · simp [Job.makeRequest, Option.isSome_iff_ne_none.2 hr]
  have h4 : j.issue = j := by simp [Job.issue, hf']
  simp only [Job.pump, h1, h2, h3, h4]

/-- A card engine at rest does nothing by itself after an event. -/
theorem Job.pump_rests {j : RecWork} (h : j.st.card.Rests) (map : RegionMap) : j.pump map = j :=
  h.elim (Job.pump_quiet · map) fun ⟨_, hk⟩ => Job.pump_waits hk map

/-- The recording side's work has gone on by mirror writes alone (R136): the mirror image, the count of its writes, and what is
handed over. -/
def Job.MirrorsOn (j k : RecWork) : Prop :=
  ∃ m n o, k = ⟨{ j.st with card := { j.st.card with mirror := m, mirrorWrites := n } }, j.out ++ o⟩

theorem Job.MirrorsOn.refl (j : RecWork) : j.MirrorsOn j := ⟨_, _, [], by rw [List.append_nil]⟩

theorem Job.MirrorsOn.trans {j k l : RecWork} (h : j.MirrorsOn k) (h' : k.MirrorsOn l) : j.MirrorsOn l := by
  obtain ⟨m, n, o, rfl⟩ := h
  obtain ⟨m', n', o', rfl⟩ := h'
  exact ⟨m', n', o ++ o', by rw [List.append_assoc]⟩

/-- Bytes put into the mirror image do no more than that. -/
theorem Job.mirrorPut_on (j : RecWork) (map : RegionMap) (a : Nat) (bytes : List Byte) : j.MirrorsOn (j.mirrorPut map a bytes) := by
  unfold Job.mirrorPut; split
  · exact .refl j
  · exact ⟨_, _, _, rfl⟩

/-- Making the directory data clean does no more than that (R187). -/
theorem Job.tidyDirectory_on (j : RecWork) (map : RegionMap) : j.MirrorsOn (j.tidyDirectory map) := by
  have puts (xs : List Nat) (j : RecWork) : j.MirrorsOn (xs.foldl (fun j e =>
      j.mirrorPut map (entryAt e) (tidyEntry (j.st.card.image.readBytes (entryAt e) 128))) j) := by
    induction xs generalizing j with
    | nil => exact .refl j
    | cons x xs ih => exact (Job.mirrorPut_on ..).trans (ih _)
  have entries (j : RecWork) : j.MirrorsOn (j.tidyEntries map) := by unfold Job.tidyEntries; exact puts _ j
  have units (j : RecWork) : j.MirrorsOn (j.tidyMap map) := by
    unfold Job.tidyMap Job.setMap; exact (Job.mirrorPut_on ..).trans (Job.mirrorPut_on ..)
  have header : j.MirrorsOn (j.tidyHeader map) := by unfold Job.tidyHeader; exact Job.mirrorPut_on ..
  unfold Job.tidyDirectory
  exact (header.trans (entries _)).trans (units _)

/-! ### Grants and steps -/

/-- Where the LINK request is granted next, the arbiter's rotation has come to it (R16). -/
theorem Part.nextGrant_link {p : Part} {r : LinkReq} (h : LinkIsNext p r) : p.nextGrant = some .link := by
  obtain ⟨hr, h | ⟨h, hq⟩ | ⟨h, hq, hc⟩⟩ := h <;>
    simp_all [Part.nextGrant, ReqClass.rotation, Part.holds, List.find?]

/-- Where the oldest PART request is granted next. -/
theorem Part.nextGrant_part {p : Part} {r : PartReq} (h : PartIsNext p r) : p.nextGrant = some .part := by
  obtain ⟨hr, h⟩ := h
  have hq : p.holds .part = true := by
    cases hp : p.bus.partQ with
    | nil => simp [hp] at hr
    | cons r rs => simp [Part.holds, hp]
  rcases h with h | ⟨h, hc⟩ | ⟨h, hl, hc⟩
  · simp [Part.nextGrant, ReqClass.rotation, h, hq]
  · have hc' : p.holds .card = false := by simp [Part.holds, hc]
    simp [Part.nextGrant, ReqClass.rotation, h, hq, hc']
  · have hc' : p.holds .card = false := by simp [Part.holds, hc]
    have hl' : p.holds .link = false := by simp [Part.holds, hl]
    simp [Part.nextGrant, ReqClass.rotation, h, hq, hc', hl']

/-- Where the CARD request is granted next. -/
theorem Part.nextGrant_card {p : Part} {r : CardReq} (h : CardIsNext p r) : p.nextGrant = some .card := by
  obtain ⟨hr, h | ⟨h, hl⟩ | ⟨h, hq, hl⟩⟩ := h <;>
    simp_all [Part.nextGrant, ReqClass.rotation, Part.holds, List.find?]

/-- A grant changes the part and memory alone, and nothing where the class is not the next. -/
theorem State.grant_pending (c : ReqClass) (s : State) : (s.grant c).pending = s.pending := by
  unfold State.grant; split
  · cases c <;> rfl
  · rfl

/-- A step takes the command at the front of the queue. -/
theorem step_cons (c : Instr) (rest : List Instr) (s : State) (h : s.pending = c :: rest) :
    step s = exec c { s with pending := rest } := by
  unfold step; rw [h]

/-- A step taken while both comparators are off and the coordinator does not track moves the axis by its step, raises no
mark and asks for no other axis (R80). -/
theorem Job.takeStep_plain {n : AxisName} {j : LensWork} (ha : (j.st.axis n).cmpA.cond = .off)
    (hb : (j.st.axis n).cmpB.cond = .off) (ma : (j.st.axis n).cmpA.met = false) (mb : (j.st.axis n).cmpB.met = false)
    (ht : j.st.coord.tracking = false) : j.takeStep n = j.putAxis n (j.st.axis n).stepped := by
  generalize hx : j.st.axis n = ax at *
  have hA : ax.stepped.cmpA.evaluate (ax.stepped.at0) = (ax.cmpA, false) := by
    simp [StepAxis.stepped, Comparator.evaluate, Comparator.holds, ha]
    cases hc : ax.cmpA; simp_all
  have hB : ax.stepped.cmpB.evaluate (ax.stepped.at0) = (ax.cmpB, false) := by
    simp [StepAxis.stepped, Comparator.evaluate, Comparator.holds, hb]
    cases hc : ax.cmpB; simp_all
  have hc : ax.stepped.compare = (ax.stepped, false, false) := by
    simp only [StepAxis.compare, StepAxis.stepped] at *
    simp only [StepAxis.at0, Option.getD_some] at hA hB
    simp [Sys2Proof.Machine.StepAxis.at0, hA, hB]
  unfold Job.takeStep
  simp only [hx, hc]
  cases n
  · simp [StepAxis.stepped, Job.retargetAt, Job.putAxis, Job.change, Lens.setAxis, ht]
    cases j.st.coord.table <;> rfl
  · rfl

end Sys2Proof.Machine
end

