-- ==== Sys2Proof/Tests/Slice0.lean ====
section
/-! SUPPORT. The model's own tests: what `WellFormed` refuses, what a slot's words spell, single steps checked against the
manual's worked figures, and for each obligation with hypotheses a state and operands that meet them. -/

namespace Sys2Proof.Tests
open Sys2Proof.Machine

/-! ### Ill-formed commands -/

/-- 01 section 1.1: a transaction has 1 to 8 beats. -/
theorem test_no_transaction_without_beats : WellFormed (.linkTransaction 0 (.read 0)) = false := by decide
theorem test_no_transaction_of_nine_beats : WellFormed (.linkTransaction 0 (.read 9)) = false := by decide
theorem test_no_write_without_beats : WellFormed (.linkTransaction 0 (.write [])) = false := by decide

/-- 08 section 8.1: a READ answer is 1 to 256 blocks of 512 bytes. -/
theorem test_no_empty_read_answer : WellFormed (.cardReadAnswer (.inTime (some []))) = false := by decide
theorem test_no_read_answer_of_half_a_block : WellFormed (.cardReadAnswer (.inTime (some (List.replicate 100 0)))) = false := by decide

/-! ### The words of a slot (12.1) -/

/-- Kind 0x63, enable 1, level 180. -/
theorem test_zebra_words :
    decodeSlot 3 #v[0x63#32, 0, 1, 180, 0, 0, 0, 0, 0, 0, 0, 0, 0, 0, 0, 0] = some (.zebraSet 3 1 180) := by decide

/-- Kind 0x14, selector 1 (focus), flags of byte 2 disregarded, target 500, no cap, FRAME mark. -/
theorem test_move_words :
    decodeSlot 0 #v[0x00FF0114#32, 7, 500, 0, 2, 6, 9, 0, 0, 0, 0, 0, 0, 0, 0, 0] = some (.move 0 1 500 0 2 6) := by decide

/-- Kind 0x40: 01:02:03:04 in record-run at 29.97 DF. -/
theorem test_tc_words :
    decodeSlot 15 #v[0x40#32, 0, 0x01020304, 1, 2, 0, 0, 0, 0, 0, 0, 0, 0, 0, 0, 0] = some (.tcSet 15 0x01020304 1 2) := by
  decide

/-- A kind with no command assigned to it. -/
theorem test_unassigned_kind :
    decodeSlot 0 #v[0x1A#32, 0, 0, 0, 0, 0, 0, 0, 0, 0, 0, 0, 0, 0, 0, 0] = none := by decide

/-! ### The manual's worked figures -/

/-- Drop-frame counting skips 00:01:00;00 and ;01 (R158). -/
theorem test_drop_frame :
    (Timecode.ofNat 0x00005929).increment .df2997 = Timecode.ofNat 0x00010002 := by decide

/-- The last timecode of a day wraps (R157). -/
theorem test_day_wraps : (Timecode.ofNat 0x23595924).increment .fps25 = Timecode.zero := by decide

/-- The highest peak stands for segment 24, a silent period for 0 (R171). -/
theorem test_segments : segment 8388607 = 24 ∧ segment 0 = 0 := by decide

/-- Section 5.2's ramp at its defaults: v(0) is 200 and v(400) 4,000 (R78). -/
theorem test_speeds : (StepAxis.reset false).speedAt 0 = 200 ∧ (StepAxis.reset false).speedAt 400 = 4000 := by decide

/-- The default slot pitch and margins (R5). -/
theorem test_default_geometry :
    let m := RegionMap.reset ⟨false, false, false, false⟩
    m.pitch = 5018112 ∧ m.mx = 96 ∧ m.my = 54 ∧ m.slotAt 4 = 0x02324800 := by decide

/-- The bit of CMD_DONE is bit 29 (12.1). -/
theorem test_cmd_done_bit : Factor.cmdDone.bit = 0x20000000 := by decide

/-! ### States for the witnesses -/

/-- The part running after start-up, with nothing done yet. -/
def base : State := { State.reset with part := { State.reset.part with phase := .running } }

/-- The running part changed. -/
def like (f : Part → Part) : State := { base with part := f base.part }

/-- Its lens side, card engine, ring monitor, slots, stabiliser or bus changed. -/
def lensed (f : Lens → Lens) : State := like fun p => { p with lens := f p.lens }
def carded (f : CardEngine → CardEngine) : State := like fun p => { p with recd := { p.recd with card := f p.recd.card } }
def ringed (f : RingMonitor → RingMonitor) : State := like fun p => { p with recd := { p.recd with ring := f p.recd.ring } }
def slotted (f : SlotManager → SlotManager) : State := like fun p => { p with slots := f p.slots }
def stabbed (f : Stabiliser → Stabiliser) : State := like fun p => { p with stab := f p.stab }
def bussed (f : Bus → Bus) : State := like fun p => { p with bus := f p.bus }

theorem ready_like {p : Part} (hp : p.phase = .running) (hb : p.bus = base.part.bus) (hm : p.map = base.part.map)
    (slot : CmdSlot) : Ready slot p := by
  refine ⟨⟨hp, ?_, ?_⟩, ?_⟩
  · rw [hb]; revert slot; decide
  · rw [hb]; rfl
  · rw [hm]; rfl

theorem base_ready (slot : CmdSlot) : Ready slot base.part := ready_like rfl rfl rfl slot
theorem lensed_ready (f : Lens → Lens) (slot : CmdSlot) : Ready slot (lensed f).part := ready_like rfl rfl rfl slot
theorem carded_ready (f : CardEngine → CardEngine) (slot : CmdSlot) : Ready slot (carded f).part :=
  ready_like rfl rfl rfl slot
theorem ringed_ready (f : RingMonitor → RingMonitor) (slot : CmdSlot) : Ready slot (ringed f).part :=
  ready_like rfl rfl rfl slot
theorem stabbed_ready (f : Stabiliser → Stabiliser) (slot : CmdSlot) : Ready slot (stabbed f).part :=
  ready_like rfl rfl rfl slot

/-- A lens table of 17 points over a zoom range of 160 and a focus range of 200. -/
def table : LensTable := ⟨160, 200, 10, 190, (List.range 17).map fun i => ⟨10 * i, 100 + i, 5 * i, 100⟩⟩

/-- The lens with that table and a homed zoom and focus at rest, each after a last step in its homing direction (R84). -/
def homed (l : Lens) : Lens :=
  { l with
    zoom := { l.zoom with state := .idle, pos := some 50, high := 160, dir := some .down }
    focus := { l.focus with state := .idle, pos := some 20, high := 200, dir := some .up }
    coord := { l.coord with table := some table } }

/-- A transaction of one beat at the front of the link port. -/
def sending (p : Part) (a : Nat) (op : LinkOp) : State :=
  { base with part := { p with phase := .running, link := ⟨[.arriving a op], [], none, none⟩ } }

theorem hands_on_write (p : Part) {a : Nat} (h : a % 32 = 0) (b : WriteBeat) :
    HandsOn (sending p a (.write [b])).part a (some b) := by
  refine ⟨nofun, rfl, _, _, rfl, ?_, rfl, ?_⟩
  · simp [LinkTxn.arriving]; omega
  · rintro c hc; cases hc; rfl

theorem hands_on_read (p : Part) {a : Nat} (h : a % 32 = 0) : HandsOn (sending p a (.read 1)).part a none := by
  refine ⟨nofun, rfl, _, _, rfl, ?_, rfl, ?_⟩
  · simp [LinkTxn.arriving]; omega
  · rintro c hc; cases hc

/-- A beat with every byte enabled, and one with none. -/
def full : WriteBeat := ⟨Vector.replicate 32 7, Vector.replicate 32 true⟩
def empty : WriteBeat := ⟨Vector.replicate 32 7, Vector.replicate 32 false⟩

/-- A LINK request, a PART request or a CARD request next to be granted. -/
def linkWaits (p : Part) (r : LinkReq) : State :=
  { base with part :=
    { p with link := ⟨[.arriving 0 (.read 2)], [], some r, none⟩, lastGrant := .part } }
def partWaits (r : PartReq) : State := bussed fun b => { b with partQ := [r] }
def cardWaits (f : CardEngine → CardEngine) (r : CardReq) : State := carded fun c => { f c with request := some r }

theorem link_is_next (p : Part) (r : LinkReq) : LinkIsNext (linkWaits p r).part r := ⟨rfl, .inl rfl⟩
theorem part_is_next (r : PartReq) : PartIsNext (partWaits r).part r := ⟨rfl, .inr (.inr ⟨rfl, rfl, rfl⟩)⟩
theorem card_is_next (f : CardEngine → CardEngine) (r : CardReq) : CardIsNext (cardWaits f r).part r :=
  ⟨rfl, .inr (.inl ⟨rfl, rfl⟩)⟩

/-- An open clip whose unit is live, and the card engine that waits with it: a batch WRITE in flight and a CARD request
waiting. -/
def liveClip : OpenClip := { OpenClip.fresh 1 0 with live := true }
def waiting (r : RecState) (f : CardEngine → CardEngine) : State := carded fun c =>
  f { c with
    state := .ready
    recState := r
    clip := some liveClip
    request := some (.chunk 0 32 1 .a)
    inFlight := some ⟨.writeBatch 8192 .b, false⟩ }

theorem waits_of {c : CardEngine} (h1 : c.clip = some liveClip) (h2 : c.inFlight ≠ none) (h3 : c.request ≠ none)
    (h4 : c.recState = .recording ∨ c.recState = .stopping ∨ c.recState = .closing) : c.Waits liveClip := by
  refine ⟨h1, h2, ?_⟩
  rcases h4 with h | h | h
  · exact .inl ⟨.inl h, rfl, h3⟩
  · exact .inl ⟨.inr h, rfl, h3⟩
  · exact .inr ⟨h, .inl h3⟩

/-! ### Witnesses: the queue, resets, start-up and the link -/

theorem witness_StepRunsTheFrontCommand : base.pending = [] := rfl

theorem witness_FrameMemoryReadyRequestsTheStartUpWrites :
    (State.reset.part.phase = .stalled ∧ State.reset.part.bus.partQ = [] ∧ State.reset.part.map.conflict = false) ∧
    let p := Part.reset .pin ⟨true, true, false, false⟩
    p.phase = .stalled ∧ p.bus.partQ = [] ∧ p.map.conflict = true ∧ p.map.controlBase = 0x0FFFF800 ∧
      p.map.privBase = 0x0FFC0000 := ⟨⟨rfl, rfl, rfl⟩, rfl, rfl, rfl, rfl, rfl⟩

theorem witness_InitDoneRaisesTheFactorAndChecksTheSlots :
    let s := like fun p => { p with phase := .recordsWritten }
    let t := like fun p =>
      { p with phase := .recordsWritten, bus := { p.bus with cmd := { p.bus.cmd with shadow := [(0x3C0, 0x02)] } } }
    let u := like fun p =>
      { p with
        phase := .recordsWritten
        bus := { p.bus with cmd := { p.bus.cmd with shadow := [(0, 0x31), (0x3C0, 0x33)] } } }
    (s.part.phase = .recordsWritten ∧ ∀ k : CmdSlot, s.part.bus.cmd.kind k = 0) ∧
    (t.part.phase = .recordsWritten ∧ t.part.bus.cmd.kind 15 ≠ 0 ∧ ∀ j : CmdSlot, j ≠ 15 → t.part.bus.cmd.kind j = 0) ∧
    u.part.phase = .recordsWritten ∧ u.part.bus.cmd.kind 0 ≠ 0 ∧ u.part.bus.cmd.kind 15 ≠ 0 := by
  refine ⟨⟨rfl, by decide⟩, ⟨rfl, by decide, by decide⟩, rfl, by decide, by decide⟩

/-- No beat; the last WRITE beat of the private area, a WRITE and a READ at the first capture address, a READ at the last
viewfinder address; all three classes waiting after a LINK grant. -/
theorem witness_RowsThatCannotOccurChangeNothing :
    let p : Part := { (cardWaits id (.dir 0 1)).part with
      link := ⟨[.arriving 0 (.read 2)], [], some (.read 0 none), none⟩
      lastGrant := .link
      bus := (partWaits .status).part.bus }
    (base.part.phase ≠ .stalled ∧ base.part.phase ≠ .recordsWritten ∧ base.part.link.held = [] ∧
      base.part.link.request = none ∧ base.part.recd.card.request = none ∧ base.part.bus.partQ = []) ∧
    HandsOn (sending base.part 0x0FFFFFE0 (.write [full])).part 0x0FFFFFE0 (some full) ∧
    HandsOn (sending base.part 0x10000000 (.write [full])).part 0x10000000 (some full) ∧
    HandsOn (sending base.part 0x10000000 (.read 1)).part 0x10000000 none ∧
    HandsOn (sending base.part 0x1BFFFFE0 (.read 1)).part 0x1BFFFFE0 none ∧
    (CardIsNext p (.dir 0 1) ∧ (∀ r, ¬LinkIsNext p r) ∧ ∀ r, ¬PartIsNext p r) ∧
    ∀ r, ¬CardIsNext { p with lastGrant := .part } r := by
  refine ⟨⟨nofun, nofun, rfl, rfl, rfl, rfl⟩, hands_on_write _ rfl _, hands_on_write _ rfl _, hands_on_read _ rfl,
    hands_on_read _ rfl, ⟨⟨rfl, .inl rfl⟩, ?_, ?_⟩, ?_⟩
  · rintro r ⟨-, h | ⟨h, -⟩ | ⟨-, h, -⟩⟩ <;> cases h
  · rintro r ⟨-, h | ⟨-, h⟩ | ⟨h, -⟩⟩ <;> cases h
  · rintro r ⟨-, h | ⟨-, h⟩ | ⟨h, -⟩⟩ <;> cases h

theorem witness_TransactionsAreHeldUpToSixteen :
    let s := like fun p => { p with link := { p.link with held := List.replicate 16 (.arriving 0 (.read 1)) } }
    (base.part.link.waiting = [] ∧ base.part.link.held.length ≤ 16) ∧ s.part.link.held.length = 16 ∧
    (1 ≤ (LinkOp.read 1).beatCount ∧ (LinkOp.write (List.replicate 8 full)).beatCount ≤ 8) ∧
    (LinkOp.read 0).beatCount = 0 ∧ 8 < (LinkOp.read 9).beatCount := by decide

/-- The last beat of the command area, the first of the report area, a beat of the record ring, the last of plain memory, and
READ beats of the report area and the private area. -/
theorem witness_PhysicalBeatsRequestTheirOwnAddress :
    HandsOn (sending base.part 0x3E0 (.write [full])).part 0x3E0 (some full) ∧
    HandsOn (sending base.part 0x400 (.write [empty])).part 0x400 (some empty) ∧
    HandsOn (sending base.part 0x04000000 (.write [full])).part 0x04000000 (some full) ∧
    HandsOn (sending base.part 0x0FFBFFE0 (.write [full])).part 0x0FFBFFE0 (some full) ∧
    HandsOn (sending base.part 0x7E0 (.read 1)).part 0x7E0 none ∧
    HandsOn (sending base.part 0x0FFFFFE0 (.read 1)).part 0x0FFFFFE0 none :=
  ⟨hands_on_write _ rfl _, hands_on_write _ rfl _, hands_on_write _ rfl _, hands_on_write _ rfl _, hands_on_read _ rfl,
    hands_on_read _ rfl⟩

/-- The first and the last beat of the audio ring; channel 0 with its limiter on. -/
theorem witness_AudioBeatsCarryTheLimitedSamples :
    let p := { base.part with audio := base.part.audio.set 0 { Channel.reset with enable := true } }
    (HandsOn (sending p 0x03000000 (.write [full])).part 0x03000000 (some full) ∧
      HandsOn (sending p 0x0300FFE0 (.write [empty])).part 0x0300FFE0 (some empty)) ∧
    coversAt full.enables.toList 28 4 = true ∧ coversAt empty.enables.toList 0 4 = false ∧
    (p.audio[channelAt 0].enable = true ∧ p.audio[channelAt 0].threshold ≤ 8388607) ∧ p.audio[channelAt 4].enable = false ∧
    overloaded 8388607 = true := by
  refine ⟨⟨hands_on_write _ rfl _, hands_on_write _ rfl _⟩, ?_⟩
  decide

/-- The first and the last beat of the private area, a WRITE at the first view alias address, READs at both ends of the
capture alias, at the hole, and above 0x3FFF_FFFF. -/
theorem witness_RefusedAndHoleBeatsReachNoMemory :
    HandsOn (sending base.part 0x0FFC0000 (.write [full])).part 0x0FFC0000 (some full) ∧
    HandsOn (sending base.part 0x0FFFFFE0 (.write [empty])).part 0x0FFFFFE0 (some empty) ∧
    HandsOn (sending base.part 0x0FFC0000 (.read 1)).part 0x0FFC0000 none ∧
    HandsOn (sending base.part 0x14000000 (.write [full])).part 0x14000000 (some full) ∧
    HandsOn (sending base.part 0x10000000 (.read 1)).part 0x10000000 none ∧
    HandsOn (sending base.part 0x13FFFFE0 (.read 1)).part 0x13FFFFE0 none ∧
    HandsOn (sending base.part 0x1C000000 (.read 1)).part 0x1C000000 none ∧
    HandsOn (sending base.part 0x40000000 (.read 1)).part 0x40000000 none :=
  ⟨hands_on_write _ rfl _, hands_on_write _ rfl _, hands_on_read _ rfl, hands_on_write _ rfl _, hands_on_read _ rfl,
    hands_on_read _ rfl, hands_on_read _ rfl, hands_on_read _ rfl⟩

/-- Slot 0 FILLING at its last line, the others FREE; and slot 0 complete. -/
def filling : SlotManager :=
  { SlotManager.reset 4 with table := [.filling 1187, .free, .free, .free], freeOrder := [1, 2, 3] }
def oneFrame : CompleteFrame := ⟨1, 0, 0, none, false, false⟩
def shown : SlotManager :=
  { SlotManager.reset 4 with
    table := [.complete oneFrame, .free, .free, .free]
    freeOrder := [1, 2, 3]
    completion := [0] }

/-- Every slot complete, the readers on the oldest and the newest, both past line 0. -/
def crowded : SlotManager :=
  { SlotManager.reset 4 with
    table := [.complete oneFrame, .complete oneFrame, .complete oneFrame, .complete oneFrame]
    freeOrder := []
    completion := [1, 0, 2, 3]
    enc := ⟨some 1, 5⟩
    vf := ⟨some 3, 1⟩ }

theorem filling_laws : filling.Laws := by
  constructor
  · intro i j a b hi hj
    rcases i with _ | _ | _ | _ | i <;> rcases j with _ | _ | _ | _ | j <;> simp_all [filling]
  · decide
  · intro k
    rcases k with _ | _ | _ | _ | k <;> simp [filling]
  · decide
  · intro k
    rcases k with _ | _ | _ | _ | k <;> simp [filling, SlotManager.reset, SlotManager.IsComplete]
  · intro k h; cases h
  · intro k h; cases h

theorem crowded_laws : crowded.Laws := by
  constructor
  · intro i j a b hi hj
    rcases i with _ | _ | _ | _ | i <;> simp_all [crowded]
  · decide
  · intro k
    rcases k with _ | _ | _ | _ | k <;> simp [crowded]
  · decide
  · intro k
    rcases k with _ | _ | _ | _ | k <;> simp [crowded, SlotManager.IsComplete]
  · intro k h; cases h; exact ⟨oneFrame, rfl⟩
  · intro k h; cases h; exact ⟨oneFrame, rfl⟩

theorem crowded_unfilled : crowded.Unfilled := by
  intro k last
  rcases k with _ | _ | _ | _ | k <;> simp [crowded]

theorem reset_unfilled : base.part.slots.Unfilled := by
  intro k last
  rcases k with _ | _ | _ | _ | k <;> simp [base, State.reset, Part.reset, SlotManager.reset]

/-- The first beat of line 0, with no move waiting and with a zoom move waiting on the FRAME mark, away, the other way and to where
the zoom stands; the first beat past the frame; the first of line 1 with no slot FILLING and with slot 0 FILLING; a beat on line 0
of a slot at line 0, and one on it that covers nothing at its last line; the first beat of line 0 with slot 0 FILLING at its last
line, and with every slot complete and slot 0 the oldest READY one. -/
theorem witness_CaptureBeatsAreRedirectedOrDropped :
    let p := { base.part with slots := filling }
    let q := { (waiting .recording id).part with slots := crowded }
    let low := { base.part with slots := { filling with table := [.filling 0, .free, .free, .free] } }
    let m (t : Nat) : PendingMove := ⟨t, 700, .onMark .frame, 5⟩
    let wait (t : Nat) : Lens := { homed base.part.lens with
      zoom := { (homed base.part.lens).zoom with state := .waiting, pendingMove := some (m t) } }
    let v (t : Nat) : Part := { base.part with lens := wait t }
    (∀ t, HandsOn (sending (v t) (0x10000000 + 0) (.write [full])).part (0x10000000 + 0) (some full) ∧
      (v t).slots.Unfilled ∧ ((v t).lens.axis .zoom).state = .waiting ∧ ((v t).lens.axis .zoom).pendingMove = some (m t) ∧
      (m t).cond = .onMark .frame ∧ ((v t).lens.axis (otherAxis .zoom)).pendingMove = none ∧
      ((v t).lens.axis .zoom).pos = some 50 ∧ ((v t).lens.axis .zoom).dir = some .down ∧
      0 < ((v t).lens.axis .zoom).dwell ∧ (v t).lens.coord.suspended = false) ∧
    ((m 51).target ≠ 50 ∧ ¬(m 49).target = 50 ∧ (m 50).target = 50) ∧
    (HandsOn (sending low (0x10000000 + 0) (.write [full])).part (0x10000000 + 0) (some full) ∧
      low.slots.table[0]? = some (FrameSlot.filling 0)) ∧
    (HandsOn (sending p (0x10000000 + 0) (.write [empty])).part (0x10000000 + 0) (some empty) ∧
      ∀ i < 32, empty.enables.toList[i]? ≠ some true) ∧
    (HandsOn (sending base.part 0x10000000 (.write [full])).part (0x10000000 + 0) (some full) ∧
      0 + 32 ≤ base.part.map.cw * 2 ∧ 0 < base.part.map.ch ∧ full.enables.toList[0]? = some true ∧
      base.part.slots.Unfilled ∧ base.part.slots.freeOrder = 0 :: [1, 2, 3] ∧
      base.part.slots.table[0]? = some FrameSlot.free ∧ 0 ∉ [1, 2, 3] ∧ 0 ∉ base.part.slots.completion ∧
      base.part.lens.zoom.pendingMove = none ∧ base.part.lens.focus.pendingMove = none) ∧
    (HandsOn (sending base.part (0x10000000 + 5018112) (.write [full])).part (0x10000000 + 5018112) (some full) ∧
      base.part.map.cw * base.part.map.ch * 2 ≤ 5018112) ∧
    HandsOn (sending base.part (0x10000000 + 4224) (.write [full])).part (0x10000000 + 4224) (some full) ∧
    (HandsOn (sending p (0x10000000 + 4224) (.write [full])).part (0x10000000 + 4224) (some full) ∧
      p.slots.table[0]? = some (FrameSlot.filling 1187)) ∧
    (HandsOn (sending p (0x10000000 + 0) (.write [full])).part (0x10000000 + 0) (some full) ∧ p.slots.Laws) ∧
    (HandsOn (sending q (0x10000000 + 0) (.write [full])).part (0x10000000 + 0) (some full) ∧ q.slots.Laws ∧
      q.slots.Unfilled ∧ q.slots.freeOrder = [] ∧ q.slots.completion = [1] ++ 0 :: [2, 3] ∧ q.slots.enc.slot = some 1 ∧
      q.slots.vf.slot = some 3 ∧ q.slots.table[0]? = some (FrameSlot.complete oneFrame) ∧ oneFrame.seenEnc = false ∧
      q.recd.card.recState = .recording ∧ q.recd.card.Waits liveClip) := by
  refine ⟨fun t => ⟨hands_on_write _ rfl _, reset_unfilled, rfl, rfl, rfl, rfl, rfl, rfl, by show 0 < 20; decide, rfl⟩, by decide,
    ⟨hands_on_write _ rfl _, rfl⟩, ⟨hands_on_write _ rfl _, by decide⟩,
    ⟨hands_on_write _ rfl _, by decide, by decide, rfl, reset_unfilled, rfl, rfl, by decide, by decide, rfl, rfl⟩,
    ⟨hands_on_write _ rfl _, by decide⟩, hands_on_write _ rfl _, ⟨hands_on_write _ rfl _, rfl⟩,
    ⟨hands_on_write _ rfl _, filling_laws⟩, hands_on_write _ rfl _, crowded_laws, crowded_unfilled, rfl, rfl, rfl, rfl, rfl,
    rfl, rfl, waits_of rfl nofun nofun (.inl rfl)⟩

/-- The first beat past the view frame, and the first beat of line 1 with the reader on slot 0. -/
theorem witness_ViewBeatsReadThroughTheCrop :
    let p := { base.part with slots := { shown with enc := ⟨some 0, 0⟩, vf := ⟨some 0, 0⟩ } }
    (HandsOn (sending base.part (0x14000000 + 4147200) (.read 1)).part (0x14000000 + 4147200) none ∧
      base.part.map.vh ≤ 4147200 / (base.part.map.vw * 2)) ∧
    (HandsOn (sending p (0x18000000 + 3840) (.read 1)).part (0x18000000 + 3840) none ∧
      3840 / (p.map.vw * 2) < p.map.vh ∧ (p.slots.reader .vf).slot = some 0 ∧
      p.slots.table[0]? = some (FrameSlot.complete oneFrame) ∧ 3840 / (p.map.vw * 2) ≠ 0) := by
  refine ⟨⟨hands_on_read _ rfl, by decide⟩, hands_on_read _ rfl, by decide, rfl, rfl, by decide⟩

/-- The last beat of line 0 with the reader on no slot: with no frame, and with slot 0 the newest complete slot; past line 0
on a slot that is not the newest, and on the newest. A granted view beat; the first and the last pixel pair of a beat; a
refresh. -/
theorem witness_LatchesAttachTheNewestFrame :
    let p := { base.part with slots := shown }
    let q := { base.part with slots := crowded }
    (HandsOn (sending base.part (0x18000000 + 3808) (.read 1)).part (0x18000000 + 3808) none ∧
      3808 < base.part.map.vw * 2 ∧ 0 < base.part.map.vh ∧ (base.part.slots.reader .vf).slot = none ∧
      base.part.slots.completion = [] ∧ base.part.slots.Laws) ∧
    (HandsOn (sending p (0x14000000 + 3808) (.read 1)).part (0x14000000 + 3808) none ∧
      (p.slots.reader .enc).slot = none ∧ p.slots.completion.getLast? = some 0 ∧
      p.slots.table[0]? = some (FrameSlot.complete oneFrame)) ∧
    (HandsOn (sending q (0x14000000 + 0) (.read 1)).part (0x14000000 + 0) none ∧ q.slots.Laws ∧
      (q.slots.reader .enc).slot = some 1 ∧ (q.slots.reader .enc).lastLine ≠ 0 ∧ q.slots.completion.getLast? = some 3 ∧
      (q.slots.reader .vf).slot = some 3 ∧ (q.slots.reader .vf).lastLine ≠ 0) ∧
    HandsOn (sending q (0x18000000 + 0) (.read 1)).part (0x18000000 + 0) none ∧
    LinkIsNext (linkWaits base.part (.view .vf 0x0FFFFFE0 1079 1904)).part (.view .vf 0x0FFFFFE0 1079 1904) ∧
    (1904 % 2 = 0 ∧ 7 < 8 ∧ full.data.toList.length = 32) := by
  refine ⟨⟨hands_on_read _ rfl, by decide, by decide, rfl, rfl, ?_⟩, ⟨hands_on_read _ rfl, rfl, rfl, rfl⟩,
    ⟨hands_on_read _ rfl, crowded_laws, rfl, nofun, rfl, rfl, nofun⟩, hands_on_read _ rfl, link_is_next _ _, by decide⟩
  constructor
  · intro i j a b hi hj
    rcases i with _ | _ | _ | _ | i <;> simp_all [base, State.reset, Part.reset, SlotManager.reset]
  · decide
  · intro k
    rcases k with _ | _ | _ | _ | k <;> simp [base, State.reset, Part.reset, SlotManager.reset]
  · decide
  · intro k
    rcases k with _ | _ | _ | _ | k <;>
      simp [base, State.reset, Part.reset, SlotManager.reset, SlotManager.IsComplete]
  · intro k h; cases h
  · intro k h; cases h

/-! ### Witnesses: the arbiter and the command unit -/

/-- A changed-group word of 0 leaves the set; one with bit 5 clears FRAME. -/
theorem witness_ReadsOfTheRecordsClearWhatTheyReturned :
    let set : Groups := ⟨false, false, false, false, false, true⟩
    let p := { base.part with bus := { base.part.bus with report := { base.part.bus.report with groups := set } } }
    let q := { base.part with bus := { base.part.bus with report := { base.part.bus.report with clearMode := .onAck } } }
    (LinkIsNext (linkWaits p (.read 0x400 (some 0x400))).part (.read 0x400 (some 0x400)) ∧ set.clear 0 = set ∧
      set.clear 32 ≠ set) ∧
    (LinkIsNext (linkWaits p (.read 0x500 (some 0x500))).part (.read 0x500 (some 0x500)) ∧
      p.bus.report.clearMode = .onRead) ∧
    (LinkIsNext (linkWaits q (.read 0x500 (some 0x500))).part (.read 0x500 (some 0x500)) ∧
      q.bus.report.clearMode = .onAck) :=
  ⟨⟨link_is_next _ _, rfl, by decide⟩, ⟨link_is_next _ _, rfl⟩, link_is_next _ _, rfl⟩

/-- The first beat of slot 15 offering kind 7, as the last of its transaction and as one of two, and covering nothing; its
second beat after an offer and after none; slot 15 with the words of a TEXT_CLEAR and a REC_START, and of kind 7
in a slot at rest, in one that shows PENDING, and with no words before INIT_DONE. -/
theorem witness_CommandBeatsOfferAndCheck :
    let w (half : Nat) (b : WriteBeat) (count : Nat) (offered : Bool) : State :=
      { base with part := { base.part with
        link := ⟨[{ LinkTxn.arriving 0 (.read count) with offered := offered }], [],
          some (.write 0x3C0 b.data.toList b.enables.toList (.command (64 * 15 + 32 * half))), none⟩ } }
    let req (half : Nat) (b : WriteBeat) : LinkReq :=
      .write 0x3C0 b.data.toList b.enables.toList (.command (64 * 15 + 32 * half))
    let shadow := base.part.bus.cmd.shadow.writeMasked (64 * 15 + 32 * 0) full.data.toList full.enables.toList
    (∀ n o, LinkIsNext (w 0 full n o).part (req 0 full) ∧ LinkIsNext (w 0 empty n o).part (req 0 empty) ∧
      LinkIsNext (w 1 full n o).part (req 1 full)) ∧
    (coversAt full.enables.toList 0 4 = true ∧ shadow.read (64 * 15) ≠ 0) ∧ coversAt empty.enables.toList 0 4 = false ∧
    ((LinkTxn.arriving 0 (.read 1)).count ≤ 0 + 1 ∧ 0 + 1 < (LinkTxn.arriving 0 (.read 2)).count) ∧
    (let spells (k : Byte) := bussed fun b => { b with cmd := { b.cmd with shadow := [(0x3C0, k), (0x3C8, 2)] } }
    let busy := bussed fun b =>
      { b with cmd := { b.cmd with shadow := [(0x3C0, 7)], slots := b.cmd.slots.set 15 ⟨.pending, 1, 0x14⟩ } }
    decodeSlot 15 ((spells 0x61).part.bus.cmd.words 15) = some (.textClear 15 2) ∧
    decodeSlot 15 ((spells 0x31).part.bus.cmd.words 15) = some (.recStart 15) ∧
    decodeSlot 15 ((spells 7).part.bus.cmd.words 15) = none ∧ (spells 7).part.phase = .running ∧
    (spells 7).part.bus.cmd.slots[15].last ≠ .pending ∧ decodeSlot 15 (busy.part.bus.cmd.words 15) = none ∧
    busy.part.phase = .running ∧ busy.part.bus.cmd.slots[15].last = .pending ∧
    decodeSlot 15 (State.reset.part.bus.cmd.words 15) = none ∧ State.reset.part.phase ≠ .running) := by
  refine ⟨fun n o => ⟨⟨rfl, .inl rfl⟩, ⟨rfl, .inl rfl⟩, rfl, .inl rfl⟩, ?_, ?_, ?_, ?_⟩ <;> decide

/-- The beat with the frame's last byte, at offset 5,018,080; the last valid timecode of a day, and the last of a minute before
two frame numbers that 29.97 DF passes over; an iris below, above and at its target; the highest peak and the lowest. -/
theorem witness_FrameCompleteActs :
    let p := { base.part with slots := filling }
    let r : LinkReq := .write 0x014C9220 full.data.toList full.enables.toList (.capture 0 5018080)
    (LinkIsNext (linkWaits p r).part r ∧ p.slots.table[0]? = some (FrameSlot.filling 1187) ∧
      0 < p.map.cw * p.map.ch ∧ (5018080 + 31 + 1 = p.map.cw * p.map.ch * 2 ∧ full.enables.toList[31]? = some true) ∧
      p.slots.Laws ∧ p.recd.card.Quiet) ∧
    ((Timecode.ofNat 0x23595929).valid .df2997 = true ∧ (Timecode.ofNat 0x00005929).valid .df2997 = true) ∧
    ((Iris.mk 0 8 8 0).duty < (Iris.mk 0 8 8 0).target ∧ (Iris.mk 9 8 8 0).target < (Iris.mk 9 8 8 0).duty ∧
      (Iris.mk 8 8 8 0).duty = (Iris.mk 8 8 8 0).target) ∧
    (2 ^ 23 ≤ 2 * 8388607 ∧ 8388607 < 2 ^ 23 ∧ 8388607 / 2 ^ (23 - 2) % 2 = 1 ∧ 24 = 2 * 23 + 1 - 23) ∧
    (2 ^ 1 ≤ 2 * 1 ∧ 1 < 2 ^ 1 ∧ 0 = 2 * 1 + 0 - 23) :=
  ⟨⟨link_is_next _ _, rfl, by decide, ⟨by decide, rfl⟩, filling_laws, rfl, rfl, rfl⟩, by decide, by decide, by decide, by decide⟩

/-- The header beat of a chunk of the kind and length given, for frame 1. -/
def header (kind : Byte) (length : Nat) : List Byte :=
  leBytes 4 0x5A574348 ++ [kind, 0, 0, 0] ++ leBytes 4 length ++ leBytes 4 1 ++ List.replicate 16 0

/-- A RETAINED VIDEO_KEY at the ring's start. -/
def keyEntry : QueueEntry :=
  { number := 0
    offset := 0
    length := 32
    span := 64
    kind := .videoKey
    frame := 1
    freeStamp := .zero
    estimated := true
    stamp := none
    state := .retained
    overwritten := false
    stampsWaiting := 0
    units := [] }
def keyed (m : RingMonitor) : RingMonitor := { m with queue := [keyEntry], writeFront := 64, nextEntry := 1, depth := 1 }

/-- A write and a read; a transaction with beats left and its last beat; a capture beat that ends one byte before the frame's last
byte, and the frame's last beat with its last enable clear, into the FILLING slot; the last byte into a slot that is not FILLING; a
ring beat between the entry and the write front, a second overrun, and a front beat without its length word and one with length 0. -/
theorem witness_LinkGrantsReadAndWriteMemory :
    let p := { base.part with slots := filling }
    let most := full.enables.toList.set 31 false
    let cap (o : Nat) (e : List Bool) : LinkReq := .write 0x014C9220 full.data.toList e (.capture 0 o)
    let marked : QueueEntry := { keyEntry with state := .joined, overwritten := true }
    let q (es : List QueueEntry) : Part := (ringed fun m => { keyed m with queue := es, writeFront := 128 }).part
    let ring (o : Nat) (d : List Byte) (e : List Bool) : LinkReq := .write (0x04000000 + o) d e (.ring o)
    let zero : List Byte := List.replicate 32 0
    (LinkIsNext (linkWaits base.part (.write 0x0FFFFFE0 full.data.toList full.enables.toList .unwatched)).part
        (.write 0x0FFFFFE0 full.data.toList full.enables.toList .unwatched) ∧ base.mem.wf = true ∧
      full.enables.toList.length = full.data.toList.length) ∧
    LinkIsNext (linkWaits base.part (.read 0 none)).part (.read 0 none) ∧
    (∃ x xs, (linkWaits base.part (.read 0 none)).part.link.held = x :: xs ∧ x.next + 1 < x.count) ∧
    (∃ x xs, (sending base.part 0 (.read 1)).part.link.held = x :: xs ∧ x.count ≤ x.next + 1) ∧
    (LinkIsNext (linkWaits p (cap 5018079 full.enables.toList)).part (cap 5018079 full.enables.toList) ∧
      0 < p.map.cw * p.map.ch ∧ 5018079 + 31 + 1 < p.map.cw * p.map.ch * 2 ∧
      LinkIsNext (linkWaits p (cap 5018080 most)).part (cap 5018080 most) ∧
      5018080 + 31 + 1 = p.map.cw * p.map.ch * 2 ∧ most[31]? = some false ∧
      LinkIsNext (linkWaits base.part (cap 5018080 full.enables.toList)).part (cap 5018080 full.enables.toList) ∧
      base.part.slots.table[0]? = some FrameSlot.free) ∧
    ((∀ es o d e, LinkIsNext (linkWaits (q es) (ring o d e)).part (ring o d e) ∧ (q es).recd.card.Rests ∧
        (q es).recd.ring.writeFront = 128 ∧ (q es).recd.ring.shadow.length = 32) ∧
      keyEntry.touched (q [keyEntry]).map.ringSize 96 full.enables.toList = false ∧
      keyEntry.touched (q [keyEntry]).map.ringSize 128 full.enables.toList = false ∧
      (marked.touched (q [marked]).map.ringSize 32 full.enables.toList = true ∧ (q [marked]).recd.ring.retainedRun = [] ∧
        marked.overwritten = true) ∧
      ((full.enables.toList.set 11 false).getD 11 true = false ∧ leNat ((zero.drop 8).take 4) = 0 ∧ zero.length = 32)) :=
  ⟨⟨link_is_next _ _, rfl, rfl⟩, link_is_next _ _, ⟨_, _, rfl, by decide⟩, ⟨_, _, rfl, by decide⟩,
    ⟨link_is_next _ _, by decide, by decide, link_is_next _ _, by decide, rfl, link_is_next _ _, rfl⟩,
    ⟨fun _ _ _ _ => ⟨link_is_next _ _, .inl ⟨rfl, rfl, rfl⟩, rfl, rfl⟩, by decide, by decide, ⟨by decide, rfl, rfl⟩,
      by decide⟩⟩

/-- The longest VIDEO_KEY into an empty queue at depth 1; the shortest AUDIO into an empty queue; an AUDIO behind a joined
entry. A kind past the last and a payload one byte too long; no room behind a joined entry while a clip waits; 256 joined
entries; the longest chunk joined in RECORDING; a VIDEO_KEY in ARMED; the last beat of a joined span overrun, and that of a
RETAINED one. A second VIDEO_KEY beyond depth 1; a VIDEO_DELTA joined in RECORD_RUN; a STAMPED span overrun in STOPPING; a
VIDEO_KEY for whose span one beat of room is missing behind two RETAINED GOPs. -/
theorem witness_ChunksArePublished :
    let p := { base.part with recd := { base.part.recd with ring := { base.part.recd.ring with depth := 1 } } }
    let onRing (s : State) (f : RingMonitor → RingMonitor) : Part :=
      { s.part with recd := { s.part.recd with ring := f s.part.recd.ring } }
    let joinedKey : QueueEntry := { keyEntry with state := .joined }
    let joined (m : RingMonitor) : RingMonitor := { keyed m with queue := [joinedKey] }
    let q := onRing base joined
    let w (r : RecState) := onRing (waiting r id) joined
    let tight := onRing (waiting .recording id) fun m => { joined m with writeFront := 0x2000000 - 32 }
    let many := onRing base fun m => { joined m with queue := List.replicate 256 joinedKey }
    let armed := carded fun c => { c with recState := .armed, startSlot := some 3 }
    let stampedKey : QueueEntry := { keyEntry with state := .stamped, stamp := some ⟨7, 0, true⟩ }
    let ovr := onRing (waiting .stopping id) fun m => { keyed m with queue := [stampedKey] }
    let run : Part := { w .recording with recd := { (w .recording).recd with tc :=
      { (w .recording).recd.tc with mode := .recordRun } } }
    let r (o : Nat) (h : List Byte) : LinkReq := .write (0x04000000 + o) h (List.replicate 32 true) (.ring o)
    (LinkIsNext (linkWaits p (r 0 (header 1 4194272))).part (r 0 (header 1 4194272)) ∧ p.recd.card.Quiet ∧
      p.recd.card.recState = .idle ∧ (header 1 4194272).length = 32 ∧ p.recd.ring.shadow.length = 32 ∧
      leNat ((header 1 4194272).take 4) = 0x5A574348 ∧ (((header 1 4194272).drop 4).headD 0).toNat = 1 ∧
      leNat (((header 1 4194272).drop 8).take 4) = 4194272 ∧ leNat (((header 1 4194272).drop 12).take 4) = 1 ∧
      p.recd.ring.queue = [] ∧ 32 + (4194272 + 31) / 32 * 32 ≤ p.recd.ring.freeSpace p.map.ringSize ∧
      p.recd.ring.videoFrames + 1 ≤ p.recd.ring.depth) ∧
    (LinkIsNext (linkWaits p (r 0 (header 3 1))).part (r 0 (header 3 1)) ∧ p.recd.ring.queue = []) ∧
    (LinkIsNext (linkWaits q (r 64 (header 3 1))).part (r 64 (header 3 1)) ∧ q.recd.ring.hasRetained = false ∧
      q.recd.ring.queue ≠ [] ∧ 64 ≤ q.recd.ring.freeSpace q.map.ringSize ∧
      ∀ e ∈ q.recd.ring.queue, e.touched q.map.ringSize 64 (List.replicate 32 true) = false) ∧
    ((((header 5 1).drop 4).headD 0).toNat = 5 ∧ leNat (((header 1 4194273).drop 8).take 4) = 4194273) ∧
    (LinkIsNext (linkWaits tight (r 0x1FFFFE0 (header 2 1))).part (r 0x1FFFFE0 (header 2 1)) ∧
      tight.recd.card.Waits liveClip ∧ tight.recd.card.recState = .recording ∧
      tight.recd.ring.freeSpace tight.map.ringSize < 64 ∧ tight.recd.ring.queue = [joinedKey] ∧
      joinedKey.state ≠ .retained ∧ joinedKey.touched tight.map.ringSize 0x1FFFFE0 (List.replicate 32 true) = false) ∧
    (LinkIsNext (linkWaits many (r 64 (header 1 1))).part (r 64 (header 1 1)) ∧ many.recd.card.Quiet ∧
      256 ≤ many.recd.ring.queue.length ∧ many.recd.ring.hasRetained = false) ∧
    (LinkIsNext (linkWaits (w .recording) (r 64 (header 4 4194272))).part (r 64 (header 4 4194272)) ∧
      (w .recording).recd.card.Waits liveClip ∧ 4194304 ≤ (w .recording).recd.ring.freeSpace (w .recording).map.ringSize ∧
      (w .recording).recd.tc.mode = .freeRun ∧
      ∀ e ∈ (w .recording).recd.ring.queue, e.number ≠ (w .recording).recd.ring.nextEntry) ∧
    (LinkIsNext (linkWaits armed.part (r 0 (header 1 1))).part (r 0 (header 1 1)) ∧
      armed.part.recd.card.recState = .armed ∧ armed.part.recd.card.clip = none ∧
      armed.part.recd.card.startSlot = some 3) ∧
    (LinkIsNext (linkWaits (w .closing) (r 32 full.data.toList)).part (r 32 full.data.toList) ∧
      (w .closing).recd.card.Waits liveClip ∧ (w .closing).recd.ring.joinedRun = [joinedKey] ∧
      (w .closing).recd.ring.retainedRun = [] ∧
      joinedKey.touched (w .closing).map.ringSize 32 (List.replicate 32 true) = true) ∧
    (LinkIsNext (linkWaits (ringed keyed).part (r 32 full.data.toList)).part (r 32 full.data.toList) ∧
      (ringed keyed).part.recd.ring.joinedRun = [] ∧ (ringed keyed).part.recd.ring.retainedRun = [keyEntry] ∧
      keyEntry.state = .retained ∧ keyEntry.touched base.part.map.ringSize 32 (List.replicate 32 true) = true) ∧
    (LinkIsNext (linkWaits (ringed keyed).part (r 64 (header 1 1))).part (r 64 (header 1 1)) ∧
      (ringed keyed).part.recd.ring.depth < (ringed keyed).part.recd.ring.videoFrames + 1 ∧
      ∀ e ∈ (ringed keyed).part.recd.ring.retainedRun, e.state = .retained) ∧
    (LinkIsNext (linkWaits run (r 64 (header 2 1))).part (r 64 (header 2 1)) ∧ run.recd.card.Waits liveClip ∧
      run.recd.tc.mode = .recordRun) ∧
    (LinkIsNext (linkWaits ovr (r 32 full.data.toList)).part (r 32 full.data.toList) ∧ ovr.recd.card.Waits liveClip ∧
      ovr.recd.ring.joinedRun = [stampedKey] ∧ ovr.recd.ring.retainedRun = [] ∧ ovr.recd.ring.queue.Nodup ∧
      stampedKey.touched ovr.map.ringSize 32 (List.replicate 32 true) = true ∧ ovr.recd.card.recState = .stopping ∧
      ovr.recd.ring.drainAhead < ovr.recd.ring.ahead ovr.map.ringSize stampedKey.offset + stampedKey.span ∧
      ovr.recd.card.dirJobs = [] ∧ ∀ b n, ovr.recd.card.request ≠ some (.dir b n)) ∧
    (let second : QueueEntry := { keyEntry with number := 1, offset := 64 }
    let near := onRing base fun m =>
      { keyed m with queue := [keyEntry, second], writeFront := 0x2000000 - 32, nextEntry := 2, depth := 3 }
    LinkIsNext (linkWaits near (r 0x1FFFFE0 (header 1 1))).part (r 0x1FFFFE0 (header 1 1)) ∧ near.recd.card.Quiet ∧
      near.recd.card.recState = .idle ∧ near.recd.ring.freeSpace near.map.ringSize < 32 + (1 + 31) / 32 * 32 ∧
      32 + (1 + 31) / 32 * 32 ≤ near.map.ringSize ∧ near.recd.ring.videoFrames + 1 ≤ near.recd.ring.depth ∧
      near.recd.ring.queue.length ≤ 256 ∧ near.recd.ring.queue ≠ [] ∧
      ∀ e ∈ near.recd.ring.queue, e.touched near.map.ringSize 0x1FFFFE0 (List.replicate 32 true) = false ∧
        e.state = .retained) := by
  refine ⟨⟨link_is_next _ _, ⟨rfl, rfl, rfl⟩, rfl, by decide⟩, ⟨link_is_next _ _, rfl⟩, ⟨link_is_next _ _, by decide⟩,
    by decide, ⟨link_is_next _ _, waits_of rfl nofun nofun (.inl rfl), rfl, by decide⟩,
    ⟨link_is_next _ _, ⟨rfl, rfl, rfl⟩, ?_, ?_⟩,
    ⟨link_is_next _ _, waits_of rfl nofun nofun (.inl rfl), by decide⟩, ⟨link_is_next _ _, rfl, rfl, rfl⟩,
    ⟨link_is_next _ _, waits_of rfl nofun nofun (.inr (.inr rfl)), by decide⟩, ⟨link_is_next _ _, by decide⟩,
    ⟨link_is_next _ _, by decide⟩, ⟨link_is_next _ _, waits_of rfl nofun nofun (.inl rfl), rfl⟩,
    ⟨link_is_next _ _, waits_of rfl nofun nofun (.inr (.inl rfl)), by decide, by decide, by decide, by decide, rfl, by decide,
      rfl, fun _ _ => nofun⟩, link_is_next _ _, ⟨rfl, rfl, rfl⟩, rfl, by decide⟩
  · show 256 ≤ (List.replicate 256 _).length
    rw [List.length_replicate]
  · refine List.any_eq_false.2 fun e he => ?_
    rw [List.eq_of_mem_replicate he]; decide

/-- The opening WRITE of 25 blocks with its last 8 beats to come, and with 8 beats read of 400; a read that ends at the end of a
joined entry, with another behind it. -/
theorem witness_CardGrantsReadMemory :
    let d (n : Nat) : DirJob := ⟨.opening, 0, 25, List.replicate n 0, false⟩
    let f (n : Nat) (c : CardEngine) : CardEngine := { c with dirJobs := [d n] }
    (CardIsNext (cardWaits (f 12544) (.dir 0x0FFC3100 8)).part (.dir 0x0FFC3100 8) ∧
      base.part.recd.card.clip = none ∧ base.part.recd.card.mountCmd = none ∧ base.part.recd.card.inFlight = none ∧
      base.part.recd.card.mirrorWrites = 0 ∧ 512 * (d 12544).count ≤ (d 12544).data.length + 32 * 8) ∧
    (CardIsNext (cardWaits (f 0) (.dir 0x0FFC0000 8)).part (.dir 0x0FFC0000 8) ∧
      (d 0).data.length + 32 * 8 < 512 * (d 0).count) ∧
    (∃ k : OpenClip, k.live = true ∧
      CardIsNext (cardWaits (fun c => { c with clip := some k, recState := .recording }) (.chunk 0 32 1 .a)).part
        (.chunk 0 32 1 .a)) ∧
    (let e : QueueEntry := { keyEntry with state := .draining }
    let f : QueueEntry := { keyEntry with number := 1, offset := 64, state := .stamped }
    let m : RingMonitor := { keyed base.part.recd.ring with queue := [e, f], writeFront := 128, drainAhead := 32 }
    let first := (32 + base.part.map.ringSize - m.releaseFront) % base.part.map.ringSize
    let start (e : QueueEntry) : Nat := (e.offset + base.part.map.ringSize - m.releaseFront) % base.part.map.ringSize
    m.queue = [e] ++ f :: [] ∧ start e + e.span ≤ first + 32 ∧ first + 32 < start f + f.span ∧
      (start e < first + 32 ∧ first < start e + e.span)) :=
  ⟨⟨card_is_next _ _, rfl, rfl, rfl, rfl, by
      show 12800 ≤ (List.replicate 12544 (0 : Byte)).length + 256; rw [List.length_replicate]⟩,
    ⟨card_is_next _ _, by show 0 + 256 < 12800; decide⟩,
    ⟨{ OpenClip.fresh 1 0 with live := true }, rfl, card_is_next _ _⟩, by decide⟩

/-- R124, first row of its table: the stamp write of a JOINED entry carries OVERWRITTEN from the overrun on; that of another entry
does not. -/
theorem test_overrun_marks_the_waiting_stamp :
    let r := (ringed fun m => { keyed m with queue := [{ keyEntry with state := .joined, stampsWaiting := 1 }] }).part.recd
    let j := (Job.start r).ringBeat base.part.map 32 full.data.toList full.enables.toList
    let b := bussed fun b => { b with partQ := [.stamp 0 0x04000000 0 0 true false, .stamp 1 0x04000040 0 0 true false] }
    j.out = [.bus (.raise .ringOverrun), .bus (.overwrite 0)] ∧
    (b.part.bus.meet (.overwrite 0)).partQ =
      [.stamp 0 0x04000000 0 0 true true, .stamp 1 0x04000040 0 0 true false] := by decide

/-- Outcomes at both ends of the slots, the records, both ends of the private area; a mirror write of exactly its eight beats and
one byte more; the first stamp of a joined entry, and that of an entry that is gone; a load that a RESTART has overtaken, one whose table fails the first check, one
that replaces a table of the same travel, and one that is the first; a status record with a newest complete slot and one without;
256 bytes of a lens table. -/
theorem witness_PartGrantsWriteTheRecords :
    let load (old : Option LensTable) : Part := { (partWaits (.lensLoad 0x0FFFFF00 false)).part with
      lens := { base.part.lens with coord := { base.part.lens.coord with table := old, load := some ⟨0x0FFFFF00, 3⟩ } } }
    let e : QueueEntry := { keyEntry with state := .joined, stampsWaiting := 1 }
    let q : Part := { (partWaits (.stamp 0 0x04000000 0 0 true false)).part with
      recd := { (waiting .stopping id).part.recd with ring := { keyed base.part.recd.ring with queue := [e] } } }
    (PartIsNext (partWaits (.outcome 15 .done 0 255 0x63 0)).part (.outcome 15 .done 0 255 0x63 0) ∧
      base.part.bus.cmd.restart = none) ∧
    PartIsNext (partWaits (.outcome 0 .pending 0 1 0x14 0)).part (.outcome 0 .pending 0 1 0x14 0) ∧
    PartIsNext (partWaits .status).part .status ∧ PartIsNext (partWaits .factor).part .factor ∧
    PartIsNext (partWaits (.zero 0x0FFC0000 1024)).part (.zero 0x0FFC0000 1024) ∧
    PartIsNext (partWaits (.zero 0x0FFFFF00 1)).part (.zero 0x0FFFFF00 1) ∧
    PartIsNext (partWaits (.zeroOutcome 15)).part (.zeroOutcome 15) ∧
    PartIsNext (partWaits (.lastClip (List.replicate 128 0))).part (.lastClip (List.replicate 128 0)) ∧
    (PartIsNext (partWaits (.mirror 0x0FFC0002 (List.replicate 254 0))).part (.mirror 0x0FFC0002 (List.replicate 254 0)) ∧
      (List.replicate 254 (0 : Byte)).length ≤ 256 - 0x0FFC0002 % 32 ∧ base.part.recd.card.Rests) ∧
    (PartIsNext (partWaits (.mirror 0x0FFC0002 (List.replicate 255 0))).part (.mirror 0x0FFC0002 (List.replicate 255 0)) ∧
      256 - 0x0FFC0002 % 32 < (List.replicate 255 (0 : Byte)).length) ∧
    (q.bus.partQ.head? = some (.stamp 0 0x04000000 0 0 true false) ∧ q.recd.card.Rests ∧ e ∈ q.recd.ring.queue ∧
      e.number = 0 ∧ e.state = .joined ∧ e.stampsWaiting = 1 ∧ (∀ x ∈ q.recd.ring.queue, x.number = 0 → x = e) ∧
      q.recd.ring.drainAhead ≤ q.recd.ring.ahead q.map.ringSize e.offset) ∧
    (PartIsNext (partWaits (.stamp 0 0x04000000 0 0 true true)).part (.stamp 0 0x04000000 0 0 true true) ∧
      base.part.recd.card.Rests ∧ base.part.recd.ring.queue = []) ∧
    PartIsNext (partWaits (.lensLoad 0 true)).part (.lensLoad 0 true) ∧
    (∀ old, PartIsNext (load old) (.lensLoad 0x0FFFFF00 false) ∧ (load old).lens.coord.load = some ⟨0x0FFFFF00, 3⟩ ∧
      (load old).lens.coord.table = old ∧ (load old).lens.coord.tracking = false) ∧
    ((LensTable.ofBytes (List.replicate 256 0)).firstBad false ≠ none ∧ table.firstBad false = none) ∧
    (shown.completion.getLast? = some 0 ∧ shown.table[0]? = some (FrameSlot.complete oneFrame) ∧
      base.part.slots.completion = []) ∧
    (List.replicate 256 (0 : Byte)).length = 256 := by
  refine ⟨⟨part_is_next _, rfl⟩, part_is_next _, part_is_next _, part_is_next _, part_is_next _, part_is_next _,
    part_is_next _, part_is_next _, ⟨part_is_next _, ?_, .inl ⟨rfl, rfl, rfl⟩⟩, ⟨part_is_next _, ?_⟩,
    ⟨rfl, .inr ⟨liveClip, waits_of rfl nofun nofun (.inr (.inl rfl))⟩, by decide⟩,
    ⟨part_is_next _, .inl ⟨rfl, rfl, rfl⟩, rfl⟩, part_is_next _,
    fun _ => ⟨⟨rfl, .inr (.inr ⟨rfl, rfl, rfl⟩)⟩, rfl, rfl, rfl⟩, by decide, ⟨rfl, rfl, rfl⟩, List.length_replicate⟩
  · rw [List.length_replicate]
  · rw [List.length_replicate]; decide

/-- ZEBRA_SET before INIT_DONE, in a slot that shows PENDING, during a RESTART, and in the conflict state. -/
theorem witness_CommandsOfferedTooSoonAreNotCarriedOut :
    let busy := bussed fun b => { b with cmd := { b.cmd with slots := b.cmd.slots.set 3 ⟨.pending, 1, 0x14⟩ } }
    let restarting := bussed fun b => { b with cmd := { b.cmd with restart := some ⟨0, 1⟩ } }
    let conflict := like fun p => { p with map := RegionMap.reset ⟨true, true, false, false⟩ }
    (encodeSlot (.zebraSet 3 1 180)).isSome = true ∧ State.reset.part.phase ≠ .running ∧
    (busy.part.phase = .running ∧ busy.part.bus.cmd.slots[3].last = .pending) ∧
    (restarting.part.phase = .running ∧ restarting.part.bus.cmd.slots[3].last ≠ .pending ∧
      restarting.part.bus.cmd.restart ≠ none) ∧
    conflict.part.phase = .running ∧ conflict.part.bus.cmd.slots[3].last ≠ .pending ∧ conflict.part.map.conflict = true :=
  ⟨rfl, nofun, ⟨rfl, rfl⟩, ⟨rfl, by decide, by decide⟩, rfl, by decide, rfl⟩

theorem witness_TakesAreAnsweredAndRefusalsChangeNothing :
    Ready 3 base.part ∧ encodeSlot (.home 3 1) = some (3, slotWords 0x13 1 []) ∧ (slotWords 0x13 1 []).kind ≠ 0x02 ∧
    16 ≤ OutcomeCode.noLensTable.number := ⟨base_ready 3, rfl, by decide, by decide⟩

theorem witness_SlotWordsSpellTheirCommand :
    encodeSlot (.jog 15 255 1 0xFFFFFFFF) = some (15, slotWords 0x15 255 [1, 0xFFFFFFFF]) ∧
    decodeSlot 15 (slotWords 0x15 255 [1, 0xFFFFFFFF]) = some (.jog 15 255 1 0xFFFFFFFF) := ⟨rfl, by decide⟩

/-! ### Witnesses: the host commands -/

/-- The clear mode at both ends of its range and past it, with a pending factor left unmasked. -/
theorem witness_EventCommandsAct :
    let s := bussed fun b => { b with report := { b.report with pending := Factor.cmdDone.bit } }
    Ready 0 base.part ∧ 1 < (2 : Word).toNat ∧ (1 : Word).toNat ≤ 1 ∧
    (Ready 15 s.part ∧ s.part.bus.report.pending &&& Factor.cmdDone.bit ≠ 0 ∧ (0 : Word) &&& Factor.cmdDone.bit = 0) :=
  ⟨base_ready 0, by decide, by decide, ⟨⟨rfl, by decide, rfl⟩, rfl⟩, by decide, by decide⟩

/-- At rest; while CALIBRATING; with the rocker in HOLD; with slot 0 PENDING; with a card present, ejected, and with a command in
flight; with tracking suspended; with a RESTART that waits for the last record write and for two more. -/
theorem witness_RestartTakesTheRestartValues :
    let other := bussed fun b => { b with cmd := { b.cmd with slots := b.cmd.slots.set 0 ⟨.pending, 1, 0x14⟩ } }
    let waits (n : Nat) := bussed fun b => { b with cmd := { b.cmd with restart := some ⟨15, n⟩ }, partQ := [.factor, .status] }
    let cal := stabbed fun t => { t with mode := .calibrating, cal := some ⟨4, true, 9, some (0, 0), 0, 0⟩ }
    let away (b : Bool) := lensed fun l => { homed l with
      coord := { (homed l).coord with tracking := true, suspended := b, rocker := .hold, level := 137 } }
    let card (e : Bool) (f : Option InFlight) := carded fun c =>
      { c with present := true, ejected := e, inFlight := f }
    (Ready 15 base.part ∧ (∀ k : CmdSlot, base.part.bus.cmd.slots[k].last ≠ .pending) ∧
      base.part.recd.card.present = false ∧ base.part.lens.coord.suspended = false ∧
      (lensed fun l => { l with zoom := { l.zoom with state := .moving } }).part.lens.zoom.state = .moving) ∧
    (Ready 15 other.part ∧ (0 : CmdSlot) ≠ 15 ∧ other.part.bus.cmd.slots[0].last = .pending) ∧
    (Ready 15 cal.part ∧ cal.part.recd.card.present = false ∧ cal.part.stab.cal ≠ none) ∧
    (Ready 15 (away true).part ∧ (away true).part.lens.coord.suspended = true ∧
      (away true).part.lens.coord.table = some table ∧ (away true).part.lens.zoom.pos = some 50 ∧
      (away true).part.lens.focus.pos = some 20 ∧ (away true).part.lens.zoom.state ≠ .homing ∧
      (away true).part.lens.focus.state ≠ .homing ∧ table.finf 50 < table.fnear 50) ∧
    (Ready 15 (away false).part ∧ (away false).part.lens.coord.suspended = false ∧
      (away false).part.lens.coord.rocker = .hold) ∧
    (∀ e f, Ready 15 (card e f).part ∧ (card e f).part.recd.card.present = true ∧ (card e f).part.recd.card.ejected = e ∧
      (card e f).part.recd.card.inFlight = f) ∧
    ∀ n, (waits n).part.bus.cmd.restart = some ⟨15, n⟩ ∧ PartIsNext (waits n).part .factor :=
  ⟨⟨base_ready 15, by decide, rfl, rfl, rfl⟩, ⟨⟨⟨rfl, by decide, rfl⟩, rfl⟩, by decide, rfl⟩,
    ⟨stabbed_ready _ 15, rfl, nofun⟩, ⟨lensed_ready _ 15, rfl, rfl, rfl, rfl, nofun, nofun, by decide⟩,
    ⟨lensed_ready _ 15, rfl, rfl⟩, fun _ _ => ⟨carded_ready _ 15, rfl, rfl, rfl⟩,
    fun _ => ⟨rfl, rfl, .inr (.inr ⟨rfl, rfl, rfl⟩)⟩⟩

/-- The smallest legal map around the default private area, and the reset map again. -/
def smallMap : RegionOperands := ⟨0x0FFC0000, 0x1000, 0x4000, 0x01000000, 0x800000, 0x02000000, 3, 64, 16, 64, 16⟩

theorem small_legal : smallMap.Legal := by unfold RegionOperands.Legal smallMap; decide
theorem small_placed : (smallMap.map base.part.map).Placed := by
  unfold RegionMap.Placed Apart smallMap; decide
theorem base_free : base.part.RegionFree 0x0FFC0000 :=
  ⟨reset_unfilled, rfl, rfl, rfl, .inl rfl, .inl rfl⟩

/-- The smallest map; it with the private area moved, with a READY card and from the conflict state; an odd private area; each of
the four extents with its last byte the first past the window; the audio ring on the record ring; a queue that is not empty. -/
theorem witness_RegionReplacesTheMap :
    let moved : RegionOperands := { smallMap with privBase := 0x0FF80000 }
    let odd : RegionOperands := { smallMap with privBase := 1 }
    let past : RegionOperands := { smallMap with privBase := 0x0FFC1000 }
    let pastAudio : RegionOperands := { smallMap with audioBase := 0x0FFFD000 }
    let pastRing : RegionOperands := { smallMap with ringBase := 0x0F801000 }
    let pastSlots : RegionOperands := { smallMap with slotBase := 0x0FFFE820 }
    let lapped : RegionOperands := { smallMap with audioBase := 0x01000000 }
    let mounted := carded fun c => { c with present := true, state := .ready, recState := .standby }
    let conflict := { (carded fun c => { c with present := true }).part with map := RegionMap.reset ⟨true, true, false, false⟩ }
    let s := ringed keyed
    (Accepts 1 base.part ∧ smallMap.Legal ∧ (smallMap.map base.part.map).Placed ∧ base.part.RegionFree smallMap.privBase ∧
      smallMap.privBase = base.part.map.privBase ∧ base.part.map.conflict = false) ∧
    (Accepts 1 mounted.part ∧ moved.Legal ∧ (moved.map mounted.part.map).Placed ∧ mounted.part.RegionFree moved.privBase ∧
      moved.privBase ≠ mounted.part.map.privBase ∧ mounted.part.recd.card.present = true ∧
      mounted.part.recd.card.ejected = false) ∧
    (Accepts 1 conflict ∧ conflict.map.conflict = true ∧ (moved.map conflict.map).Placed ∧
      conflict.RegionFree moved.privBase ∧ moved.privBase ≠ conflict.map.privBase ∧
      conflict.recd.card.state = .absent ∧ conflict.recd.card.recState = .idle) ∧
    ¬4096 ∣ odd.privBase ∧ (past.Legal ∧ 0x10000000 < past.privBase + 0x40000) ∧
    (pastAudio.Legal ∧ 0x10000000 < pastAudio.audioBase + pastAudio.audioSize) ∧
    (pastRing.Legal ∧ 0x10000000 < pastRing.ringBase + pastRing.ringSize) ∧
    (pastSlots.Legal ∧ 0x10000000 < pastSlots.slotBase + pastSlots.slotCount * (pastSlots.map base.part.map).pitch) ∧
    (lapped.Legal ∧ lapped.slotBase + lapped.slotCount * (lapped.map base.part.map).pitch ≤ 0x10000000 ∧
      ¬(lapped.map base.part.map).Placed) ∧
    (Accepts 1 s.part ∧ (smallMap.map s.part.map).Placed ∧ ¬s.part.RegionFree smallMap.privBase) := by
  refine ⟨⟨(base_ready 1).1, small_legal, small_placed, base_free, rfl, rfl⟩,
    ⟨(carded_ready _ 1).1, ?_, ?_, ⟨reset_unfilled, rfl, rfl, rfl, .inr rfl, .inr ⟨nofun, nofun⟩⟩, by decide, rfl, rfl⟩,
    ⟨⟨rfl, by decide, rfl⟩, rfl, ?_, ⟨reset_unfilled, rfl, rfl, rfl, .inl rfl, .inr ⟨nofun, nofun⟩⟩, by decide, rfl, rfl⟩,
    by decide, ⟨?_, by decide⟩, ⟨?_, by decide⟩, ⟨?_, by decide⟩, ⟨?_, by decide⟩, ⟨?_, by decide, ?_⟩,
    (ringed_ready keyed 1).1, small_placed, ?_⟩
  · unfold RegionOperands.Legal smallMap; decide
  · unfold RegionMap.Placed Apart smallMap; decide
  · unfold RegionMap.Placed Apart smallMap; decide
  · unfold RegionOperands.Legal smallMap; decide
  · unfold RegionOperands.Legal smallMap; decide
  · unfold RegionOperands.Legal smallMap; decide
  · unfold RegionOperands.Legal smallMap; decide
  · unfold RegionOperands.Legal smallMap; decide
  · unfold RegionMap.Placed Apart smallMap; decide
  · rintro ⟨-, -, -, h, -⟩; cases h

/-- A clip open in CLOSING; a crop at both margins, below and above. -/
theorem witness_EveryStepKeepsTheRecordStateAndTheCropsSound :
    (waiting .closing id).part.recd.card.ClipSound ∧
    ({ base.part with slots := { shown with table := [.complete ⟨1, -96, 54, none, false, false⟩, .free, .free, .free] } }
      ).CropsSound := by
  refine ⟨⟨fun _ => .inr (.inr rfl), fun _ => nofun⟩, by decide, ?_⟩
  intro k f h
  rcases k with _ | _ | _ | _ | k <;> simp at h
  subst h
  decide

theorem witness_LensTableRequestsItsLoad :
    Ready 2 base.part ∧ (32 ∣ (0x0FFFFF00 : Word).toNat ∧ ¬0x0FFFFF00 < (0x0FFFFF00 : Word).toNat) ∧
    ¬32 ∣ (0x10 : Word).toNat ∧ 0x0FFFFF00 < (0x0FFFFF20 : Word).toNat ∧
    (lensed fun l => { l with focus := { l.focus with state := .dwell } }).part.lens.focus.inMotion = true :=
  ⟨base_ready 2, by decide, by decide, by decide, rfl⟩

theorem witness_AxisSetReplacesTheEightValues :
    Ready 0 (lensed homed).part ∧ ((1 : Byte) = 1 ∧ AxisName.focus = .focus) ∧
    (lensed homed).part.lens.coord.table = some table ∧
    ((lensed homed).part.lens.axis .focus).state = .idle ∧ (10 : Word).toNat = 10 ∧ (8000 : Word).toNat = 8000 ∧
    table.homeValue .focus ≤ 190 := ⟨lensed_ready _ 0, ⟨rfl, rfl⟩, rfl, rfl, rfl, rfl, by decide⟩

theorem witness_CommandsNeedTheirSelectorAndTheirTable :
    Ready 0 base.part ∧ ((2 : Byte) ≠ 0 ∧ (2 : Byte) ≠ 1) ∧ 3 < (4 : Byte).toNat ∧ base.part.lens.coord.table = none ∧
    base.part.lens.zoom.state = .unhomed ∧ base.part.lens.focus.state = .unhomed ∧ base.part.lens.coord.rocker ≠ .hold ∧
    ((1 : Word).toNat ≤ 1 ∧ (256 : Word).toNat ≤ 256) :=
  ⟨base_ready 0, by decide, by decide, rfl, rfl, rfl, by decide, by decide⟩

theorem witness_CompareSetReplacesTheComparator :
    Ready 0 (lensed homed).part ∧ ((0 : Byte) = 0 ∧ AxisName.zoom = .zoom) ∧
    (lensed homed).part.lens.zoom.pendingMove = none ∧ (lensed homed).part.lens.focus.pendingMove = none ∧
    (lensed homed).part.lens.zoom.pos = some 50 ∧ base.part.lens.zoom.pos = none ∧ ¬60000 < (60000 : Word).toNat :=
  ⟨lensed_ready _ 0, ⟨rfl, rfl⟩, rfl, rfl, rfl, rfl, by decide⟩

/-- An axis moving up under a host command toward its high limit. -/
def moving (ax : StepAxis) : StepAxis :=
  { ax with
    state := .moving
    pos := some 50
    motionDir := .up
    dir := some .up
    goal := .moveTo 100
    k := 3
    high := 160
    holder := some (.host 7) }
def zoomMoving (l : Lens) : Lens := { homed l with zoom := moving (homed l).zoom }

theorem witness_HomeBeginsAHoming :
    let held := lensed fun l => { homed l with coord := { (homed l).coord with rocker := .hold } }
    let leg := lensed fun l => { homed l with zoom := { l.zoom with state := .homing, homing := some (.leg true 4 false) } }
    (Ready 0 (lensed homed).part ∧ (lensed homed).part.lens.coord.table ≠ none ∧
      (lensed homed).part.lens.coord.rocker ≠ .hold ∧ (lensed homed).part.lens.zoom.state = .idle) ∧
    (Ready 0 held.part ∧ held.part.lens.coord.rocker = .hold) ∧
    (Ready 0 (lensed zoomMoving).part ∧ (lensed zoomMoving).part.lens.zoom.state = .moving ∧
      ∀ p x, (lensed zoomMoving).part.lens.zoom.goal ≠ .stopAt p x) ∧
    (leg.part.lens.zoom.state = .homing ∧ leg.part.lens.zoom.homing = some (.leg true 4 false)) := by
  refine ⟨⟨lensed_ready _ 0, nofun, by decide, rfl⟩, ⟨lensed_ready _ 0, rfl⟩, ⟨lensed_ready _ 0, rfl, ?_⟩, rfl, rfl⟩
  intro p x; nofun

/-- Each test failing at its boundary with those before it passing, on the homed zoom at soft limits 0 to 160. -/
theorem witness_MovesAreJudgedInOrder :
    let l := (lensed homed).part.lens
    let halt := lensed fun l => { homed l with zoom := { (homed l).zoom with high := 100, action := .halt } }
    Ready 0 (lensed homed).part ∧ ¬((199 : Word).toNat = 0 ∨ (l.zoom.vStart ≤ (199 : Word).toNat)) ∧
    2 < (3 : Word).toNat ∧ ((1 : Word).toNat = 1 ∧ ¬(0 : Word).toNat ≠ (0 : Byte).toNat) ∧
    ((8000 : Word).toNat ≤ 8000 ∧ l.zoom.vStart ≤ 8000) ∧ base.part.lens.zoom.state = .unhomed ∧
    (l.zoom.state = .idle ∧ l.range .zoom < (161 : Word).toNat) ∧
    (halt.part.lens.zoom.action = .halt ∧ (101 : Word).toNat ≤ halt.part.lens.range .zoom ∧
      max halt.part.lens.zoom.low (min halt.part.lens.zoom.high (101 : Word).toNat) ≠ (101 : Word).toNat) :=
  ⟨lensed_ready _ 0, by decide, by decide, by decide, by decide, rfl, ⟨rfl, by decide⟩, rfl, by decide, by decide⟩

/-- From rest to either end of the range, from rest against the last step, to where it stands, in motion to one stopping
distance ahead and to just short of it, and on the FRAME mark; and to a target one past the high soft limit under CLAMP. -/
theorem witness_MovesStartOrWait :
    let l := (lensed homed).part.lens
    let m := (lensed zoomMoving).part.lens.zoom
    let limited := lensed fun l => { homed l with zoom := { (homed l).zoom with high := 100 } }
    (Ready 0 (lensed homed).part ∧ (160 : Word).toNat ≤ l.range .zoom ∧ l.zoom.dir = some .down ∧ l.zoom.state = .idle ∧
      l.coord.rocker ≠ .hold ∧ max l.zoom.low (min l.zoom.high (160 : Word).toNat) = 160) ∧
    (l.zoom.dir ≠ none ∧ l.zoom.dir ≠ some .up ∧ 0 < l.zoom.dwell) ∧
    (max l.zoom.low (min l.zoom.high (50 : Word).toNat) = l.zoom.pos.getD 0 ∧ l.focus.pendingMove = none) ∧
    (m.state = .moving ∧ (m.k : Int) + 1 ≤ (54 : Int) - m.pos.getD 0 ∧ (53 : Int) - m.pos.getD 0 < m.k + 1) ∧
    (∀ p x, m.goal ≠ .stopAt p x) ∧
    (Ready 0 limited.part ∧ limited.part.lens.zoom.action = .clamp ∧ limited.part.lens.zoom.state = .idle ∧
      (101 : Word).toNat ≤ limited.part.lens.range .zoom ∧
      max limited.part.lens.zoom.low (min limited.part.lens.zoom.high (101 : Word).toNat) = 100) := by
  refine ⟨⟨lensed_ready _ 0, by decide, rfl, rfl, by decide, by decide⟩, by decide, by decide, by decide, ?_,
    lensed_ready _ 0, by decide⟩
  intro p x; nofun

theorem witness_JogsRunTowardTheLimit :
    let l := (lensed homed).part.lens
    let atEnd := (lensed fun l => { homed l with zoom := { (homed l).zoom with pos := some 160 } }).part.lens.zoom
    let m := (lensed zoomMoving).part.lens.zoom
    (Ready 0 (lensed homed).part ∧ l.coord.rocker ≠ .hold ∧ (0 : Word).toNat = 0 ∧ l.zoom.state = .idle ∧
      ¬l.zoom.high ≤ l.zoom.pos.getD 0 ∧ ¬l.zoom.pos.getD 0 ≤ l.zoom.low ∧ l.zoom.dir = some .down) ∧
    (atEnd.state = .idle ∧ atEnd.high ≤ atEnd.pos.getD 0 ∧ atEnd.action = .clamp) ∧
    (m.state = .moving ∧ m.motionDir = .up ∧ m.motionDir ≠ .down) ∧ ∀ p x, m.goal ≠ .stopAt p x := by
  refine ⟨⟨lensed_ready _ 0, by decide, rfl, rfl, by decide, by decide, rfl⟩, by decide, by decide, ?_⟩
  intro p x; nofun

theorem witness_StopEndsTheMotion :
    let m := (lensed zoomMoving).part
    let leg := (lensed fun l => { homed l with zoom := { l.zoom with state := .homing, homing := some (.leg true 0 true) } }).part
    Ready 0 m ∧ 1 < (2 : Word).toNat ∧ ((1 : Word).toNat = 1 ∧ m.lens.coord.rocker ≠ .hold) ∧
    (m.lens.zoom.state = .moving ∧ (∀ p x, m.lens.zoom.goal ≠ .stopAt p x) ∧ m.lens.focus.pendingMove = none ∧
      m.lens.coord.suspended = false) ∧
    (lensed homed).part.lens.zoom.state = .idle ∧
    (Ready 0 leg ∧ leg.lens.zoom.state = .homing ∧ leg.lens.zoom.homing = some (.leg true 0 true)) := by
  refine ⟨lensed_ready _ 0, by decide, by decide, ⟨rfl, ?_, rfl, rfl⟩, rfl, lensed_ready _ 0, rfl, rfl⟩
  intro p x; nofun

/-- Distance 0 and 256; zoom at 50, where the curve at distance 0 is at 25 and at 255 at 100, and focus stands at 20 after a step
up, at 25, at 40, and between both against a high limit of 50; focus on its way to 25 for a request, at 22 and at 24, and dwelling
on its way; tracking suspended. -/
theorem witness_FocusTrackSetsTheDistance :
    let l := (lensed homed).part.lens
    let busy := (lensed fun l => { homed l with focus := moving (homed l).focus }).part
    let away := (lensed fun l => { homed l with coord := { (homed l).coord with tracking := true, suspended := true } }).part
    let f (d : Nat) : Nat := ((table.finf 50 : Int) + roundDiv (((table.fnear 50 : Int) - table.finf 50) * d) 255).toNat
    let asked (a : AxisState) (p : Nat) := lensed fun l => { homed l with
      focus := { (homed l).focus with
        state := a
        pos := some p
        motionDir := .up
        goal := .moveTo 25
        k := 1
        holder := some .request } }
    (Ready 0 (lensed homed).part ∧ l.coord.table = some table ∧ l.zoom.pos = some 50 ∧ l.coord.suspended = false ∧
      (1 : Word).toNat = 1 ∧ (256 : Word).toNat ≤ 256 ∧ l.focus.holder = none ∧ l.focus.pendingMove = none ∧
      l.focus.state = .idle ∧ l.focus.dir = some .up ∧ 0 < l.focus.dwell ∧ l.focus.pos = some 20) ∧
    ((f 0 = 25 ∧ f 255 = 100) ∧ max l.focus.low (min l.focus.high (f 0)) = f 0 ∧ max l.focus.low (min 50 (f 255)) ≠ f 255) ∧
    (∀ a p, Ready 0 (asked a p).part ∧ (asked a p).part.lens.focus.state = a ∧ (asked a p).part.lens.focus.pos = some p ∧
      (asked a p).part.lens.focus.holder = some .request ∧ (asked a p).part.lens.focus.goal = .moveTo 25 ∧
      (asked a p).part.lens.focus.k = 1) ∧
    ((1 : Int) + 1 ≤ 100 - 22 ∧ (25 : Int) - 24 < 1 + 1) ∧
    (1 < (2 : Word).toNat ∧ 256 < (257 : Word).toNat) ∧ (Ready 0 busy ∧ busy.lens.focus.holder = some (.host 7)) ∧
    (Ready 0 away ∧ away.lens.coord.suspended = true ∧ (∀ h, away.lens.focus.holder ≠ some (.host h)) ∧
      away.lens.focus.pendingMove = none) :=
  ⟨⟨lensed_ready _ 0, rfl, rfl, rfl, rfl, by decide, rfl, rfl, rfl, rfl, by decide, rfl⟩, by decide,
    fun _ _ => ⟨lensed_ready _ 0, rfl, rfl, rfl, rfl, rfl⟩, by decide, by decide,
    ⟨lensed_ready _ 0, rfl⟩, lensed_ready _ 0, rfl, fun _ => nofun, rfl⟩

theorem witness_IrisSetsItsTarget :
    Ready 0 base.part ∧ ¬1023 < (1023 : Word).toNat ∧ 1023 < (1024 : Word).toNat ∧ (0 : Word).toNat < 1 :=
  ⟨base_ready 0, by decide, by decide, by decide⟩

theorem witness_GripSetTurnsTheGripOnAndOff :
    let held := lensed fun l => { zoomMoving l with coord := { (zoomMoving l).coord with rocker := .hold } }
    let centred := lensed fun l => { l with coord := { l.coord with rocker := .centre } }
    (Ready 0 base.part ∧ base.part.lens.coord.rocker = .off ∧ (1 : Word).toNat ≤ 1 ∧ 1 < (2 : Word).toNat) ∧
    (Ready 0 centred.part ∧ centred.part.lens.coord.rocker = .centre) ∧
    (Ready 0 held.part ∧ held.part.lens.coord.rocker = .hold ∧ held.part.lens.zoom.state = .moving ∧
      ∀ p x, held.part.lens.zoom.goal ≠ .stopAt p x) := by
  refine ⟨⟨base_ready 0, rfl, by decide, by decide⟩, ⟨lensed_ready _ 0, rfl⟩, lensed_ready _ 0, rfl, rfl, ?_⟩
  intro p x; nofun

theorem witness_StabSetBecomesThePendingCopy :
    Ready 0 (lensed homed).part ∧ (lensed homed).part.lens.coord.table ≠ none ∧
    (lensed homed).part.stab.mode ≠ .calibrating ∧ base.part.lens.coord.table = none ∧
    (¬16 < (16 : Word).toNat ∧ 16 < (17 : Word).toNat ∧ ¬12 < (12 : Word).toNat) :=
  ⟨lensed_ready _ 0, nofun, by decide, rfl, by decide⟩

theorem witness_StabCalBeginsACalibration :
    Ready 0 base.part ∧ base.part.stab.mode = .off ∧
    (∀ m, Ready 0 (stabbed fun s => { s with mode := m }).part) ∧
    (stabbed fun s => { s with mode := .hold }).part.stab.mode = .hold ∧
    (stabbed fun s => { s with mode := .calibrating }).part.stab.mode = .calibrating ∧
    (stabbed fun s => { s with mode := .active }).part.stab.mode = .active :=
  ⟨base_ready 0, rfl, fun _ => stabbed_ready _ 0, rfl, rfl, rfl⟩

/-- Depth 600 and 601; one RETAINED frame at depth 0 and at depth 1. -/
theorem witness_PrerecSetTrimsForTheDepth :
    let s := ringed keyed
    (Ready 0 s.part ∧ 600 < (601 : Word).toNat ∧ (600 : Word).toNat ≤ 600) ∧ s.part.recd.ring.videoFrames ≤ 1 ∧
    ¬s.part.recd.ring.videoFrames ≤ 0 ∧ s.part.recd.card.recState ≠ .armed ∧
    (carded fun c => { c with recState := .armed }).part.recd.card.recState = .armed :=
  ⟨⟨ringed_ready _ 0, by decide, by decide⟩, by decide, by decide, by decide, rfl⟩

/-- Every record state at rest; a waiting clip in each state that has one, with no pending start, one from a slot and one from the
toggle. -/
theorem witness_RecCommandsActByTheRecordState :
    let st (r : RecState) := carded fun c => { c with recState := r }
    let s := like fun p => { p with recd := { p.recd with ring := keyed p.recd.ring, card := { p.recd.card with recState := .standby } } }
    let w (r : RecState) (p : Option StartSource) := waiting r fun c => { c with pendingStart := p }
    (∀ x, Ready 0 (st x).part ∧ (st x).part.recd.card.Quiet ∧ (st x).part.recd.card.recState = x ∧
      (st x).part.recd.card.ejectSlot = none ∧ (st x).part.recd.card.startSlot = none) ∧
    (st .standby).part.recd.ring.hasRetained = false ∧
    (carded fun c => { c with ejectSlot := some 3 }).part.recd.card.ejectSlot ≠ none ∧
    (carded fun c => { c with recState := .armed, startSlot := some 3 }).part.recd.card.startSlot = some 3 ∧
    (∀ p, (w .recording p).part.recd.card.Waits liveClip ∧ (w .stopping p).part.recd.card.Waits liveClip ∧
      (w .closing p).part.recd.card.Waits liveClip) ∧
    (∀ r p, Ready 0 (w r p).part ∧ (w r p).part.recd.card.recState = r ∧ (w r p).part.recd.card.pendingStart = p ∧
      (w r p).part.recd.card.ejectSlot = none ∧ (w r p).part.recd.card.request ≠ none ∧
      (w r p).part.recd.card.clip = some liveClip ∧ liveClip.live = true) ∧
    (Ready 0 s.part ∧ s.part.recd.card.recState = .standby ∧ s.part.recd.card.ejectSlot = none ∧
      s.part.recd.ring.hasRetained = true ∧ s.part.recd.card.clip = none ∧ s.part.lens.zoom.pendingMove = none ∧
      s.part.lens.focus.pendingMove = none) :=
  ⟨fun _ => ⟨carded_ready _ 0, ⟨rfl, rfl, rfl⟩, rfl, rfl, rfl⟩, rfl, nofun, rfl,
    fun _ => ⟨waits_of rfl nofun nofun (.inl rfl), waits_of rfl nofun nofun (.inr (.inl rfl)),
      waits_of rfl nofun nofun (.inr (.inr rfl))⟩,
    fun _ _ => ⟨carded_ready _ 0, rfl, rfl, rfl, nofun, rfl, rfl⟩, ready_like rfl rfl rfl 0, rfl, rfl, rfl, rfl, rfl, rfl⟩

/-- Every card state in STANDBY; a start in progress in ARMED; a waiting clip; the last WRITE of a format and of a close, with and
without a waiting eject, on a READY card with room and on a FULL one; the second ERROR of an opening. -/
theorem witness_FormatsAndEjects :
    let st (c : CardState) := carded fun k => { k with state := c, recState := .standby }
    let w (r : RecState) := waiting r fun c => { c with pendingStart := some (.slot 3) }
    let armed := carded fun c => { c with state := .ready, recState := .armed, startSlot := some 3 }
    let job (p : DirPurpose) (first count : Nat) : DirJob := ⟨p, first, count, [], true⟩
    let writing (d : DirJob) (f : CardEngine → CardEngine) := carded fun c =>
      f { c with inFlight := some ⟨.writeDir d.first d.count, false⟩, dirJobs := [d] }
    let format := writing (job .formatMap 256 25) fun c =>
      { c with state := .formatting, recState := .idle, formatSlot := some 3 }
    let close (c : CardState) (eject : Option CmdSlot) := writing (job .closeMap 25 256) fun k =>
      { k with state := c, recState := .closing, clip := some liveClip, stopSlot := some 3, ejectSlot := eject, freeUnits := 1 }
    let opening := writing (job .opening 0 25) fun k => { k with recState := .recording, clip := some liveClip }
    let answers (s : State) (d : DirJob) : Prop := s.part.recd.card.inFlight = some ⟨.writeDir d.first d.count, false⟩ ∧
      s.part.recd.card.dirJobs = [d] ∧ s.part.recd.card.mountCmd = none ∧ s.part.recd.card.request = none ∧ d.retried = true
    (∀ c, Ready 0 (st c).part ∧ (st c).part.recd.card.state = c ∧ (st c).part.recd.card.recState = .standby ∧
      (st c).part.recd.card.ejectSlot = none ∧ (st c).part.recd.card.Quiet ∧ (st c).part.recd.card.clip = none) ∧
    (Ready 0 armed.part ∧ armed.part.recd.card.state ≠ .absent ∧ armed.part.recd.card.recState = .armed ∧
      armed.part.recd.card.clip = none ∧ armed.part.recd.card.startSlot = some 3 ∧ (3 : CmdSlot) ≠ 0) ∧
    (∀ r, Ready 0 (w r).part ∧ (w r).part.recd.card.state = .ready ∧ (w r).part.recd.card.recState = r ∧
      (w r).part.recd.card.ejectSlot = none ∧ (w r).part.recd.card.request ≠ none) ∧
    ((w .stopping).part.recd.card.Waits liveClip ∧ (w .closing).part.recd.card.Waits liveClip) ∧
    (answers format (job .formatMap 256 25) ∧ format.part.recd.card.clip = none ∧
      format.part.recd.card.state = .formatting ∧ format.part.recd.card.recState = .idle ∧
      format.part.recd.card.formatSlot = some 3) ∧
    (∀ c e, answers (close c e) (job .closeMap 25 256) ∧ (close c e).part.recd.card.state = c ∧
      (close c e).part.recd.card.recState = .closing ∧ (close c e).part.recd.card.clip = some liveClip ∧
      (close c e).part.recd.card.pendingStart = none ∧ (close c e).part.recd.card.ejectSlot = e ∧
      (close c e).part.recd.card.stopSlot = some 3 ∧ (close c e).part.recd.card.freeUnits ≠ 0 ∧
      (close c e).part.recd.card.freeEntry ≠ none) ∧
    (answers opening (job .opening 0 25) ∧ opening.part.recd.card.recState = .recording ∧
      opening.part.recd.card.clip = some liveClip) :=
  ⟨fun _ => ⟨carded_ready _ 0, rfl, rfl, rfl, ⟨rfl, rfl, rfl⟩, rfl⟩, ⟨carded_ready _ 0, nofun, rfl, rfl, rfl, by decide⟩,
    fun _ => ⟨carded_ready _ 0, rfl, rfl, rfl, nofun⟩,
    ⟨waits_of rfl nofun nofun (.inr (.inl rfl)), waits_of rfl nofun nofun (.inr (.inr rfl))⟩,
    ⟨⟨rfl, rfl, rfl, rfl, rfl⟩, rfl, rfl, rfl, rfl⟩,
    fun _ _ => ⟨⟨rfl, rfl, rfl, rfl, rfl⟩, rfl, rfl, rfl, rfl, rfl, rfl, nofun, nofun⟩, ⟨rfl, rfl, rfl, rfl, rfl⟩, rfl, rfl⟩

/-- 23:59:59:24 is valid at 25, 23:59:59:25 is not; 00:01:00:00 is a skipped value at 29.97 DF. -/
theorem witness_TcSetSetsBothTimecodes :
    Ready 0 base.part ∧ 1 < (2 : Word).toNat ∧ 2 < (3 : Word).toNat ∧
    (Timecode.ofNat 0x23595924).ff.tens * 10 + (Timecode.ofNat 0x23595924).ff.units < 25 ∧
    ¬(Timecode.ofNat 0x23595925).ff.tens * 10 + (Timecode.ofNat 0x23595925).ff.units < 25 ∧
    ((Timecode.ofNat 0x00010000).ss = ⟨0, 0⟩ ∧ (Timecode.ofNat 0x00010000).mm.units ≠ 0) ∧
    base.part.recd.card.recState = .idle ∧
    (carded fun c => { c with recState := .closing }).part.recd.card.recState = .closing :=
  ⟨base_ready 0, by decide, by decide, by decide, by decide, by decide, rfl, rfl⟩

theorem witness_AudioSetSetsTheLimiter :
    Ready 0 base.part ∧ (3 : Byte).toNat = (3 : ChannelNo).val ∧ ¬(65536 : Word).toNat < 65536 ∧ 512 < (513 : Word).toNat :=
  ⟨base_ready 0, rfl, by decide, by decide⟩

/-- The last cell of the grid and the first row past it; counts 0, 48 and 49. -/
theorem witness_TextWritesTheHostLayer :
    let o := base.part.overlay
    Ready 0 base.part ∧ ((0x1A2F : Word).toNat / 256 % 256 < o.rows ∧ (0x1A2F : Word).toNat % 256 < o.columns) ∧
    o.rows ≤ (0x1B00 : Word).toNat / 256 % 256 ∧ 48 < (49 : Word).toNat % 256 ∧ (0x100 : Word).toNat % 256 = 0 ∧
    (1 ≤ (48 : Word).toNat % 256 ∧ (48 : Word).toNat % 256 ≤ 48) ∧ 26 < o.host.length ∧ 47 < (o.host[26]?.getD []).length ∧
    (o.rows ≤ (27 : Word).toNat ∧ (27 : Word).toNat ≠ 255) ∧ (255 : Word).toNat = 255 :=
  ⟨base_ready 0, by decide, by decide, by decide, by decide, by decide, by decide, by decide, by decide, rfl⟩

/-- A 12-cell meter at columns 36 and 37 of the grid, and on a field already there. -/
theorem witness_FieldSetPlacesAField :
    let o := base.part.overlay
    let p := { base.part with overlay := { o with fields := o.fields.set 0 ⟨0, 0, true⟩ } }
    Ready 0 base.part ∧ (8 < (9 : Word).toNat ∧ 1 < (2 : Word).toNat) ∧ o.rows ≤ (27 : Word).toNat ∧
    ((26 : Word).toNat < o.rows ∧ (36 : Word).toNat + 12 ≤ o.columns ∧ o.columns < (37 : Word).toNat + 12) ∧
    (∀ i : Fin 9, o.fields[i].enabled = false) ∧
    (Ready 0 p ∧ p.overlay.fields[(0 : Fin 9)].enabled = true ∧ p.overlay.fields[(0 : Fin 9)].row = (0 : Word).toNat) :=
  ⟨base_ready 0, by decide, by decide, by decide, by decide, ready_like rfl rfl rfl 0, rfl, rfl⟩

theorem witness_ZebraAndPaletteAreReplaced :
    Ready 0 base.part ∧ ¬255 < (255 : Word).toNat ∧ 255 < (256 : Word).toNat ∧ 3 < (4 : Word).toNat ∧
    (3 : Word).toNat = (3 : Fin 4).val := ⟨base_ready 0, by decide, by decide, by decide, rfl⟩

/-! ### Witnesses: the events -/

/-- A frame completes in slot 0 with the homed lens: yaw at its limit after three hits, pitch in PAN at the centre after
three such frames, channel 0 one count before its fall. Each mode without a pending copy and with one that turns the stabiliser on
and off. -/
theorem witness_NamedCasesOfAFrameComplete :
    let yaw : StabAxis := { base.part.stab.yaw with acc := 1073741824, hitRun := 3 }
    let pitch : StabAxis := { base.part.stab.pitch with panState := .pan, centreRun := 3 }
    let p := { base.part with
      slots := filling
      lens := homed base.part.lens
      stab := { base.part.stab with mode := .active, yaw := yaw, pitch := pitch }
      audio := base.part.audio.set 0 { Channel.reset with held := 5, fallCount := 1 } }
    let r : LinkReq := .write 0x014C9220 full.data.toList full.enables.toList (.capture 0 5018080)
    let c := p.stab.frame p.map.mx p.map.my p.lens.coord.table p.lens.zoom.pos
    (∀ m copy, ({ base.part.stab with mode := m, copy := copy } : Stabiliser).mode = m ∧
      ({ base.part.stab with mode := m, copy := copy } : Stabiliser).copy = copy) ∧
    ((StabCopy.mk true 14 8 4 false false).enable = true ∧ (StabCopy.mk false 14 8 4 true true).enable = false) ∧
    LinkIsNext (linkWaits p r).part r ∧ p.slots.table[0]? = some (FrameSlot.filling 1187) ∧
    0 < p.map.cw * p.map.ch ∧ (5018080 + 31 + 1 = p.map.cw * p.map.ch * 2 ∧ full.enables.toList[31]? = some true) ∧
    p.stab.applyCopy.mode = .active ∧ p.map.margin .yaw ≠ 0 ∧ p.map.margin .pitch ≠ 0 ∧
    ((p.stab.applyCopy.axis .yaw).panState = .track ∧ (c.stab.axis .yaw).panState = .pan) ∧
    ((p.stab.applyCopy.axis .pitch).panState = .pan ∧ (c.stab.axis .pitch).panState = .track) ∧
    (segment p.audio[(0 : ChannelNo)].peak < p.audio[(0 : ChannelNo)].held ∧ p.audio[(0 : ChannelNo)].holdCount = 0 ∧
      p.audio[(0 : ChannelNo)].fallCount = 1) :=
  ⟨fun _ _ => ⟨rfl, rfl⟩, ⟨rfl, rfl⟩, link_is_next _ _, rfl, by decide, ⟨by decide, rfl⟩, rfl, by decide, by decide, by decide,
    by decide, by decide⟩

/-- OFF, ACTIVE with six missing samples behind it, HOLD with fourteen valid ones. -/
theorem witness_GyroSamplesAreIntegrated :
    let a := stabbed fun s => { s with mode := .active, missingRun := 6 }
    let h := stabbed fun s => { s with mode := .hold, validRun := 14 }
    (base.part.phase = .running ∧ base.part.stab.mode = .off) ∧
    (a.part.phase = .running ∧ a.part.stab.mode = .active ∧ a.part.stab.missingRun < 7) ∧
    (h.part.phase = .running ∧ h.part.stab.mode = .hold ∧ h.part.stab.validRun < 15) :=
  ⟨⟨rfl, rfl⟩, ⟨rfl, rfl, by decide⟩, rfl, rfl, by decide⟩

/-- The eighth missing sample, the sixteenth valid one, and the 256th of a calibration at the edge of stillness; the first sample
and the 255th, which is past that edge. -/
theorem witness_GyroIsLostComesBackAndIsCalibrated :
    let a := stabbed fun s => { s with mode := .active, missingRun := 7 }
    let h := stabbed fun s => { s with mode := .hold, validRun := 15 }
    let c (n : Nat) (first : Option (Int × Int)) :=
      stabbed fun s => { s with mode := .calibrating, cal := some ⟨3, true, n, first, 0, -163200⟩ }
    (a.part.phase = .running ∧ a.part.stab.mode = .active ∧ a.part.stab.missingRun = 7) ∧
    (h.part.phase = .running ∧ h.part.stab.mode = .hold ∧ h.part.stab.validRun = 15) ∧
    (∀ n f, (c n f).part.phase = .running ∧ (c n f).part.stab.mode = .calibrating ∧
      (c n f).part.stab.cal = some ⟨3, true, n, f, 0, -163200⟩) ∧
    (((640#16).toInt - 0).natAbs ≤ 640 ∧ ((0#16).toInt - -640).natAbs ≤ 640) ∧
    (0 < 255 ∧ 254 < 255 ∧ ¬((641#16).toInt - 0).natAbs ≤ 640) :=
  ⟨⟨rfl, rfl, rfl⟩, ⟨rfl, rfl, rfl⟩, fun _ _ => ⟨rfl, rfl, rfl⟩, by decide, by decide⟩

/-- The zoom one step before its target and further from it, on a leg at its step budget with the sensor inactive, on a leg
whose sensor goes active, and in DWELL. The default ramp, whose index 400 is the least with the speed 4,000. -/
theorem witness_AxesStepTowardTheirGoal :
    let st (f : StepAxis → StepAxis) : Part := (lensed fun l => { zoomMoving l with zoom := f (zoomMoving l).zoom }).part
    let free (p : Part) : Prop := p.lens.zoom.pendingMove = none ∧ p.lens.focus.pendingMove = none ∧
      p.lens.coord.tracking = false ∧ p.lens.coord.suspended = false ∧ (p.lens.axis .zoom).cmpA.cond = .off ∧
      (p.lens.axis .zoom).cmpB.cond = .off ∧ (p.lens.axis .zoom).cmpA.met = false ∧
      (p.lens.axis .zoom).cmpB.met = false ∧ (p.lens.axis .zoom).holder = some (.host 7)
    let p := st id
    let q := st fun z => { z with goal := .moveTo 51 }
    let h := st fun z => { z with state := .homing, homing := some (.leg true 175 false) }
    let d := st fun z => { z with state := .dwell }
    (free p ∧ p.lens.zoom.state = .moving ∧ p.lens.zoom.goal = .moveTo 100 ∧ p.lens.zoom.motionDir = .up ∧
      p.lens.zoom.pos.getD 0 + 1 ≠ 100) ∧
    (free q ∧ q.lens.zoom.state = .moving ∧ q.lens.zoom.goal = .moveTo 51 ∧ q.lens.zoom.motionDir = .up ∧
      q.lens.zoom.pos.getD 0 + 1 = 51) ∧
    (free h ∧ h.lens.zoom.state = .homing ∧ h.lens.zoom.homing = some (.leg true 175 false) ∧
      h.lens.range .zoom * 11 / 10 ≤ 175 + 1) ∧
    (free d ∧ d.lens.zoom.state = .dwell) ∧
    (1 ≤ p.lens.zoom.ramp ∧ p.lens.zoom.vStart ≤ p.lens.zoom.vMax ∧
      4000 ≤ p.lens.zoom.vStart + (p.lens.zoom.vMax - p.lens.zoom.vStart) * 400 / p.lens.zoom.ramp ∧
      ∀ k < 400, p.lens.zoom.vStart + (p.lens.zoom.vMax - p.lens.zoom.vStart) * k / p.lens.zoom.ramp < 4000) := by
  refine ⟨⟨⟨rfl, rfl, rfl, rfl, rfl, rfl, rfl, rfl, rfl⟩, rfl, rfl, rfl, by decide⟩,
    ⟨⟨rfl, rfl, rfl, rfl, rfl, rfl, rfl, rfl, rfl⟩, rfl, rfl, rfl, by decide⟩,
    ⟨⟨rfl, rfl, rfl, rfl, rfl, rfl, rfl, rfl, rfl⟩, rfl, rfl, by decide⟩,
    ⟨⟨rfl, rfl, rfl, rfl, rfl, rfl, rfl, rfl, rfl⟩, rfl⟩, by decide, by decide, by decide, fun k hk => ?_⟩
  show 200 + 3800 * k / 400 < 4000
  omega

/-- Both ends of the dead band and the level past each, with the rocker in each state that a sample may leave; the zoom in each
state that may be taken, with a command and a pending move or without, after a step either way, within its limits and on its high
limit, its motion running on or stopping by deceleration. -/
theorem witness_TheRockerTakesAndReleasesTheZoom :
    let st (r : RockerState) (a : AxisState) (p : Nat) (d : Dir) (g : Goal) (m : Option PendingMove) := lensed fun l =>
      { homed l with
        zoom := { (homed l).zoom with
          state := a
          pos := some p
          dir := some d
          motionDir := d
          goal := g
          holder := some (.host 7)
          pendingMove := m }
        coord := { (homed l).coord with rocker := r, sampled := true, level := 128 } }
    let unhomed := lensed fun l => { l with coord := { l.coord with rocker := .centre, sampled := true, level := 128 } }
    (∀ r a p d g m, (st r a p d g m).part.phase = .running ∧ (st r a p d g m).part.lens.coord.sampled = true ∧
      (st r a p d g m).part.lens.coord.rocker = r ∧ (st r a p d g m).part.lens.coord.level = 128 ∧
      (st r a p d g m).part.lens.zoom.state = a ∧ (st r a p d g m).part.lens.zoom.pos = some p ∧
      (st r a p d g m).part.lens.zoom.dir = some d ∧ (st r a p d g m).part.lens.zoom.motionDir = d ∧
      (st r a p d g m).part.lens.zoom.goal = g ∧ (st r a p d g m).part.lens.zoom.pendingMove = m ∧
      (st r a p d g m).part.lens.zoom.high = 160 ∧ 0 < (st r a p d g m).part.lens.zoom.dwell ∧
      (st r a p d g m).part.lens.focus.pendingMove = none) ∧
    (∀ p x, Goal.jog ≠ .stopAt p x) ∧
    (unhomed.part.lens.coord.rocker = .centre ∧ unhomed.part.lens.zoom.state = .unhomed) ∧
    ((120 : Byte).toNat ≠ 128 ∧ 120 ≤ (120 : Byte).toNat ∧ (136 : Byte).toNat ≤ 136) ∧
    ((119 : Byte).toNat < 120 ∧ 136 < (137 : Byte).toNat) := by
  refine ⟨fun _ _ _ _ _ _ => ⟨rfl, rfl, rfl, rfl, rfl, rfl, rfl, rfl, rfl, rfl, rfl, by show 0 < 20; decide, rfl⟩,
    fun _ _ => nofun, ⟨rfl, rfl⟩, by decide, by decide⟩

/-- Run count 5 with 14 and with 15 readings more, from either debounced state, in every record state at rest and with a waiting
clip. -/
theorem witness_TheRecButtonIsDebounced :
    let st (pressed on locked : Bool) (r : RecState) (eject start : Option CmdSlot) := like fun p =>
      { p with
        lens := { p.lens with
          coord := { p.lens.coord with recPressed := pressed, recEnable := on, recLockout := locked, recRun := 5 } }
        recd := { p.recd with card := { p.recd.card with recState := r, ejectSlot := eject, startSlot := start } } }
    (∀ b e k r x y, (st b e k r x y).part.phase = .running ∧ (st b e k r x y).part.lens.coord.recPressed = b ∧
      (st b e k r x y).part.lens.coord.recEnable = e ∧ (st b e k r x y).part.lens.coord.recLockout = k ∧
      (st b e k r x y).part.lens.coord.recRun = 5 ∧ (st b e k r x y).part.recd.card.recState = r ∧
      (st b e k r x y).part.recd.card.ejectSlot = x ∧ (st b e k r x y).part.recd.card.startSlot = y ∧
      (st b e k r x y).part.recd.ring.hasRetained = false ∧ (st b e k r x y).part.recd.card.Quiet) ∧
    ((waiting .recording id).part.recd.card.Waits liveClip ∧ (waiting .stopping id).part.recd.card.Waits liveClip ∧
      (waiting .closing id).part.recd.card.Waits liveClip) ∧
    0 < 14 ∧ 5 + 14 < 20 ∧ 20 ≤ 5 + 15 :=
  ⟨fun _ _ _ _ _ _ => ⟨rfl, rfl, rfl, rfl, rfl, rfl, rfl, rfl, rfl, rfl, rfl, rfl⟩,
    ⟨waits_of rfl nofun nofun (.inl rfl), waits_of rfl nofun nofun (.inr (.inl rfl)),
      waits_of rfl nofun nofun (.inr (.inr rfl))⟩, by decide, by decide, by decide⟩

/-- Run count 1 with 98 samples more, which make 99, of each kind, and with 99 more; an insertion before and after INIT_DONE; a removal while recording, while
mounted at rest and while FAULT in STANDBY. -/
theorem witness_CardsAreMountedAndRemoved :
    let st (r : RecState) (c : CardState) := carded fun k =>
      { k with
        present := true
        detectRun := 1
        recState := r
        state := c
        clip := if r = .recording then some (OpenClip.fresh 1 0) else none }
    let out := carded fun k => { k with detectRun := 1 }
    (out.part.recd.card.Rests ∧ out.part.recd.card.present = false ∧ out.part.recd.card.detectRun + 98 = 99) ∧
    ((st .standby .ready).part.recd.card.Rests ∧ (st .standby .ready).part.recd.card.present = true ∧
      (st .standby .ready).part.recd.card.detectRun + 98 = 99) ∧
    (100 ≤ out.part.recd.card.detectRun + 99 ∧ out.part.recd.card.state = .absent ∧ out.part.recd.card.recState = .idle ∧
      out.part.recd.card.ejected = false ∧ out.part.recd.card.request = none ∧ out.part.recd.card.inFlight = none ∧
      out.part.phase = .running ∧ out.part.map.conflict = false ∧ State.reset.part.phase ≠ .running) ∧
    (∀ r c, (st r c).part.recd.card.present = true ∧ 100 ≤ (st r c).part.recd.card.detectRun + 99 ∧
      (st r c).part.recd.card.recState = r ∧ (st r c).part.recd.card.state = c) ∧
    (st .standby .ready).part.recd.card.clip = none ∧ (st .recording .ready).part.recd.card.clip ≠ none := by
  refine ⟨⟨.inl ⟨rfl, rfl, rfl⟩, rfl, rfl⟩, ⟨.inl ⟨rfl, rfl, rfl⟩, rfl, rfl⟩,
    ⟨by decide, rfl, rfl, rfl, rfl, rfl, rfl, rfl, nofun⟩, fun r c => ⟨rfl, Nat.le_refl 100, rfl, rfl⟩, rfl, nofun⟩

/-- 8,192 blocks and one fewer; 256 blocks of data and half a block fewer; the second READ's 25 blocks; the fifteenth and the
sixteenth batch of a clip whose opening WRITE was OK; a batch's first and second ERROR, in a first and in a replacement unit; the
opening WRITE. -/
theorem witness_CardAnswersAreTaken :
    let st (c : CardCmd) (gone : Bool) := carded fun k => { k with state := .mounting, inFlight := some ⟨c, gone⟩ }
    let w (done : Nat) (again moved : Bool) := carded fun k =>
      { k with
        state := .ready
        recState := .recording
        clip := some { liveClip with opened := true, batchesDone := done, relocated := moved }
        request := some (.chunk 0 32 1 .b)
        bufA := { k.bufA with state := .writing, retried := again }
        inFlight := some ⟨.writeBatch 8192 .a, false⟩ }
    let d : DirJob := ⟨.opening, 0, 25, [], false⟩
    let opening := carded fun k =>
      { k with recState := .recording, clip := some liveClip, dirJobs := [d], inFlight := some ⟨.writeDir 0 25, false⟩ }
    (∀ c g, (st c g).part.recd.card.clip = none ∧ (st c g).part.recd.card.dirJobs = [] ∧
      (st c g).part.recd.card.mountCmd = none ∧ (st c g).part.recd.card.request = none ∧
      (st c g).part.recd.card.inFlight = some ⟨c, g⟩ ∧ (st c g).part.recd.card.state = .mounting ∧
      (st c g).part.recd.card.mirror = none) ∧
    ((List.replicate 131072 (0 : Byte)).length = 131072 ∧ (List.replicate 130816 (0 : Byte)).length ≠ 131072 ∧
      (List.replicate 12800 (0 : Byte)).length = 12800 ∧ 8191 < 8192) ∧
    (∀ n a m, (w n a m).part.recd.card.inFlight = some ⟨.writeBatch 8192 .a, false⟩ ∧
      (w n a m).part.recd.card.clip = some { liveClip with opened := true, batchesDone := n, relocated := m } ∧
      (w n a m).part.recd.card.recState = .recording ∧ ((w n a m).part.recd.card.buffer .a).retried = a ∧
      liveClip.live = true ∧ liveClip.finishing = false) ∧
    (14 + 1 < 16 ∧ 15 ≤ 15) ∧
    (opening.part.recd.card.inFlight = some ⟨.writeDir d.first d.count, false⟩ ∧ opening.part.recd.card.dirJobs = [d] ∧
      d.purpose = .opening ∧ opening.part.recd.card.clip = some liveClip ∧
      opening.part.recd.card.recState = .recording) := by
  refine ⟨fun c g => ⟨rfl, rfl, rfl, rfl, rfl, rfl, rfl⟩, ⟨List.length_replicate, ?_, List.length_replicate, by decide⟩,
    fun n a m => ⟨rfl, rfl, rfl, rfl, rfl, rfl⟩, by decide, rfl, rfl, rfl, rfl, rfl⟩
  rw [List.length_replicate]; decide

/-! ### Witnesses: what every step keeps -/

theorem witness_EveryStepKeepsTheMemoryForm : (sending base.part 0 (.write [full])).mem.wf = true := rfl

/-- At the limit in ACTIVE. -/
theorem witness_EveryStepKeepsTheAccumulatorsBounded :
    (stabbed fun s => { s with mode := .active, yaw := { s.yaw with acc := 5, lim := 5 } }).part.stab.Bounded := by
  refine ⟨⟨by decide, ?_⟩, by decide, ?_⟩ <;> rintro (h | h) <;> cases h

theorem witness_EveryStepKeepsTheSlotTableSound : ({ base.part with slots := filling }).SlotsSound :=
  ⟨rfl, by decide, filling_laws⟩

/-- Sixteen transactions held and a sender waiting. -/
theorem witness_EveryStepKeepsTheLinkPortBounded :
    (⟨List.replicate 16 (.arriving 0 (.read 1)), [.arriving 0 (.read 1)], none, none⟩ : LinkPort).Bounded := by
  refine ⟨by decide, fun _ => by decide⟩

end Sys2Proof.Tests
end

/-! PROOFS. The beats that the link port hands on: which row takes a beat, and that beats refused in the private area and
hole beats end at the port without a memory access (01 section 1.4, R11, R12). -/

section

namespace Sys2Proof.Machine

/-! ### The beat handed on, and its row -/

/-- The beat of the model's own type for an address and the beat written there, none for a READ. -/
def LinkBeat.handed (a : Nat) (w : Option WriteBeat) : LinkBeat :=
  ⟨a, w.map fun b => (WriteBeat.bytes b, WriteBeat.flags b)⟩

@[simp] theorem LinkBeat.handed_addr (a : Nat) (w : Option WriteBeat) : (LinkBeat.handed a w).addr = a := rfl

@[simp] theorem LinkBeat.handed_write (a : Nat) (w : Option WriteBeat) :
    (LinkBeat.handed a w).write = w.map fun b => (WriteBeat.bytes b, WriteBeat.flags b) := rfl

/-- What the port hands on is the next beat (R1). -/
theorem Part.nextBeat_of_handsOn {p : Part} {a : Nat} {w : Option WriteBeat} (h : HandsOn p a w) :
    p.nextBeat = some (.handed a w) := by
  obtain ⟨hphase, hreq, t, ts, hheld, rfl, hkind, hbeat⟩ := h
  cases w with
  | none =>
    have hread : t.isWrite = false := hkind
    simp [Part.nextBeat, LinkBeat.handed, hphase, hreq, hheld, hread]
  | some b =>
    have hwrite : t.isWrite = true := hkind
    have hb : t.beats[t.next]? = some b := hbeat b rfl
    simp [Part.nextBeat, LinkBeat.handed, hphase, hreq, hheld, hwrite, hb]

/-- A row takes the beat handed on where the region map gives it to that row (R4). -/
theorem Part.beatFor_of_handsOn {p : Part} {a : Nat} {w : Option WriteBeat} (h : HandsOn p a w) (row : BeatRow) :
    p.beatFor row = if p.map.beatRow a w.isSome = row then some (.handed a w) else none := by
  simp [Part.beatFor, Part.nextBeat_of_handsOn h, Option.filter_some]

/-- The row that takes the beat handed on has its effect on it. -/
theorem State.onBeat_of_handsOn {s : State} {a : Nat} {w : Option WriteBeat} {row : BeatRow} (h : HandsOn s.part a w)
    (hrow : s.part.map.beatRow a w.isSome = row) (f : LinkBeat → Part → Part) :
    s.onBeat row f = s.onPart (f (.handed a w)) := by
  simp [State.onBeat, Part.beatFor_of_handsOn h, hrow]

/-! ### The region map on the private area and the holes -/

/-- What a region's own test says of an address. -/
theorem inRegion_iff {base size a : Nat} : inRegion base size a = true ↔ base ≤ a ∧ a < base + size := by
  simp [inRegion]

/-- The private area is classed after the control block alone (R4). -/
theorem RegionMap.physRegion_private {m : RegionMap} {a : Nat} (hc : ¬(m.controlBase ≤ a ∧ a < m.controlBase + 0x800))
    (hlo : m.privBase ≤ a) (hhi : a < m.privBase + 0x40000) : m.physRegion a = .privateArea := by
  have outside : ¬inRegion m.controlBase controlSize a = true := fun h => hc (inRegion_iff.1 h)
  have inside : inRegion m.privBase privSize a = true := inRegion_iff.2 ⟨hlo, hhi⟩
  rw [RegionMap.physRegion, if_neg outside, if_pos inside]

/-- In the private area a WRITE is refused and a READ is an ordinary beat (R11). -/
theorem RegionMap.beatRow_private {m : RegionMap} {a : Nat} (ha : a < captureBase) (h : m.physRegion a = .privateArea)
    (isWrite : Bool) : m.beatRow a isWrite = if isWrite then .privateAreaWrite else .physical := by
  cases isWrite <;> simp [RegionMap.beatRow, ha, h]

/-- A WRITE in a view alias, in the hole or above the address space is a hole beat (R1, R12). -/
theorem RegionMap.beatRow_hole_write (m : RegionMap) {a : Nat} (ha : encBase ≤ a) : m.beatRow a true = .hole := by
  have hcapture : ¬a < captureBase := by unfold encBase captureBase at *; omega
  simp [RegionMap.beatRow, hcapture, Nat.not_lt.2 ha]

/-- A READ of the capture alias, of the hole or above the address space is a hole beat (R1, R12). -/
theorem RegionMap.beatRow_hole_read (m : RegionMap) {a : Nat} (ha : (captureBase ≤ a ∧ a < encBase) ∨ holeBase ≤ a) :
    m.beatRow a false = .hole := by
  obtain ⟨hlo, hhi⟩ | ha := ha
  · simp [RegionMap.beatRow, Nat.not_lt.2 hlo, hhi]
  · have hcapture : ¬a < captureBase := by unfold holeBase captureBase at *; omega
    have henc : ¬a < encBase := by unfold holeBase encBase at *; omega
    simp [RegionMap.beatRow, hcapture, henc, Nat.not_lt.2 ha]

/-! ### The rows' effects -/

/-- A refused WRITE beat ends with an ERROR mark and no request (R11). -/
theorem exec_privateAreaWrite_of_handsOn {s : State} {a : Nat} {b : WriteBeat} (h : HandsOn s.part a (some b))
    (ha : a < captureBase) (hp : s.part.map.physRegion a = .privateArea) :
    exec .privateAreaWrite s = .next (s.onPart fun p =>
      { p with bus := p.bus.raise .privateWrite, link := p.link.endBeat none true }) := by
  have hrow : s.part.map.beatRow a (some b).isSome = .privateAreaWrite := RegionMap.beatRow_private ha hp true
  exact congrArg _ (State.onBeat_of_handsOn h hrow _)

/-- A READ beat of the private area asks memory for its own address, watched by nobody (R11). -/
theorem exec_physicalBeat_of_private_read {s : State} {a : Nat} (h : HandsOn s.part a none) (ha : a < captureBase)
    (hp : s.part.map.physRegion a = .privateArea) :
    exec .physicalBeat s = .next (s.onPart fun p => { p with link := { p.link with request := some (.read a none) } }) := by
  have hrow : s.part.map.beatRow a (none : Option WriteBeat).isSome = .physical := RegionMap.beatRow_private ha hp false
  have hbeat : s.part.physicalBeat (.handed a none) = s.part.linkRequest (.read a none) := by
    simp [Part.physicalBeat, hp, PhysRegion.report]
  calc exec .physicalBeat s
      = .next (s.onPart (Part.physicalBeat (.handed a none))) := congrArg _ (State.onBeat_of_handsOn h hrow _)
    _ = .next (s.onPart (Part.linkRequest (.read a none))) := by simp only [State.onPart, hbeat]

/-- A hole WRITE raises ADDRESS_HOLE and ends with an ERROR mark and no request (R12). -/
theorem exec_holeBeat_of_write {s : State} {a : Nat} {b : WriteBeat} (h : HandsOn s.part a (some b)) (ha : encBase ≤ a) :
    exec .holeBeat s = .next (s.onPart fun p =>
      { p with bus := p.bus.raise .addressHole, link := p.link.endBeat none true }) := by
  have hrow : s.part.map.beatRow a (some b).isSome = .hole := RegionMap.beatRow_hole_write _ ha
  exact congrArg _ (State.onBeat_of_handsOn h hrow _)

/-- A hole READ returns zeros with an ERROR mark and no request, and raises nothing (R12). -/
theorem exec_holeBeat_of_read {s : State} {a : Nat} (h : HandsOn s.part a none)
    (ha : (captureBase ≤ a ∧ a < encBase) ∨ holeBase ≤ a) :
    exec .holeBeat s = .next (s.onPart fun p =>
      { p with link := p.link.endBeat (some (List.replicate 32 0)) true }) := by
  have hrow : s.part.map.beatRow a (none : Option WriteBeat).isSome = .hole := RegionMap.beatRow_hole_read _ ha
  exact congrArg _ (State.onBeat_of_handsOn h hrow _)

/-- Raising a factor joins its bit to the pending word (R28). -/
theorem Bus.raise_report_pending (f : Factor) (b : Bus) :
    (b.raise f).report.pending = b.report.pending ||| f.bit := by rw [Bus.raise_report]

/-- Settles O9: the region map gives each of these beats to its row, and the row's effect is one request to memory for a READ
of the private area, and none for a refused beat or a hole beat. -/
theorem refusedAndHoleBeatsReachNoMemory : Obligations.RefusedAndHoleBeatsReachNoMemory := by
  refine ⟨?privateWrite, ?privateRead, fun s a => ⟨?holeWrite, ?holeRead⟩⟩
  case privateWrite =>
    intro s a b h ha m hc hlo hhi
    exact ⟨exec_privateAreaWrite_of_handsOn h ha (RegionMap.physRegion_private hc hlo hhi), Bus.raise_report_pending ..⟩
  case privateRead =>
    intro s a h ha m hc hlo hhi
    exact exec_physicalBeat_of_private_read h ha (RegionMap.physRegion_private hc hlo hhi)
  case holeWrite =>
    intro b h ha
    exact ⟨exec_holeBeat_of_write h ha, Bus.raise_report_pending ..⟩
  case holeRead =>
    intro h ha
    exact exec_holeBeat_of_read h ha

end Sys2Proof.Machine

end

/-! PROOFS. STAB_SET at its take (04 section 4.7, R69, R71): the order of its tests, what a refused one leaves alone, and what
an accepted one sets. -/

section

namespace Sys2Proof.Machine

/-! ### A command offered in a ready slot -/

/-- A change of the part is known by its value at the part it meets. -/
theorem State.onPart_congr {s : State} {f g : Part → Part} (h : f s.part = g s.part) : s.onPart f = s.onPart g :=
  congrArg (fun p => { s with part := p }) h

/-- A command offered in an accepting slot is taken (R20, R21). -/
theorem State.offered_of_accepts {slot : CmdSlot} {s : State} (h : Accepts slot s.part) (taken : Part → Part) :
    s.offered slot taken = .next (s.onPart taken) :=
  congrArg _ (State.onPart_congr (Part.offer_accepts h taken))

/-- The take of a stabiliser command in a ready slot: the stabiliser and the outcome that its judgement gives (R22, R23). -/
theorem Part.take_stab {slot : CmdSlot} {kind : Byte} {p : Part} {judge : Part → Stabiliser × Verdict} {t : Stabiliser}
    {v : Verdict} (h : Ready slot p) (hjudge : judge { p with bus := p.bus.beginTake slot kind } = (t, v)) :
    p.take slot kind true 0 (fun p => let r := judge p; ({ p with stab := r.1 }, r.2)) =
      { p.afterTake slot kind [] v with stab := t } := by
  rw [Part.take_ready h, ite_self]
  simp only [hjudge]
  rfl

/-! ### Judging operands in order -/

/-- A test at the front decides where it fails, and otherwise the rest decides (R22). -/
theorem firstFailure_cons {ok : Bool} {bad : Prop} [Decidable bad] (h : ok = false ↔ bad) (v : Verdict) (cs : List Check) :
    firstFailure ((ok, v) :: cs) = if bad then some v else firstFailure cs := by
  cases ok with
  | false => exact (if_pos (h.1 rfl)).symm
  | true => exact (if_neg fun hb => nomatch h.2 hb).symm

/-- An operand's test at the front refuses where its operand is bad, and otherwise the rest decides (R22). -/
theorem firstFailure_operandTest {ok : Bool} {bad : Prop} [Decidable bad] (h : ok = false ↔ bad) (k : Nat) (cs : List Check) :
    firstFailure (operandTest k ok :: cs) = if bad then some (.badValue k) else firstFailure cs :=
  firstFailure_cons h _ cs

/-- A test of the owner's state at the front refuses where the state is bad, and otherwise the rest decides (R22). -/
theorem firstFailure_ownerTest {ok : Bool} {bad : Prop} [Decidable bad] (h : ok = false ↔ bad) (code : OutcomeCode)
    (cs : List Check) :
    firstFailure (ownerTest ok code :: cs) = if bad then some (.refuse code) else firstFailure cs :=
  firstFailure_cons h _ cs

/-- One test of a judgement: where it fails the command's take is no more than the refusal, and otherwise the rest of the
judgement decides (R22). -/
theorem next_of_test {slot : CmdSlot} {kind : Byte} {s : State} {answer : Answer} {first rest : Option Verdict} {v : Verdict}
    {bad : Prop} [Decidable bad] {carried : Part → Part}
    (refused : ∀ {v}, first = some v → answer = .next (s.onPart (Part.takenOnly slot kind v)))
    (judged : first = if bad then some v else rest)
    (passed : ¬bad → first = rest → answer = .next (s.onPart carried)) :
    answer = .next (s.onPart (if bad then Part.takenOnly slot kind v else carried)) := by
  by_cases h : bad
  · rw [if_pos h] at judged ⊢
    exact refused judged
  · rw [if_neg h] at judged ⊢
    exact passed h judged

/-- An operand's range test fails below its lower bound and above its upper one. -/
theorem within_eq_false_iff {lo hi v : Nat} : within lo hi v = false ↔ v < lo ∨ hi < v := by
  simp [within]; omega

/-! ### The gyro rate (R53, R71) -/

/-- The three legal values of operand 2 and the rates they name. -/
theorem gyroRateOf_legal {n : Nat} (h : ¬(n ≠ 512 ∧ n ≠ 1024 ∧ n ≠ 2048)) :
    gyroRateOf n = some (if n = 512 then .hz512 else if n = 1024 then .hz1024 else .hz2048) := by
  have legal : n = 512 ∨ n = 1024 ∨ n = 2048 := by omega
  rcases legal with rfl | rfl | rfl <;> rfl

/-- Any other value of operand 2 names no rate. -/
theorem gyroRateOf_isSome_eq_false_iff {n : Nat} :
    (gyroRateOf n).isSome = false ↔ n ≠ 512 ∧ n ≠ 1024 ∧ n ≠ 2048 := by
  constructor
  · intro h
    refine ⟨?_, ?_, ?_⟩ <;> rintro rfl <;> exact nomatch h
  · rintro ⟨h512, h1024, h2048⟩
    unfold gyroRateOf
    split
    · exact absurd rfl h512
    · exact absurd rfl h1024
    · exact absurd rfl h2048
    · rfl

/-! ### The judgement of STAB_SET and its effect on the stabiliser -/

/-- The order in which a STAB_SET is judged (R69): its seven operands, then the lens table, then the mode. -/
theorem Stabiliser.firstFailure_setTests (table : Option LensTable) (enable rate lTrack lPan hold yaw pitch : Nat)
    (s : Stabiliser) :
    firstFailure (s.setTests table enable rate lTrack lPan hold yaw pitch) =
      if 1 < enable then some (.badValue 1)
      else if rate ≠ 512 ∧ rate ≠ 1024 ∧ rate ≠ 2048 then some (.badValue 2)
      else if lTrack < 8 ∨ 16 < lTrack then some (.badValue 3)
      else if lPan < 4 ∨ 12 < lPan ∨ lTrack < lPan then some (.badValue 4)
      else if hold < 1 ∨ 15 < hold then some (.badValue 5)
      else if 1 < yaw then some (.badValue 6)
      else if 1 < pitch then some (.badValue 7)
      else if table = none then some (.refuse .noLensTable)
      else if s.mode = .calibrating then some (.refuse .busy)
      else none := by
  have flag (n : Nat) : decide (n ≤ 1) = false ↔ 1 < n := by simp
  have leak : (within 4 12 lPan && decide (lPan ≤ lTrack)) = false ↔ lPan < 4 ∨ 12 < lPan ∨ lTrack < lPan := by
    rw [Bool.and_eq_false_iff, within_eq_false_iff, decide_eq_false_iff_not, Nat.not_le, or_assoc]
  have noTable : table.isSome = false ↔ table = none := by simp
  have busy : decide (s.mode ≠ .calibrating) = false ↔ s.mode = .calibrating := by simp
  unfold Stabiliser.setTests
  rw [firstFailure_operandTest (flag enable), firstFailure_operandTest gyroRateOf_isSome_eq_false_iff,
    firstFailure_operandTest within_eq_false_iff, firstFailure_operandTest leak,
    firstFailure_operandTest within_eq_false_iff, firstFailure_operandTest (flag yaw),
    firstFailure_operandTest (flag pitch), firstFailure_ownerTest noTable, firstFailure_ownerTest busy]
  rfl

/-- A refused STAB_SET changes nothing in the stabiliser, a pending copy included (R69). -/
theorem Stabiliser.set_refused {table : Option LensTable} {enable rate lTrack lPan hold yaw pitch : Nat} {s : Stabiliser}
    {v : Verdict} (h : firstFailure (s.setTests table enable rate lTrack lPan hold yaw pitch) = some v) :
    s.set table enable rate lTrack lPan hold yaw pitch = (s, v) := by
  unfold Stabiliser.set
  rw [h]

/-- A STAB_SET that passes its tests applies its rate and becomes the pending copy (R69, R71). -/
theorem Stabiliser.set_accepted {table : Option LensTable} {enable rate lTrack lPan hold yaw pitch : Nat} {s : Stabiliser}
    {r : GyroRate} (h : firstFailure (s.setTests table enable rate lTrack lPan hold yaw pitch) = none)
    (hr : gyroRateOf rate = some r) :
    s.set table enable rate lTrack lPan hold yaw pitch =
      ({ s.setRate r with
          copy := some ⟨decide (enable = 1), lTrack, lPan, hold, decide (yaw = 1), decide (pitch = 1)⟩ }, .done) := by
  unfold Stabiliser.set
  rw [h, hr]

/-! ### STAB_SET in a ready slot -/

section

variable {slot : CmdSlot} {enable rate lTrack lPan hold yaw pitch : Word} {s : State} {t : Stabiliser} {v : Verdict}

/-- A STAB_SET in a ready slot gives the stabiliser the state and the slot the outcome of its judgement, and does no more. -/
theorem exec_stabSet_of_ready (h : Ready slot s.part)
    (hset : s.part.stab.set s.part.lens.coord.table enable.toNat rate.toNat lTrack.toNat lPan.toNat hold.toNat yaw.toNat
      pitch.toNat = (t, v)) :
    exec (.stabSet slot enable rate lTrack lPan hold yaw pitch) s =
      .next (s.onPart fun p => { p.afterTake slot 0x20 [] v with stab := t }) := by
  have offered : exec (.stabSet slot enable rate lTrack lPan hold yaw pitch) s =
      .next (s.onPart (Part.takeStabSet slot enable rate lTrack lPan hold yaw pitch)) :=
    State.offered_of_accepts h.1 _
  exact offered.trans (congrArg _ (State.onPart_congr (Part.take_stab h hset)))

/-- A refused one leaves the slot's outcome alone behind (R69). -/
theorem exec_stabSet_refused (h : Ready slot s.part)
    (hv : firstFailure (s.part.stab.setTests s.part.lens.coord.table enable.toNat rate.toNat lTrack.toNat lPan.toNat
      hold.toNat yaw.toNat pitch.toNat) = some v) :
    exec (.stabSet slot enable rate lTrack lPan hold yaw pitch) s = .next (s.onPart (Part.takenOnly slot 0x20 v)) :=
  (exec_stabSet_of_ready h (Stabiliser.set_refused hv)).trans (congrArg _ (State.onPart_congr rfl))

end

/-- Settles O39: the tests are judged in the manual's order, each failure is a take with no more than its refusal, and a
command that passes them all sets the rate and the pending copy. -/
theorem stabSetBecomesThePendingCopy : Obligations.StabSetBecomesThePendingCopy := by
  intro slot enable rate lTrack lPan hold yaw pitch s h
  have judged := s.part.stab.firstFailure_setTests s.part.lens.coord.table enable.toNat rate.toNat lTrack.toNat lPan.toNat
    hold.toNat yaw.toNat pitch.toNat
  refine
    next_of_test (exec_stabSet_refused h) judged fun _enableLegal judged =>
    next_of_test (exec_stabSet_refused h) judged fun rateLegal judged =>
    next_of_test (exec_stabSet_refused h) judged fun _trackLegal judged =>
    next_of_test (exec_stabSet_refused h) judged fun _panLegal judged =>
    next_of_test (exec_stabSet_refused h) judged fun _holdLegal judged =>
    next_of_test (exec_stabSet_refused h) judged fun _yawLegal judged =>
    next_of_test (exec_stabSet_refused h) judged fun _pitchLegal judged =>
    next_of_test (exec_stabSet_refused h) judged fun _tableHeld judged =>
    next_of_test (exec_stabSet_refused h) judged fun _notCalibrating passed => ?_
  rw [exec_stabSet_of_ready h (Stabiliser.set_accepted passed (gyroRateOf_legal rateLegal))]
  exact congrArg _ (State.onPart_congr rfl)

end Sys2Proof.Machine

end

/-! PROOFS. The overlay unit's settings (11 section 11.5): the order in which FIELD_SET, ZEBRA_SET and PALETTE_SET are judged
(R182, R184), what an accepted one replaces, and what the resets and RESTART do to the overlay. -/

section

namespace Sys2Proof.Machine

/-! ### A command of the overlay unit in a ready slot -/

section

variable {slot : CmdSlot} {kind : Byte} {s : State} {judge : Overlay → Overlay × Verdict} {v : Verdict}

/-- The take of an overlay command in a ready slot: the overlay and the outcome that its judgement gives (R22, R23). -/
theorem Part.takeOverlay_ready {p : Part} {o : Overlay} (h : Ready slot p) (hjudge : judge p.overlay = (o, v)) :
    p.takeOverlay slot kind judge = { p.afterTake slot kind [] v with overlay := o } := by
  unfold Part.takeOverlay
  rw [Part.take_ready h, ite_self]
  simp only [Part.onOverlay, hjudge]
  rfl

/-- A refused overlay command leaves the slot's outcome alone behind. -/
theorem State.offered_overlay_refused (h : Ready slot s.part) (hjudge : judge s.part.overlay = (s.part.overlay, v)) :
    s.offered slot (Part.takeOverlay slot kind judge) = .next (s.onPart (Part.takenOnly slot kind v)) :=
  (State.offered_of_accepts h.1 _).trans (congrArg _ (State.onPart_congr (Part.takeOverlay_ready h hjudge)))

/-- An overlay command carried out changes the overlay and no other block. -/
theorem State.offered_overlay_done (change : Overlay → Overlay) (h : Ready slot s.part)
    (hjudge : judge s.part.overlay = (change s.part.overlay, .done)) :
    s.offered slot (Part.takeOverlay slot kind judge) =
      .next (s.onPart fun p => { p.afterTake slot kind [] .done with overlay := change p.overlay }) :=
  (State.offered_of_accepts h.1 _).trans (congrArg _ (State.onPart_congr (Part.takeOverlay_ready h hjudge)))

end

/-! ### Bounds of operands, and writes within bounds -/

/-- An upper bound that a number may meet fails above it. -/
theorem decide_le_eq_false_iff {n m : Nat} : decide (n ≤ m) = false ↔ m < n := by
  rw [decide_eq_false_iff_not, Nat.not_le]

/-- An upper bound that a number may not meet fails from it on. -/
theorem decide_lt_eq_false_iff {n m : Nat} : decide (n < m) = false ↔ m ≤ n := by
  rw [decide_eq_false_iff_not, Nat.not_lt]

/-- A write that is dropped out of bounds is a plain write in bounds. -/
theorem setIfInBounds_eq_set {α : Type} {n : Nat} (xs : Vector α n) (i : Fin n) (x : α) :
    xs.setIfInBounds i x = xs.set i x := by
  ext j hj
  rw [Vector.getElem_setIfInBounds, Vector.getElem_set]

/-! ### FIELD_SET (R182) -/

/-- The widths of R181's table, 0 for a number that is no field's. -/
theorem fieldWidth_eq_getD : ∀ i : Nat, fieldWidth i = [11, 4, 12, 12, 12, 12, 12, 4, 2].getD i 0
  | 0 | 1 | 2 | 3 | 4 | 5 | 6 | 7 | 8 | _ + 9 => rfl

/-- Two fields share a cell where they lie in one row and each begins before the other ends. -/
theorem shareCell_iff {rowA colA widthA rowB colB widthB : Nat} :
    shareCell rowA colA widthA rowB colB widthB = true ↔ rowA = rowB ∧ colA < colB + widthB ∧ colB < colA + widthA := by
  simp [shareCell, and_assoc]

/-- The place shares a cell with another field that is enabled (R182 step 3). -/
theorem Overlay.overlaps_iff (o : Overlay) (field row column : Nat) :
    o.overlaps field row column = true ↔
      ∃ i : Fin 9, i.val ≠ field ∧ o.fields[i].enabled = true ∧ o.fields[i].row = row ∧
        column < o.fields[i].column + fieldWidth i ∧ o.fields[i].column < column + fieldWidth field := by
  unfold Overlay.overlaps
  rw [List.any_eq_true]
  constructor
  · rintro ⟨i, hi, hmeets⟩
    have hi : i < 9 := List.mem_range.1 hi
    rw [Vector.getElem?_eq_getElem hi] at hmeets
    simp only [Bool.and_eq_true, decide_eq_true_eq, shareCell_iff] at hmeets
    obtain ⟨⟨hother, hon⟩, hrow, hcolumns⟩ := hmeets
    exact ⟨⟨i, hi⟩, hother, hon, hrow.symm, hcolumns⟩
  · rintro ⟨i, hother, hon, hrow, hcolumns⟩
    refine ⟨i, List.mem_range.2 i.isLt, ?_⟩
    rw [Vector.getElem?_eq_getElem i.isLt]
    simp only [Bool.and_eq_true, decide_eq_true_eq, shareCell_iff]
    exact ⟨⟨hother, hon⟩, hrow.symm, hcolumns⟩

/-- A number that is no field's is refused (R182 step 1). -/
theorem Overlay.fieldSet_noField {field : Nat} (h : 8 < field) (row column enable : Nat) (o : Overlay) :
    o.fieldSet field row column enable = (o, .badValue 1) := by
  simp only [Overlay.fieldSet, firstFailure_operandTest decide_le_eq_false_iff, if_pos h]

/-- An enable other than 0 and 1 is refused after the field's number (R182 step 1). -/
theorem Overlay.fieldSet_badEnable {field enable : Nat} (hfield : field ≤ 8) (henable : 1 < enable) (row column : Nat)
    (o : Overlay) : o.fieldSet field row column enable = (o, .badValue 4) := by
  simp only [Overlay.fieldSet, firstFailure_operandTest decide_le_eq_false_iff, if_neg (Nat.not_lt.2 hfield), if_pos henable]

section

variable {k : Fin 9} {field enable : Nat}

/-- With enable 0 the field is disabled at its last place, wherever operands 2 and 3 point (R182). -/
theorem Overlay.fieldSet_disable (hk : field = k) (henable : enable = 0) (row column : Nat) (o : Overlay) :
    o.fieldSet field row column enable =
      ({ o with fields := o.fields.set k { o.fields[k] with enabled := false } }, .done) := by
  subst hk henable
  have isField : k.val ≤ 8 := Nat.le_of_lt_succ k.isLt
  simp [Overlay.fieldSet, firstFailure, operandTest, ownerTest, isField, setIfInBounds_eq_set]

/-- With enable 1 the row, the end of the field and the other fields are judged in that order, and a field that passes takes its
place (R182). -/
theorem Overlay.fieldSet_enable (hk : field = k) (henable : enable = 1) (row column : Nat) (o : Overlay) :
    o.fieldSet field row column enable =
      if o.rows ≤ row then (o, .badValue 2)
      else if o.columns < column + fieldWidth field then (o, .badValue 3)
      else if o.overlaps field row column = true then (o, .refuse .overlap)
      else ({ o with fields := o.fields.set k ⟨row, column, true⟩ }, .done) := by
  subst hk henable
  have isField : ¬8 < k.val := by omega
  have shared : (!o.overlaps k row column) = false ↔ o.overlaps k row column = true := by rw [Bool.not_eq_false']
  simp only [Overlay.fieldSet, Nat.one_ne_zero, decide_false, Bool.false_or, firstFailure_operandTest decide_le_eq_false_iff,
    firstFailure_operandTest decide_lt_eq_false_iff, firstFailure_ownerTest shared, if_neg isField, lt_irrefl, if_false,
    Vector.getElem?_eq_getElem k.isLt, Bool.false_eq_true, setIfInBounds_eq_set]
  split_ifs <;> rfl

end

/-! ### ZEBRA_SET and PALETTE_SET (R184) -/

/-- ZEBRA_SET is judged in index order, and one that passes replaces the enable and the level (R184). -/
theorem Overlay.zebraSet_eq (enable level : Nat) (o : Overlay) :
    o.zebraSet enable level =
      if 1 < enable then (o, .badValue 1)
      else if 255 < level then (o, .badValue 2)
      else ({ o with zebra := decide (enable = 1), level := level }, .done) := by
  simp only [Overlay.zebraSet, firstFailure_operandTest decide_le_eq_false_iff]
  split_ifs <;> rfl

/-- A number that is no entry's is refused (R184). -/
theorem Overlay.paletteSet_noEntry {entry : Nat} (h : 3 < entry) (y cb cr : Nat) (o : Overlay) :
    o.paletteSet entry y cb cr = (o, .badValue 1) := by
  simp only [Overlay.paletteSet, firstFailure_operandTest decide_le_eq_false_iff, if_pos h]

/-- An entry's three values are judged in index order, and a command that passes replaces the entry (R184). -/
theorem Overlay.paletteSet_entry {k : Fin 4} {entry : Nat} (hk : entry = k) (y cb cr : Nat) (o : Overlay) :
    o.paletteSet entry y cb cr =
      if 255 < y then (o, .badValue 2)
      else if 255 < cb then (o, .badValue 3)
      else if 255 < cr then (o, .badValue 4)
      else ({ o with palette := o.palette.set k ⟨BitVec.ofNat 8 y, BitVec.ofNat 8 cb, BitVec.ofNat 8 cr⟩ }, .done) := by
  subst hk
  have isEntry : ¬3 < k.val := by omega
  simp only [Overlay.paletteSet, firstFailure_operandTest decide_le_eq_false_iff, if_neg isEntry, setIfInBounds_eq_set]
  split_ifs <;> rfl

/-! ### RESTART keeps the overlay (R174) -/

/-- The restart point gives no value to the overlay unit. -/
theorem Part.restartPoint_overlay (slot : CmdSlot) (p : Part) : (p.restartPoint slot).overlay = p.overlay := by
  unfold Part.restartPoint
  rw [Part.onRecorder_frame]

/-- A RESTART in a ready slot, PENDING at its take or not, leaves the overlay unit as it is. -/
theorem Part.takeRestart_overlay {slot : CmdSlot} {p : Part} (h : Ready slot p) : (p.takeRestart slot).overlay = p.overlay := by
  have kept : (p.take slot 0x02 true 0 fun p => (p, .pending)).overlay = p.overlay := by rw [Part.take_ready h]
  unfold Part.takeRestart
  dsimp only
  split
  · exact (Part.restartPoint_overlay ..).trans kept
  · exact kept

/-! ### The obligations -/

/-- Settles O47: a field and an enable out of range are refused first; with enable 1 the place is judged as
`Overlay.fieldSet_enable` says, and with enable 0 the field is disabled. -/
theorem fieldSetPlacesAField : Obligations.FieldSetPlacesAField := by
  intro slot field row column enable s h
  simp only [← fieldWidth_eq_getD]
  have isFin (hfield : field.toNat ≤ 8) : ∃ k : Fin 9, field.toNat = k.val := ⟨⟨_, Nat.lt_succ_of_le hfield⟩, rfl⟩
  refine ⟨?noField, ?badEnable, ?rowOut, ?columnOut, ?overlap, fun k hk => ⟨?place, ?disable⟩⟩
  case noField =>
    intro hfield
    exact State.offered_overlay_refused h (Overlay.fieldSet_noField hfield ..)
  case badEnable =>
    intro hfield henable
    exact State.offered_overlay_refused h (Overlay.fieldSet_badEnable hfield henable ..)
  case rowOut =>
    intro hfield henable hrow
    obtain ⟨k, hk⟩ := isFin hfield
    refine State.offered_overlay_refused h ((Overlay.fieldSet_enable hk henable ..).trans ?_)
    exact if_pos hrow
  case columnOut =>
    intro hfield henable hrow hcolumn
    obtain ⟨k, hk⟩ := isFin hfield
    refine State.offered_overlay_refused h ((Overlay.fieldSet_enable hk henable ..).trans ?_)
    rw [if_neg (Nat.not_le.2 hrow), if_pos hcolumn]
  case overlap =>
    intro hfield henable hrow hcolumn hmeets
    obtain ⟨k, hk⟩ := isFin hfield
    refine State.offered_overlay_refused h ((Overlay.fieldSet_enable hk henable ..).trans ?_)
    rw [if_neg (Nat.not_le.2 hrow), if_neg (Nat.not_lt.2 hcolumn), if_pos ((Overlay.overlaps_iff ..).2 hmeets)]
  case place =>
    intro henable hrow hcolumn hclear
    have hfree : ¬s.part.overlay.overlaps field.toNat row.toNat column.toNat = true :=
      fun hover => not_exists.2 hclear ((Overlay.overlaps_iff ..).1 hover)
    refine State.offered_overlay_done (fun o => { o with fields := o.fields.set k ⟨row.toNat, column.toNat, true⟩ }) h
      ((Overlay.fieldSet_enable hk henable ..).trans ?_)
    rw [if_neg (Nat.not_le.2 hrow), if_neg (Nat.not_lt.2 hcolumn), if_neg hfree]
  case disable =>
    intro henable
    exact State.offered_overlay_done
      (fun o => { o with fields := o.fields.set k { o.fields[k] with enabled := false } }) h
      (Overlay.fieldSet_disable hk henable ..)

/-- Settles O48: the two judgements are equations of the overlay unit, the snapshot copies what they replaced, the resets begin
from the default palette, and the restart point has no part of the overlay. -/
theorem zebraAndPaletteAreReplaced : Obligations.ZebraAndPaletteAreReplaced := by
  refine ⟨?zebra, ?palette, fun _ _ => ⟨rfl, rfl, rfl⟩, ?resets, ?restart⟩
  case zebra =>
    intro slot enable level s h
    have judged := s.part.overlay.zebraSet_eq enable.toNat level.toNat
    split_ifs at judged ⊢
    · exact State.offered_overlay_refused h judged
    · exact State.offered_overlay_refused h judged
    · exact State.offered_overlay_done (fun o => { o with zebra := decide (enable.toNat = 1), level := level.toNat }) h judged
  case palette =>
    intro slot entry y cb cr s h
    refine ⟨fun hentry => State.offered_overlay_refused h (Overlay.paletteSet_noEntry hentry ..), fun k hk => ?_⟩
    have judged := s.part.overlay.paletteSet_entry hk y.toNat cb.toNat cr.toNat
    simp only [BitVec.ofNat_toNat] at judged
    split_ifs at judged ⊢
    · exact State.offered_overlay_refused h judged
    · exact State.offered_overlay_refused h judged
    · exact State.offered_overlay_refused h judged
    · exact State.offered_overlay_done
        (fun o => { o with palette := o.palette.set k ⟨y.setWidth 8, cb.setWidth 8, cr.setWidth 8⟩ }) h judged
  case resets =>
    intro pins s c hc
    obtain rfl | rfl : c = .powerOn pins ∨ c = .pinReset pins := by simpa using hc
    · exact ⟨_, rfl, rfl⟩
    · exact ⟨_, rfl, rfl⟩
  case restart =>
    intro slot s h
    exact ⟨_, State.offered_of_accepts h.1 (Part.takeRestart slot), Part.takeRestart_overlay h⟩

end Sys2Proof.Machine

end

section
/-! PROOFS. What every step keeps, the link port and the stabiliser: `Part.Keeps` says that one part obeys every law that another
obeys; the link port's bound (01 section 1.1) and the accumulators' limits (04 sections 4.2 to 4.8). -/

namespace Sys2Proof.Machine

/-! ### The laws of the blocks, together -/

/-- `q` obeys every law of section "What every step keeps" that `p` obeys. -/
structure Part.Keeps (p q : Part) : Prop where
  link : p.link.Bounded → q.link.Bounded
  stab : p.stab.Bounded → q.stab.Bounded
  slots : p.SlotsSound → q.SlotsSound
  clip : p.recd.card.ClipSound → q.recd.card.ClipSound
  crops : p.CropsSound → q.CropsSound

theorem Part.Keeps.refl (p : Part) : p.Keeps p := ⟨id, id, id, id, id⟩

theorem Part.Keeps.trans {p q r : Part} (h : p.Keeps q) (h' : q.Keeps r) : p.Keeps r :=
  ⟨h'.link ∘ h.link, h'.stab ∘ h.stab, h'.slots ∘ h.slots, h'.clip ∘ h.clip, h'.crops ∘ h.crops⟩

/-- A change that leaves alone what the laws speak of keeps them. -/
theorem Part.Keeps.of_eq {p q : Part} (hlink : q.link = p.link) (hstab : q.stab = p.stab) (hslots : q.slots = p.slots)
    (hmap : q.map = p.map) (hcard : q.recd.card = p.recd.card) : p.Keeps q := by
  refine ⟨?_, ?_, ?_, ?_, ?_⟩
  · rw [hlink]; exact id
  · rw [hstab]; exact id
  · unfold Part.SlotsSound; rw [hslots, hmap]; exact id
  · rw [hcard]; exact id
  · unfold Part.CropsSound; rw [hslots, hmap]; exact id

/-- A change of the link port that keeps its bound. -/
theorem Part.Keeps.of_link {p q : Part} (h : p.link.Bounded → q.link.Bounded) (hq : q = { p with link := q.link }) :
    p.Keeps q := by
  rw [hq]; exact ⟨h, id, id, id, id⟩

/-- A change of the stabiliser that keeps its bounds. -/
theorem Part.Keeps.of_stab {p q : Part} (h : p.stab.Bounded → q.stab.Bounded) (hq : q = { p with stab := q.stab }) :
    p.Keeps q := by
  rw [hq]; exact ⟨id, h, id, id, id⟩

/-- Work of the recording side that keeps a clip open exactly in its record states. -/
theorem Part.Keeps.onRecorder {p : Part} {f : Recorder → RecWork}
    (h : p.recd.card.ClipSound → ((f p.recd).pump p.map).st.card.ClipSound) : p.Keeps (p.onRecorder f) := by
  rw [Part.onRecorder_frame]
  exact ⟨id, id, id, h, id⟩

/-! ### The link port -/

theorem LinkPort.refill_bounded {l : LinkPort} (h : l.held.length ≤ 16) : l.refill.Bounded := by
  unfold LinkPort.refill LinkPort.Bounded
  simp only [List.length_append, List.length_take]
  refine ⟨by omega, fun hw => ?_⟩
  have hlen : 0 < (l.waiting.drop (16 - l.held.length)).length := List.length_pos_iff.2 hw
  rw [List.length_drop] at hlen
  omega

theorem LinkPort.arrive_bounded {l : LinkPort} (h : l.Bounded) (t : LinkTxn) : (l.arrive t).Bounded :=
  LinkPort.refill_bounded h.1

theorem LinkPort.respond_bounded {l : LinkPort} (h : l.held.length ≤ 17) (t : LinkTxn) : (l.respond t).Bounded :=
  LinkPort.refill_bounded (by rw [List.length_drop]; omega)

/-- The end of a beat keeps the port's bound: it answers the oldest transaction or leaves it at the front. -/
theorem LinkPort.endBeat_bounded {l : LinkPort} (h : l.Bounded) (d : Option (List Byte)) (e : Bool) :
    (l.endBeat d e).Bounded := by
  unfold LinkPort.endBeat
  split
  · exact h
  · rename_i t ts hheld
    dsimp only
    obtain ⟨hlen, hwait⟩ := h
    rw [hheld, List.length_cons] at hlen hwait
    split
    · exact LinkPort.respond_bounded (by rw [List.length_cons]; omega) _
    · exact ⟨by simpa using hlen, by simpa using hwait⟩

/-! ### The stabiliser -/

theorem clampInt_natAbs (lim : Nat) (v : Int) : (clampInt (-lim) lim v).natAbs ≤ lim := by
  unfold clampInt; omega

/-- A leak moves an accumulator toward zero. -/
theorem leaked_natAbs (shift : Nat) (acc : Int) : (leaked shift acc).natAbs ≤ acc.natAbs := by
  have hsize := Int.natAbs_tdiv_le_natAbs acc (2 ^ shift)
  unfold leaked truncDiv
  have hpow : (0 : Int) ≤ 2 ^ shift := by positivity
  rcases le_total 0 acc with h | h
  · have := Int.tdiv_nonneg h hpow
    omega
  · have := Int.tdiv_nonneg (neg_nonneg.2 h) hpow
    rw [Int.neg_tdiv] at this
    omega

section

variable {m : StabMode} {a : StabAxis}

theorem StabAxis.Bounded.zero (h : a.acc = 0) (m : StabMode) : a.Bounded m := by
  simp [StabAxis.Bounded, h]

/-- An axis that is bounded in a mode without a crop is bounded in any mode. -/
theorem StabAxis.Bounded.of_cropless (h : a.Bounded m) (hm : m = .off ∨ m = .calibrating) (m' : StabMode) :
    a.Bounded m' := .zero (h.2 hm) _

/-- Only the accumulator and the limit count for an axis's bound. -/
theorem StabAxis.Bounded.congr {b : StabAxis} (h : a.Bounded m) (hacc : b.acc = a.acc) (hlim : b.lim = a.lim) :
    b.Bounded m := by
  unfold StabAxis.Bounded; rw [hacc, hlim]; exact h

theorem StabAxis.Bounded.drain (h : a.Bounded m) (lPan : Nat) : (a.drain lPan).Bounded m := by
  refine ⟨(leaked_natAbs lPan a.acc).trans h.1, fun hm => ?_⟩
  simp [StabAxis.drain, h.2 hm, leaked, truncDiv]

theorem StabAxis.integrate_bounded (a : StabAxis) (rate : GyroRate) (lTrack lPan : Nat) (raw : Int) :
    (a.integrate rate lTrack lPan raw).Bounded .active :=
  ⟨clampInt_natAbs .., fun hm => by simp at hm⟩

theorem StabAxis.relimit_bounded (h : a.Bounded m) (lim : Nat) : (a.relimit lim m.crops).Bounded m := by
  cases m with
  | off => exact StabAxis.Bounded.zero (a := { a with lim := lim }) (h.2 (.inl rfl)) _
  | calibrating => exact StabAxis.Bounded.zero (a := { a with lim := lim }) (h.2 (.inr rfl)) _
  | active => exact ⟨clampInt_natAbs .., fun hm => by simp at hm⟩
  | hold => exact ⟨clampInt_natAbs .., fun hm => by simp at hm⟩

/-- The pan state's step changes neither the accumulator nor the limit. -/
theorem StabAxis.panStep_frame (margin hold : Nat) (crop : Int) (a : StabAxis) :
    (a.panStep margin hold crop).1.acc = a.acc ∧ (a.panStep margin hold crop).1.lim = a.lim := by
  unfold StabAxis.panStep
  cases a.panState <;> dsimp only <;> split_ifs <;> exact ⟨rfl, rfl⟩

end

section

variable {s : Stabiliser}

theorem Stabiliser.clear_bounded (mode : StabMode) (s : Stabiliser) : (s.clear mode).Bounded := ⟨.zero rfl _, .zero rfl _⟩

theorem Stabiliser.drain_bounded (h : s.Bounded) : (s.both (StabAxis.drain s.lPan)).Bounded := ⟨h.1.drain _, h.2.drain _⟩

theorem Stabiliser.Bounded.of_cropless (h : s.Bounded) (hm : s.mode = .off ∨ s.mode = .calibrating) (m : StabMode) :
    s.yaw.Bounded m ∧ s.pitch.Bounded m :=
  ⟨StabAxis.Bounded.of_cropless h.1 hm m, StabAxis.Bounded.of_cropless h.2 hm m⟩

/-- The mode, the accumulators and the limits alone count for the stabiliser's bounds. -/
theorem Stabiliser.Bounded.congr {t : Stabiliser} (h : s.Bounded) (hmode : t.mode = s.mode)
    (hyaw : t.yaw.acc = s.yaw.acc ∧ t.yaw.lim = s.yaw.lim) (hpitch : t.pitch.acc = s.pitch.acc ∧ t.pitch.lim = s.pitch.lim) :
    t.Bounded := by
  unfold Stabiliser.Bounded
  rw [hmode]
  exact ⟨StabAxis.Bounded.congr h.1 hyaw.1 hyaw.2, StabAxis.Bounded.congr h.2 hpitch.1 hpitch.2⟩

theorem Stabiliser.endCalibration_bounded (h : s.Bounded) (hm : s.mode = .calibrating) (c : Calibration) :
    (s.endCalibration c).Bounded := h.of_cropless (.inr hm) _

theorem Job.calibrate_bounded {j : StabWork} (h : j.st.Bounded) (hm : j.st.mode = .calibrating) (yaw pitch : Int)
    (c : Calibration) : (j.calibrate yaw pitch c).st.Bounded := by
  unfold Job.calibrate
  dsimp only
  split_ifs
  · exact Stabiliser.endCalibration_bounded h hm c
  · exact h
  · exact h.of_cropless (.inr hm) _

theorem Job.validSample_bounded {j : StabWork} (h : j.st.Bounded) (yaw pitch : Int) :
    (j.validSample yaw pitch).st.Bounded := by
  unfold Job.validSample
  dsimp only
  cases hm : j.st.mode with
  | off => exact h
  | active =>
    have : (j.st.yaw.integrate j.st.rate j.st.lTrack j.st.lPan yaw).Bounded j.st.mode ∧
        (j.st.pitch.integrate j.st.rate j.st.lTrack j.st.lPan pitch).Bounded j.st.mode := by
      rw [hm]; exact ⟨StabAxis.integrate_bounded .., StabAxis.integrate_bounded ..⟩
    exact this
  | hold =>
    have drained := Stabiliser.drain_bounded h
    dsimp only
    split_ifs
    · exact drained
    · exact ⟨⟨drained.1.1, fun hm => by simp at hm⟩, ⟨drained.2.1, fun hm => by simp at hm⟩⟩
  | calibrating =>
    dsimp only
    cases j.st.cal with
    | none => exact h
    | some c => exact Job.calibrate_bounded h hm yaw pitch c

theorem Job.missingSample_bounded {j : StabWork} (h : j.st.Bounded) : j.missingSample.st.Bounded := by
  unfold Job.missingSample
  dsimp only
  cases hm : j.st.mode with
  | off => exact h
  | calibrating => exact h
  | active =>
    dsimp only
    split_ifs
    · exact h
    · exact ⟨⟨(h.1.drain _).1, fun hm => by simp at hm⟩, ⟨(h.2.drain _).1, fun hm => by simp at hm⟩⟩
  | hold => exact Stabiliser.drain_bounded h

theorem Job.sample_bounded {j : StabWork} (h : j.st.Bounded) (a : GyroAnswer) : (j.sample a).st.Bounded := by
  cases a with
  | valid yaw pitch => exact Job.validSample_bounded h _ _
  | missing => exact Job.missingSample_bounded h
  | overtaken => exact h

theorem Stabiliser.applyCopy_bounded (h : s.Bounded) : s.applyCopy.Bounded := by
  unfold Stabiliser.applyCopy
  cases s.copy with
  | none => exact h
  | some c =>
    dsimp only
    cases hm : s.mode <;> cases c.enable
    case off.true => exact h.of_cropless (.inl hm) _
    case active.false | hold.false => exact Stabiliser.clear_bounded ..
    all_goals exact h.congr hm.symm ⟨rfl, rfl⟩ ⟨rfl, rfl⟩

theorem Stabiliser.frame_bounded (h : s.Bounded) (mx my : Nat) (table : Option LensTable) (zoom : Option Nat) :
    (s.frame mx my table zoom).stab.Bounded := by
  have hcopy := Stabiliser.applyCopy_bounded h
  unfold Stabiliser.frame
  dsimp only
  split_ifs
  · exact ⟨(StabAxis.relimit_bounded hcopy.1 _).congr (StabAxis.panStep_frame ..).1 (StabAxis.panStep_frame ..).2,
      (StabAxis.relimit_bounded hcopy.2 _).congr (StabAxis.panStep_frame ..).1 (StabAxis.panStep_frame ..).2⟩
  · exact ⟨(StabAxis.relimit_bounded hcopy.1 _).congr rfl rfl, (StabAxis.relimit_bounded hcopy.2 _).congr rfl rfl⟩

theorem Stabiliser.setRate_bounded (h : s.Bounded) (r : GyroRate) : (s.setRate r).Bounded := by
  unfold Stabiliser.setRate
  split_ifs
  · exact h
  · exact ⟨.zero rfl _, .zero rfl _⟩

theorem Stabiliser.set_bounded (h : s.Bounded) (table : Option LensTable) (enable rate lTrack lPan hold yaw pitch : Nat) :
    (s.set table enable rate lTrack lPan hold yaw pitch).1.Bounded := by
  unfold Stabiliser.set
  split
  · exact Stabiliser.setRate_bounded h _
  · exact h
  · exact h

theorem Stabiliser.calibrate_bounded (h : s.Bounded) (slot : CmdSlot) : (s.calibrate slot).1.Bounded := by
  unfold Stabiliser.calibrate
  cases s.mode
  · exact Stabiliser.clear_bounded ..
  · exact Stabiliser.clear_bounded ..
  · exact h
  · exact h

theorem Stabiliser.restart_bounded (s : Stabiliser) : s.restart.Bounded := by
  unfold Stabiliser.restart
  dsimp only
  cases s.cal
  · exact Stabiliser.clear_bounded ..
  · exact ⟨.zero rfl _, .zero rfl _⟩

end

end Sys2Proof.Machine

end

section
/-! PROOFS. The slot table (03 section 3.1): what each operation of the slot manager does to the laws of the table. -/

namespace Sys2Proof.Machine

/-! ### The slot table: one rule per operation -/

theorem nodup_append_singleton {l : List Nat} {k : Nat} (h : l.Nodup) (hk : k ∉ l) : (l ++ [k]).Nodup :=
  List.concat_eq_append ▸ h.concat hk

/-- An entry of the table after another has been replaced. -/
theorem SlotManager.getElem?_set {t : List FrameSlot} {k : Nat} (hk : k < t.length) (e : FrameSlot) (i : Nat) :
    (t.set k e)[i]? = if k = i then some e else t[i]? := by
  rw [List.getElem?_set]; simp [hk]

theorem SlotManager.lt_of_getElem? {t : List FrameSlot} {k : Nat} {e : FrameSlot} (h : t[k]? = some e) : k < t.length :=
  (List.getElem?_eq_some_iff.1 h).1

/-- A FILLING entry of a table in which another kind of entry has been put was there before. -/
theorem SlotManager.filling_of_set {t : List FrameSlot} {k i n : Nat} {e : FrameSlot} (he : e ≠ .filling n)
    (hi : (t.set k e)[i]? = some (.filling n)) : t[i]? = some (.filling n) := by
  rw [List.getElem?_set] at hi
  split at hi
  · split at hi
    · exact absurd (Option.some.inj hi) he
    · simp at hi
  · exact hi

theorem SlotManager.isComplete_iff {m : SlotManager} {k : Nat} :
    m.IsComplete k ↔ ∃ f, m.table[k]? = some (FrameSlot.complete f) := Iff.rfl

theorem SlotManager.attached_eq_false_iff {m : SlotManager} {k : Nat} :
    m.attached k = false ↔ m.enc.slot ≠ some k ∧ m.vf.slot ≠ some k := by
  simp [SlotManager.attached]

theorem fillingFrom_eq_some {t : List FrameSlot} {b k n : Nat} (h : fillingFrom b t = some (k, n)) :
    b ≤ k ∧ t[k - b]? = some (FrameSlot.filling n) := by
  induction t generalizing b with
  | nil => simp [fillingFrom] at h
  | cons e t ih =>
    cases e with
    | filling last =>
      simp only [fillingFrom, Option.some.injEq, Prod.mk.injEq] at h
      obtain ⟨rfl, rfl⟩ := h
      simp
    | free | complete f =>
      obtain ⟨hb, hk⟩ := ih h
      refine ⟨by omega, ?_⟩
      rw [show k - b = (k - (b + 1)) + 1 by omega, List.getElem?_cons_succ]
      exact hk

theorem fillingFrom_eq_none {t : List FrameSlot} {b : Nat} (h : fillingFrom b t = none) (k n : Nat) :
    t[k]? ≠ some (FrameSlot.filling n) := by
  induction t generalizing b k with
  | nil => simp
  | cons e t ih =>
    cases e with
    | filling last => simp [fillingFrom] at h
    | free | complete f =>
      cases k with
      | zero => simp
      | succ k => exact ih h k

/-- The slot that the table shows as FILLING. -/
theorem SlotManager.filling_eq_some {m : SlotManager} {k n : Nat} (h : m.filling = some (k, n)) :
    m.table[k]? = some (FrameSlot.filling n) := (fillingFrom_eq_some h).2

theorem SlotManager.filling_eq_none {m : SlotManager} (h : m.filling = none) : m.Unfilled := fillingFrom_eq_none h

namespace SlotManager.Laws

variable {m : SlotManager} {k : Nat}

/-- The laws speak of the table, its two orders and the readers' slots alone. -/
theorem congr {m' : SlotManager} (h : m.Laws) (htable : m'.table = m.table) (hfree : m'.freeOrder = m.freeOrder)
    (hcompletion : m'.completion = m.completion) (henc : m'.enc.slot = m.enc.slot) (hvf : m'.vf.slot = m.vf.slot) :
    m'.Laws := by
  obtain ⟨oneFilling, freeOnce, free, completeOnce, complete, enc, vf⟩ := h
  unfold SlotManager.IsComplete at *
  constructor <;> simp only [htable, hfree, hcompletion, henc, hvf, SlotManager.IsComplete] <;> assumption

/-- A slot that no reader is on and that is not FREE becomes FREE. -/
theorem toFree (h : m.Laws) (hk : k < m.table.length) (hnot : m.table[k]? ≠ some .free) (hoff : m.attached k = false) :
    (m.toFree k).Laws := by
  obtain ⟨henc, hvf⟩ := SlotManager.attached_eq_false_iff.1 hoff
  have entry (i : Nat) := SlotManager.getElem?_set hk .free i
  have complete_iff (i : Nat) : (m.toFree k).IsComplete i ↔ i ≠ k ∧ m.IsComplete i := by
    simp only [SlotManager.isComplete_iff, SlotManager.toFree, entry]
    by_cases hi : k = i
    · simp [hi]
    · simp [hi, Ne.symm hi]
  constructor
  case oneFilling =>
    exact fun i j a b hi hj => h.oneFilling i j a b (SlotManager.filling_of_set (by simp) hi)
      (SlotManager.filling_of_set (by simp) hj)
  case freeOnce =>
    have : k ∉ m.freeOrder := fun hmem => hnot ((h.free k).1 hmem)
    exact nodup_append_singleton h.freeOnce this
  case free =>
    intro i
    simp only [SlotManager.toFree, entry, List.mem_append, List.mem_singleton, h.free]
    by_cases hi : k = i
    · simp [hi]
    · simp [hi, Ne.symm hi]
  case completeOnce => exact h.completeOnce.filter _
  case complete =>
    intro i
    rw [complete_iff]
    simp [SlotManager.toFree, h.complete, and_comm]
  case enc => exact fun i hi => (complete_iff i).2 ⟨fun hik => henc (hik ▸ hi), h.enc i hi⟩
  case vf => exact fun i hi => (complete_iff i).2 ⟨fun hik => hvf (hik ▸ hi), h.vf i hi⟩

/-- With no slot FILLING, a slot that no reader is on becomes FILLING. -/
theorem toFilling (h : m.Laws) (hk : k < m.table.length) (hnone : m.Unfilled) (hoff : m.attached k = false) :
    (m.toFilling k).Laws := by
  obtain ⟨henc, hvf⟩ := SlotManager.attached_eq_false_iff.1 hoff
  have entry (i : Nat) := SlotManager.getElem?_set hk (.filling 0) i
  have complete_iff (i : Nat) : (m.toFilling k).IsComplete i ↔ i ≠ k ∧ m.IsComplete i := by
    simp only [SlotManager.isComplete_iff, SlotManager.toFilling, entry]
    by_cases hi : k = i
    · simp [hi]
    · simp [hi, Ne.symm hi]
  constructor
  case oneFilling =>
    intro i j a b hi hj
    simp only [SlotManager.toFilling, entry] at hi hj
    split_ifs at hi hj with hki hkj hkj
    · exact hki.symm.trans hkj
    · exact absurd hj (hnone j b)
    · exact absurd hi (hnone i a)
    · exact absurd hi (hnone i a)
  case freeOnce => exact h.freeOnce.filter _
  case free =>
    intro i
    simp only [SlotManager.toFilling, entry, List.mem_filter, h.free]
    by_cases hi : k = i
    · simp [hi]
    · simp [hi, Ne.symm hi]
  case completeOnce => exact h.completeOnce.filter _
  case complete =>
    intro i
    rw [complete_iff]
    simp [SlotManager.toFilling, h.complete, and_comm]
  case enc => exact fun i hi => (complete_iff i).2 ⟨fun hik => henc (hik ▸ hi), h.enc i hi⟩
  case vf => exact fun i hi => (complete_iff i).2 ⟨fun hik => hvf (hik ▸ hi), h.vf i hi⟩

/-- An entry is replaced by one of its own kind. -/
theorem setSlot {e e' : FrameSlot} (h : m.Laws) (hk : m.table[k]? = some e) (hfree : e' ≠ .free ∧ e ≠ .free)
    (hkind : (∃ a b, e = .filling a ∧ e' = .filling b) ∨ ∃ f g, e = .complete f ∧ e' = .complete g) :
    (m.setSlot k e').Laws := by
  have entry (i : Nat) := SlotManager.getElem?_set (SlotManager.lt_of_getElem? hk) e' i
  have filling_of (i a : Nat) (hi : (m.table.set k e')[i]? = some (.filling a)) :
      ∃ b, m.table[i]? = some (FrameSlot.filling b) := by
    rw [entry] at hi
    split_ifs at hi with hki
    · subst hki
      obtain ⟨b, c, rfl, -⟩ | ⟨f, g, -, rfl⟩ := hkind
      · exact ⟨b, hk⟩
      · simp at hi
    · exact ⟨a, hi⟩
  have complete_iff (i : Nat) : (m.setSlot k e').IsComplete i ↔ m.IsComplete i := by
    simp only [SlotManager.isComplete_iff, SlotManager.setSlot, entry]
    by_cases hi : k = i
    · subst hi
      obtain ⟨b, c, rfl, rfl⟩ | ⟨f, g, rfl, rfl⟩ := hkind <;> simp [hk]
    · simp [hi]
  constructor
  case oneFilling =>
    intro i j a b hi hj
    obtain ⟨a', hi'⟩ := filling_of i a hi
    obtain ⟨b', hj'⟩ := filling_of j b hj
    exact h.oneFilling i j a' b' hi' hj'
  case freeOnce => exact h.freeOnce
  case free =>
    intro i
    simp only [SlotManager.setSlot, entry, h.free]
    by_cases hi : k = i
    · subst hi; simp [hk, hfree]
    · simp [hi]
  case completeOnce => exact h.completeOnce
  case complete => exact fun i => (h.complete i).trans (complete_iff i).symm
  case enc => exact fun i hi => (complete_iff i).2 (h.enc i hi)
  case vf => exact fun i hi => (complete_iff i).2 (h.vf i hi)

/-- The FILLING slot becomes READY. -/
theorem complete_slot {n : Nat} (h : m.Laws) (hk : m.table[k]? = some (.filling n)) (zoom : Option Nat) (dx dy : Int) :
    (m.complete k zoom dx dy).Laws := by
  have entry (f : CompleteFrame) (i : Nat) := SlotManager.getElem?_set (SlotManager.lt_of_getElem? hk) (.complete f) i
  have complete_iff (i : Nat) : (m.complete k zoom dx dy).IsComplete i ↔ i = k ∨ m.IsComplete i := by
    simp only [SlotManager.isComplete_iff, SlotManager.complete, entry]
    by_cases hi : k = i
    · simp [hi]
    · simp [hi, Ne.symm hi]
  have hnew : k ∉ m.completion := fun hmem => by
    obtain ⟨f, hf⟩ := (h.complete k).1 hmem
    rw [hk] at hf; simp at hf
  constructor
  case oneFilling =>
    exact fun i j a b hi hj => h.oneFilling i j a b (SlotManager.filling_of_set (by simp) hi)
      (SlotManager.filling_of_set (by simp) hj)
  case freeOnce => exact h.freeOnce
  case free =>
    intro i
    simp only [SlotManager.complete, entry, h.free]
    by_cases hi : k = i
    · subst hi; simp [hk]
    · simp [hi]
  case completeOnce =>
    exact nodup_append_singleton h.completeOnce hnew
  case complete =>
    intro i
    rw [complete_iff]
    simp [SlotManager.complete, h.complete, or_comm]
  case enc => exact fun i hi => (complete_iff i).2 (.inr (h.enc i hi))
  case vf => exact fun i hi => (complete_iff i).2 (.inr (h.vf i hi))

/-- Every slot is FREE, and no reader is attached. -/
theorem allFree (n : Nat) (henc : m.enc.slot = none) (hvf : m.vf.slot = none) : (m.freeAll n).Laws := by
  have entry (i : Nat) (e : FrameSlot) : (m.freeAll n).table[i]? = some e ↔ i < n ∧ e = .free := by
    simp [SlotManager.freeAll, List.getElem?_replicate, eq_comm]
  constructor
  case oneFilling => intro i j a b hi; simp [entry] at hi
  case freeOnce => exact List.nodup_range
  case free => intro i; simp [entry]; simp [SlotManager.freeAll]
  case completeOnce => exact List.nodup_nil
  case complete => intro i; simp [SlotManager.isComplete_iff, entry]; simp [SlotManager.freeAll]
  case enc => intro i hi; simp [SlotManager.freeAll, henc] at hi
  case vf => intro i hi; simp [SlotManager.freeAll, hvf] at hi

end SlotManager.Laws

end Sys2Proof.Machine

end

section
/-! PROOFS. The slot manager at work (03): releases, frame starts, frame completes and the readers keep the table's laws and the
crops, and a frame start finds a slot. -/

namespace Sys2Proof.Machine

/-! ### The crops in a slot table -/

/-- A frame's crop lies within the margins, its dx even (R64, R65). -/
def CompleteFrame.Within (mx my : Nat) (f : CompleteFrame) : Prop := f.dx % 2 = 0 ∧ f.dx.natAbs ≤ mx ∧ f.dy.natAbs ≤ my

/-- MX is even, and every complete frame of a table has its crop within the margins. -/
def CropsWithin (mx my : Nat) (t : List FrameSlot) : Prop := mx % 2 = 0 ∧ ∀ f, FrameSlot.complete f ∈ t → f.Within mx my

theorem Part.cropsSound_iff {p : Part} : p.CropsSound ↔ CropsWithin p.map.mx p.map.my p.slots.table := by
  constructor
  · rintro ⟨hmx, hall⟩
    refine ⟨hmx, fun f hf => ?_⟩
    obtain ⟨k, hk⟩ := List.mem_iff_getElem?.1 hf
    exact hall k f hk
  · rintro ⟨hmx, hall⟩
    exact ⟨hmx, fun k f hk => hall f (List.mem_of_getElem? hk)⟩

theorem CropsWithin.set {mx my : Nat} {t : List FrameSlot} (h : CropsWithin mx my t) (k : Nat) {e : FrameSlot}
    (he : ∀ f, e = .complete f → f.Within mx my) : CropsWithin mx my (t.set k e) := by
  refine ⟨h.1, fun f hf => ?_⟩
  obtain hf | hf := List.mem_or_eq_of_mem_set hf
  · exact h.2 f hf
  · exact he f hf.symm

theorem CropsWithin.replicate_free {mx : Nat} (h : mx % 2 = 0) (my n : Nat) : CropsWithin mx my (List.replicate n .free) :=
  ⟨h, fun _ hf => nomatch List.eq_of_mem_replicate hf⟩

theorem evenToward_even (p : Int) : evenToward p % 2 = 0 := by unfold evenToward; split_ifs <;> omega

theorem cropX_within {mx : Nat} (h : mx % 2 = 0) (k16 : Nat) (acc : Int) :
    cropX mx k16 acc % 2 = 0 ∧ (cropX mx k16 acc).natAbs ≤ mx := by
  have heven := evenToward_even (cropPixels k16 acc)
  unfold cropX clampInt
  omega

theorem Stabiliser.frame_within {mx : Nat} (h : mx % 2 = 0) (my : Nat) (table : Option LensTable) (zoom : Option Nat)
    (s : Stabiliser) :
    (s.frame mx my table zoom).dx % 2 = 0 ∧ (s.frame mx my table zoom).dx.natAbs ≤ mx ∧
      (s.frame mx my table zoom).dy.natAbs ≤ my := by
  unfold Stabiliser.frame
  dsimp only
  split_ifs
  · exact ⟨(cropX_within h _ _).1, (cropX_within h _ _).2, clampInt_natAbs my _⟩
  · simp

/-! ### What the slot manager's work keeps -/

/-- The work of the slot manager on a table of its size, which keeps the laws and the crops. -/
structure SlotManager.Keeps (mx my : Nat) (m m' : SlotManager) : Prop where
  size : m'.table.length = m.table.length
  laws : m.Laws → m'.Laws
  crops : CropsWithin mx my m.table → CropsWithin mx my m'.table

theorem SlotManager.Keeps.refl (mx my : Nat) (m : SlotManager) : SlotManager.Keeps mx my m m := ⟨rfl, id, id⟩

theorem SlotManager.Keeps.trans {mx my : Nat} {m m' m'' : SlotManager} (h : SlotManager.Keeps mx my m m')
    (h' : SlotManager.Keeps mx my m' m'') : SlotManager.Keeps mx my m m'' :=
  ⟨h'.size.trans h.size, h'.laws ∘ h.laws, h'.crops ∘ h.crops⟩

/-- A change of the counts and of the readers' last lines. -/
theorem SlotManager.Keeps.counted {mx my : Nat} {m m' : SlotManager} (htable : m'.table = m.table)
    (hfree : m'.freeOrder = m.freeOrder) (hcompletion : m'.completion = m.completion) (henc : m'.enc.slot = m.enc.slot)
    (hvf : m'.vf.slot = m.vf.slot) : SlotManager.Keeps mx my m m' :=
  ⟨by rw [htable], fun h => h.congr htable hfree hcompletion henc hvf, by rw [htable]; exact id⟩

/-- A part whose slot manager alone has worked keeps its laws. -/
theorem Part.Keeps.of_slots {p q : Part} (h : SlotManager.Keeps p.map.mx p.map.my p.slots q.slots)
    (hq : q = { p with slots := q.slots }) : p.Keeps q := by
  rw [hq]
  refine ⟨id, id, fun hp => ?_, id, fun hp => ?_⟩
  · obtain ⟨hsize, hcount, hlaws⟩ := hp
    exact ⟨h.size.trans hsize, hcount, h.laws hlaws⟩
  · exact Part.cropsSound_iff.2 (h.crops (Part.cropsSound_iff.1 hp))

/-! ### Releases -/

/-- The release of a frame counts it and tells the card engine of a skip (R43); the table stands. -/
theorem Job.releaseFrame_frame (j : SlotWork) (recording : Bool) (k : Nat) :
    ∃ u s o, j.releaseFrame recording k = ⟨{ j.st with unshown := u, skips := s }, j.out ++ o⟩ := by
  unfold Job.releaseFrame
  cases j.st.frameIn k with
  | none => exact ⟨_, _, [], by rw [List.append_nil]⟩
  | some f =>
    dsimp only
    split_ifs
    · exact ⟨j.st.unshown, saturate32 j.st.skips, [.raise .encSkip, .skip], by simp [Job.emit, Job.change]⟩
    · exact ⟨_, _, [], by rw [List.append_nil]⟩
    · exact ⟨saturate32 j.st.unshown, saturate32 j.st.skips, [.raise .encSkip, .skip], by simp [Job.emit, Job.change]⟩
    · exact ⟨saturate32 j.st.unshown, j.st.skips, [], by simp [Job.change]⟩

/-- A run of releases: each slot in turn is released and becomes FREE (R42 step 5). -/
def Job.releaseAll (j : SlotWork) (recording : Bool) (ks : List Nat) : SlotWork :=
  ks.foldl (fun j i => (j.releaseFrame recording i).change (SlotManager.toFree i)) j

theorem Job.releaseOthers_eq (j : SlotWork) (recording : Bool) (k : Nat) :
    j.releaseOthers recording k =
      j.releaseAll recording (j.st.completion.filter fun i => decide (i ≠ k) && !j.st.attached i) := rfl

@[simp] theorem Job.releaseAll_nil (j : SlotWork) (recording : Bool) : j.releaseAll recording [] = j := rfl

theorem Job.releaseAll_cons (j : SlotWork) (recording : Bool) (k : Nat) (ks : List Nat) :
    j.releaseAll recording (k :: ks) =
      Job.releaseAll ((j.releaseFrame recording k).change (SlotManager.toFree k)) recording ks := rfl

/-- Releases of different complete slots that no reader is on keep the laws. -/
theorem Job.releaseAll_laws {j : SlotWork} {ks : List Nat} (recording : Bool) (h : j.st.Laws) (hks : ks.Nodup)
    (hready : ∀ k ∈ ks, j.st.IsComplete k ∧ j.st.attached k = false) : (j.releaseAll recording ks).st.Laws := by
  induction ks generalizing j with
  | nil => exact h
  | cons k ks ih =>
    obtain ⟨hk, hks⟩ := List.nodup_cons.1 hks
    obtain ⟨u, s, o, hrel⟩ := Job.releaseFrame_frame j recording k
    obtain ⟨⟨f, hf⟩, hoff⟩ := hready k (List.mem_cons_self ..)
    have hlt := SlotManager.lt_of_getElem? hf
    rw [Job.releaseAll_cons, hrel]
    refine ih ?_ hks fun i hi => ?_
    · have hcount : SlotManager.Laws { j.st with unshown := u, skips := s } := h.congr rfl rfl rfl rfl rfl
      exact hcount.toFree hlt (by simp [hf]) hoff
    · obtain ⟨⟨g, hg⟩, hoffi⟩ := hready i (List.mem_cons_of_mem _ hi)
      have hne : k ≠ i := fun hki => hk (hki ▸ hi)
      exact ⟨⟨g, by simpa [Job.change, SlotManager.toFree, SlotManager.getElem?_set hlt, hne] using hg⟩, hoffi⟩

theorem Job.releaseAll_size_crops (mx my : Nat) (j : SlotWork) (recording : Bool) (ks : List Nat) :
    (j.releaseAll recording ks).st.table.length = j.st.table.length ∧
      (CropsWithin mx my j.st.table → CropsWithin mx my (j.releaseAll recording ks).st.table) := by
  induction ks generalizing j with
  | nil => exact ⟨rfl, id⟩
  | cons k ks ih =>
    obtain ⟨u, s, o, hrel⟩ := Job.releaseFrame_frame j recording k
    rw [Job.releaseAll_cons, hrel]
    obtain ⟨hsize, hcrops⟩ := ih (Job.change ⟨{ j.st with unshown := u, skips := s }, j.out ++ o⟩ (SlotManager.toFree k))
    refine ⟨hsize.trans (List.length_set ..), fun h => hcrops (CropsWithin.set h k fun f hf => nomatch hf)⟩

/-- A frame complete at the slot manager keeps the laws and, with a crop within the margins, the crops (R42). -/
theorem SlotManager.complete_keeps {mx my : Nat} {m : SlotManager} {k n : Nat} {dx dy : Int}
    (hk : m.table[k]? = some (.filling n)) (zoom : Option Nat) (recording : Bool)
    (hcrop : mx % 2 = 0 → dx % 2 = 0 ∧ dx.natAbs ≤ mx ∧ dy.natAbs ≤ my) :
    SlotManager.Keeps mx my m ((Job.start (m.complete k zoom dx dy) : SlotWork).releaseOthers recording k).st := by
  rw [Job.releaseOthers_eq]
  obtain ⟨hsize, hcrops⟩ := Job.releaseAll_size_crops mx my (Job.start (m.complete k zoom dx dy)) recording
    ((m.complete k zoom dx dy).completion.filter fun i => decide (i ≠ k) && !(m.complete k zoom dx dy).attached i)
  refine ⟨hsize.trans (List.length_set ..), fun h => ?_, fun h => hcrops (CropsWithin.set h k fun f hf => ?_)⟩
  · have hlaws := h.complete_slot hk zoom dx dy
    refine Job.releaseAll_laws recording hlaws (hlaws.completeOnce.filter _) fun i hi => ?_
    obtain ⟨hmem, hi⟩ := List.mem_filter.1 hi
    simp only [Job.start_st, Bool.and_eq_true, Bool.not_eq_eq_eq_not, Bool.not_true] at hi
    exact ⟨(hlaws.complete i).1 hmem, hi.2⟩
  · obtain rfl := FrameSlot.complete.inj hf
    exact hcrop h.1

/-! ### Capture -/

/-- The first step of a frame start: a slot still FILLING is torn (R40 step 1). -/
def Job.tear (j : SlotWork) : SlotWork :=
  match j.st.filling with
  | some (k, _) => (j.change fun m => { m.toFree k with torn := saturate32 m.torn }).emit (.raise .frameTorn)
  | none => j

theorem Job.frameStart_eq (j : SlotWork) (recording : Bool) :
    j.frameStart recording =
      match j.tear.st.freeOrder.head?, j.tear.st.oldestReady with
      | some k, _ => some ((j.tear.change (SlotManager.toFilling k)).emit .frameMark)
      | none, some k => some (((j.tear.releaseFrame recording k).change (SlotManager.toFilling k)).emit .frameMark)
      | none, none => none := rfl

/-- A slot that is not complete has no reader (R37). -/
theorem SlotManager.Laws.attached_eq_false {m : SlotManager} (h : m.Laws) {k : Nat} (hk : ¬m.IsComplete k) :
    m.attached k = false :=
  SlotManager.attached_eq_false_iff.2 ⟨fun he => hk (h.enc k he), fun hv => hk (h.vf k hv)⟩

theorem SlotManager.not_isComplete {m : SlotManager} {k : Nat} {e : FrameSlot} (hk : m.table[k]? = some e)
    (he : ∀ f, e ≠ .complete f) : ¬m.IsComplete k := by
  rintro ⟨f, hf⟩
  rw [hk, Option.some.injEq] at hf
  exact he f hf

theorem Job.tear_keeps (mx my : Nat) (j : SlotWork) : SlotManager.Keeps mx my j.st j.tear.st := by
  unfold Job.tear
  cases hfill : j.st.filling with
  | none => exact .refl ..
  | some kn =>
    obtain ⟨k, n⟩ := kn
    have hk := SlotManager.filling_eq_some hfill
    refine ⟨List.length_set .., fun h => ?_, fun h => CropsWithin.set h k fun f hf => nomatch hf⟩
    have hoff := h.attached_eq_false (SlotManager.not_isComplete hk (by simp))
    exact (h.toFree (SlotManager.lt_of_getElem? hk) (by simp [hk]) hoff).congr rfl rfl rfl rfl rfl

/-- After the tear no slot is FILLING. -/
theorem Job.tear_unfilled {j : SlotWork} (h : j.st.Laws) : j.tear.st.Unfilled := by
  unfold Job.tear
  cases hfill : j.st.filling with
  | none => exact SlotManager.filling_eq_none hfill
  | some kn =>
    obtain ⟨k, n⟩ := kn
    have hk := SlotManager.filling_eq_some hfill
    intro i last hi
    simp only [Job.emit_st, Job.change_st, SlotManager.toFree, SlotManager.getElem?_set (SlotManager.lt_of_getElem? hk)] at hi
    split_ifs at hi with hki
    · simp at hi
    · exact hki (h.oneFilling k i n last hk hi)

/-- The slot that a frame start claims: FREE, or READY. -/
theorem SlotManager.oldestReady_eq_some {m : SlotManager} {k : Nat} (h : m.oldestReady = some k) :
    k ∈ m.completion ∧ m.attached k = false := by
  refine ⟨List.mem_of_find?_eq_some h, ?_⟩
  simpa using List.find?_some h

theorem Job.releaseFrame_keeps (mx my : Nat) (j : SlotWork) (recording : Bool) (k : Nat) :
    SlotManager.Keeps mx my j.st (j.releaseFrame recording k).st := by
  obtain ⟨u, s, o, hrel⟩ := Job.releaseFrame_frame j recording k
  rw [hrel]
  exact .counted rfl rfl rfl rfl rfl

theorem SlotManager.Laws.of_freeOrder {m : SlotManager} (h : m.Laws) {k : Nat} (hk : k ∈ m.freeOrder) :
    k < m.table.length ∧ m.attached k = false := by
  have hfree := (h.free k).1 hk
  exact ⟨SlotManager.lt_of_getElem? hfree, h.attached_eq_false (SlotManager.not_isComplete hfree (by simp))⟩

theorem SlotManager.Laws.of_oldestReady {m : SlotManager} (h : m.Laws) {k : Nat} (hk : m.oldestReady = some k) :
    k < m.table.length ∧ m.attached k = false := by
  obtain ⟨hmem, hoff⟩ := SlotManager.oldestReady_eq_some hk
  obtain ⟨f, hf⟩ := (h.complete k).1 hmem
  exact ⟨SlotManager.lt_of_getElem? hf, hoff⟩

/-- A frame start keeps the laws. -/
theorem Job.frameStart_laws {j j' : SlotWork} {recording : Bool} (h : j.frameStart recording = some j') (hj : j.st.Laws) :
    j'.st.Laws := by
  have hlaws := (Job.tear_keeps 0 0 j).laws hj
  have hnone := Job.tear_unfilled hj
  rw [Job.frameStart_eq] at h
  split at h
  · obtain ⟨hlt, hoff⟩ := hlaws.of_freeOrder (List.mem_of_mem_head? ‹_›)
    obtain rfl := Option.some.inj h
    exact hlaws.toFilling hlt hnone hoff
  · next k _ hk =>
    obtain ⟨hlt, hoff⟩ := hlaws.of_oldestReady hk
    obtain ⟨u, s, o, hrel⟩ := Job.releaseFrame_frame j.tear recording k
    obtain rfl := Option.some.inj h
    rw [hrel]
    have hcount : SlotManager.Laws { j.tear.st with unshown := u, skips := s } := hlaws.congr rfl rfl rfl rfl rfl
    exact hcount.toFilling hlt hnone hoff
  · simp at h

theorem Job.frameStart_keeps (mx my : Nat) {j j' : SlotWork} {recording : Bool} (h : j.frameStart recording = some j') :
    SlotManager.Keeps mx my j.st j'.st := by
  have htear := Job.tear_keeps mx my j
  refine ⟨?_, Job.frameStart_laws h, ?_⟩ <;> rw [Job.frameStart_eq] at h <;> split at h
  · obtain rfl := Option.some.inj h
    exact (List.length_set ..).trans htear.size
  · obtain rfl := Option.some.inj h
    exact ((List.length_set ..).trans (Job.releaseFrame_keeps mx my ..).size).trans htear.size
  · simp at h
  · obtain rfl := Option.some.inj h
    exact fun hc => CropsWithin.set (htear.crops hc) _ fun _ hf => nomatch hf
  · obtain rfl := Option.some.inj h
    exact fun hc => CropsWithin.set ((Job.releaseFrame_keeps mx my ..).crops (htear.crops hc)) _ fun _ hf => nomatch hf
  · simp at h

theorem Job.fillBeat_keeps (mx my : Nat) (j : SlotWork) (highest : Option Nat) :
    SlotManager.Keeps mx my j.st (j.fillBeat highest).1.st := by
  unfold Job.fillBeat
  cases hfill : j.st.filling with
  | none => exact .refl ..
  | some kn =>
    have hk := SlotManager.filling_eq_some hfill
    exact ⟨List.length_set .., fun h => h.setSlot hk (by simp) (.inl ⟨_, _, rfl, rfl⟩),
      fun h => CropsWithin.set h _ fun _ hf => nomatch hf⟩

theorem Job.captureBeat_keeps (mx my : Nat) {j : SlotWork} {m : RegionMap} {recording : Bool} {o : Nat} {enables : List Bool}
    {r : SlotWork × CaptureAnswer} (h : j.captureBeat m recording o enables = some r) :
    SlotManager.Keeps mx my j.st r.1.st := by
  unfold Job.captureBeat at h
  dsimp only at h
  split_ifs at h
  · obtain rfl := Option.some.inj h
    exact .refl ..
  · obtain ⟨j', hstart, rfl⟩ := Option.map_eq_some_iff.1 h
    exact (Job.frameStart_keeps mx my hstart).trans (Job.fillBeat_keeps ..)
  · obtain rfl := Option.some.inj h
    exact Job.fillBeat_keeps ..

/-! ### A frame start finds a slot -/

/-- A slot that is neither FREE nor FILLING is complete. -/
theorem SlotManager.complete_of_not {m : SlotManager} {k : Nat} (hk : k < m.table.length)
    (hfree : m.table[k]? ≠ some .free) (hfill : m.Unfilled) : m.IsComplete k := by
  cases he : m.table[k] with
  | free => exact absurd (List.getElem?_eq_some_iff.2 ⟨hk, he⟩) hfree
  | filling n => exact absurd (List.getElem?_eq_some_iff.2 ⟨hk, he⟩) (hfill k n)
  | complete f => exact ⟨f, List.getElem?_eq_some_iff.2 ⟨hk, he⟩⟩

/-- Of three slots, one has no reader: there are two readers (R37). -/
theorem SlotManager.exists_unattached (m : SlotManager) : ∃ k < 3, m.attached k = false := by
  by_contra hall
  have hat (k : Nat) (hk : k < 3) : m.enc.slot = some k ∨ m.vf.slot = some k := by
    have hne : m.attached k = true := by simpa using fun hoff => hall ⟨k, hk, hoff⟩
    simpa [SlotManager.attached] using hne
  have h0 := hat 0 (by omega)
  have h1 := hat 1 (by omega)
  have h2 := hat 2 (by omega)
  rcases h0 with h0 | h0 <;> rcases h1 with h1 | h1 <;> rcases h2 with h2 | h2 <;> simp_all

/-- A frame start finds a slot: with three slots or more, none FREE and none FILLING, one is READY. -/
theorem Job.frameStart_ne_none {j : SlotWork} (h : j.st.Laws) (hsize : 3 ≤ j.st.table.length) (recording : Bool) :
    j.frameStart recording ≠ none := by
  have hlaws := (Job.tear_keeps 0 0 j).laws h
  have hlen := (Job.tear_keeps 0 0 j).size
  have hnone := Job.tear_unfilled h
  rw [Job.frameStart_eq]
  intro hstart
  split at hstart
  · simp at hstart
  · simp at hstart
  · next hfree hready =>
    rw [List.head?_eq_none_iff] at hfree
    obtain ⟨k, hk, hoff⟩ := j.tear.st.exists_unattached
    have hnot : j.tear.st.table[k]? ≠ some .free := fun he => by
      have := (hlaws.free k).2 he
      simp [hfree] at this
    have hmem := (hlaws.complete k).2 (SlotManager.complete_of_not (by omega) hnot hnone)
    have := List.find?_eq_none.1 hready k hmem
    simp [hoff] at this

theorem Job.captureBeat_ne_none {j : SlotWork} (h : j.st.Laws) (hsize : 3 ≤ j.st.table.length) (m : RegionMap)
    (recording : Bool) (o : Nat) (enables : List Bool) : j.captureBeat m recording o enables ≠ none := by
  unfold Job.captureBeat
  dsimp only
  split_ifs
  · simp
  · simpa using Job.frameStart_ne_none h hsize recording
  · simp

/-! ### The readers -/

theorem SlotManager.newest_mem {m : SlotManager} {k : Nat} (h : m.newest = some k) : k ∈ m.completion :=
  List.mem_of_getLast? h

/-- A reader on no slot, or on a complete one, keeps the laws. -/
theorem SlotManager.Laws.setReader {m : SlotManager} (h : m.Laws) (r : Reader) {v : ViewReader}
    (hv : ∀ k, v.slot = some k → m.IsComplete k) : (m.setReader r v).Laws := by
  obtain ⟨oneFilling, freeOnce, free, completeOnce, complete, enc, vf⟩ := h
  cases r
  · exact ⟨oneFilling, freeOnce, free, completeOnce, complete, hv, vf⟩
  · exact ⟨oneFilling, freeOnce, free, completeOnce, complete, enc, hv⟩

@[simp] theorem SlotManager.setReader_table (m : SlotManager) (r : Reader) (v : ViewReader) :
    (m.setReader r v).table = m.table := by cases r <;> rfl

@[simp] theorem SlotManager.setReader_completion (m : SlotManager) (r : Reader) (v : ViewReader) :
    (m.setReader r v).completion = m.completion := by cases r <;> rfl

theorem SlotManager.Laws.reader_complete {m : SlotManager} (h : m.Laws) (r : Reader) {k : Nat}
    (hk : (m.reader r).slot = some k) : m.IsComplete k := by
  cases r
  · exact h.enc k hk
  · exact h.vf k hk

theorem SlotManager.detach_keeps (mx my : Nat) (r : Reader) (m : SlotManager) :
    SlotManager.Keeps mx my m (m.detach r) := by
  unfold SlotManager.detach
  dsimp only
  cases hslot : (m.reader r).slot with
  | none => exact .refl ..
  | some k =>
    dsimp only
    have hleft (h : m.Laws) := h.setReader r (v := { m.reader r with slot := none }) fun k hk => nomatch hk
    split_ifs with hkeep
    · exact ⟨by simp, hleft, by simp⟩
    · refine ⟨by simp [SlotManager.toFree], fun h => ?_, fun h => ?_⟩
      · obtain ⟨f, hf⟩ := h.reader_complete r hslot
        simp only [Bool.or_eq_true, not_or, Bool.not_eq_true] at hkeep
        exact (hleft h).toFree (by simpa using SlotManager.lt_of_getElem? hf) (by simp [hf]) hkeep.1
      · simpa [SlotManager.toFree] using CropsWithin.set h k (e := .free) fun f hf => nomatch hf

theorem SlotManager.frameIn_eq_some {m : SlotManager} {k : Nat} {f : CompleteFrame} (h : m.frameIn k = some f) :
    m.table[k]? = some (.complete f) := by
  unfold SlotManager.frameIn at h
  split at h
  · next hk => rw [hk, Option.some.inj h]
  · simp at h

theorem SlotManager.attach_keeps (mx my : Nat) (r : Reader) (m : SlotManager) :
    SlotManager.Keeps mx my m (m.attach r) := by
  unfold SlotManager.attach
  dsimp only
  cases hnew : m.newest with
  | none => exact .refl ..
  | some k =>
    dsimp only
    have hset (h : m.Laws) := h.setReader r (v := { m.reader r with slot := some k }) fun i hi => by
      obtain rfl := Option.some.inj hi
      exact (h.complete k).1 (SlotManager.newest_mem hnew)
    cases hin : (m.setReader r { m.reader r with slot := some k }).frameIn k with
    | none => exact ⟨by simp, hset, by simp⟩
    | some f =>
      have hk := SlotManager.frameIn_eq_some hin
      refine ⟨by simp [SlotManager.setSlot], fun h => ?_, fun h => ?_⟩
      · exact (hset h).setSlot hk (by simp) (.inr ⟨_, _, rfl, rfl⟩)
      · have hf := h.2 f (List.mem_of_getElem? (by simpa using hk))
        have hsee : (f.see r).Within mx my := by cases r <;> exact hf
        simpa [SlotManager.setSlot] using CropsWithin.set h k fun g hg => FrameSlot.complete.inj hg ▸ hsee

theorem SlotManager.latch_keeps (mx my : Nat) (r : Reader) (m : SlotManager) :
    SlotManager.Keeps mx my m (m.latch r) := by
  have h := (SlotManager.detach_keeps mx my r m).trans (SlotManager.attach_keeps mx my r _)
  cases r
  · exact h
  · exact h.trans (.counted rfl rfl rfl rfl rfl)

theorem SlotManager.viewBeat_keeps (mx my : Nat) (r : Reader) (map : RegionMap) (o : Nat) (m : SlotManager) :
    SlotManager.Keeps mx my m (m.viewBeat r map o).1 := by
  have hlatch : SlotManager.Keeps mx my m
      (if decide (map.viewLine o < map.vh) && m.latches r (map.viewLine o) then m.latch r else m) := by
    split_ifs
    · exact SlotManager.latch_keeps ..
    · exact .refl ..
  refine hlatch.trans ?_
  cases r <;> exact .counted rfl rfl rfl rfl rfl

end Sys2Proof.Machine

end

section
/-! PROOFS. A clip is open exactly in its record states (08 section 8.3): mirror writes, units, clips that open and end. -/

namespace Sys2Proof.Machine

/-! ### A clip and the record state -/

/-- The record states in which a clip is open. -/
def RecState.clipped : RecState → Bool
  | .recording | .stopping | .closing => true
  | .idle | .standby | .armed => false

theorem CardEngine.clipSound_iff {c : CardEngine} : c.ClipSound ↔ c.clip.isSome = c.recState.clipped := by
  unfold CardEngine.ClipSound
  cases c.clip <;> cases c.recState <;> simp [RecState.clipped]

/-- The work on the recording side has neither opened nor ended a clip, and the record state is still one with a clip, or
still one without. -/
def Job.SameClip (j k : RecWork) : Prop :=
  k.st.card.clip.isSome = j.st.card.clip.isSome ∧ k.st.card.recState.clipped = j.st.card.recState.clipped

namespace Job.SameClip

theorem refl (j : RecWork) : j.SameClip j := ⟨rfl, rfl⟩

theorem trans {j k l : RecWork} (h : j.SameClip k) (h' : k.SameClip l) : j.SameClip l :=
  ⟨h'.1.trans h.1, h'.2.trans h.2⟩

theorem sound {j k : RecWork} (h : j.SameClip k) (hj : j.st.card.ClipSound) : k.st.card.ClipSound := by
  rw [CardEngine.clipSound_iff] at *
  rw [h.1, h.2, hj]

theorem of_mirrors {j k : RecWork} (h : j.MirrorsOn k) : j.SameClip k := by
  obtain ⟨m, n, o, rfl⟩ := h
  exact ⟨rfl, rfl⟩

/-- Work done once for each member of a list. -/
theorem foldl {α : Type} {f : RecWork → α → RecWork} (h : ∀ (j : RecWork) x, j.SameClip (f j x)) (xs : List α) (j : RecWork) :
    j.SameClip (xs.foldl f j) := by
  induction xs generalizing j with
  | nil => exact .refl j
  | cons x xs ih => exact (h j x).trans (ih _)

end Job.SameClip

section

variable (j : RecWork) (map : RegionMap)

/-! #### Work that leaves the clip's presence alone -/

theorem Job.ask_sameClip (o : Out) : j.SameClip (j.ask o) := ⟨rfl, rfl⟩

theorem Job.ring_sameClip (f : RingMonitor → RingMonitor) : j.SameClip (j.ring f) := ⟨rfl, rfl⟩

theorem Job.clip_sameClip (f : OpenClip → OpenClip) : j.SameClip (j.clip f) := ⟨Option.isSome_map, rfl⟩

/-- A change of other fields of the card engine. -/
theorem Job.card_sameClip {f : CardEngine → CardEngine} (hclip : (f j.st.card).clip = j.st.card.clip)
    (hrec : (f j.st.card).recState = j.st.card.recState) : j.SameClip (j.card f) :=
  ⟨congrArg Option.isSome hclip, congrArg RecState.clipped hrec⟩

theorem Job.endSlot_sameClip (slot : Option CmdSlot) (code : OutcomeCode) (detail : Nat) :
    j.SameClip (j.endSlot slot code detail) := by
  cases slot
  · exact .refl j
  · exact j.ask_sameClip _

theorem Job.dropPendingStart_sameClip (code : OutcomeCode) (detail : Nat) : j.SameClip (j.dropPendingStart code detail) :=
  (j.endSlot_sameClip ..).trans (Job.card_sameClip _ rfl rfl)

theorem Job.endStart_sameClip (code : OutcomeCode) (detail : Nat) : j.SameClip (j.endStart code detail) :=
  (j.endSlot_sameClip ..).trans (Job.card_sameClip _ rfl rfl)

theorem Job.endStop_sameClip (code : OutcomeCode) (detail : Nat) : j.SameClip (j.endStop code detail) :=
  (j.endSlot_sameClip ..).trans (Job.card_sameClip _ rfl rfl)

theorem Job.endEject_sameClip (code : OutcomeCode) (detail : Nat) : j.SameClip (j.endEject code detail) :=
  (j.endSlot_sameClip ..).trans (Job.card_sameClip _ rfl rfl)

theorem Job.endFormat_sameClip (code : OutcomeCode) (detail : Nat) : j.SameClip (j.endFormat code detail) :=
  (j.endSlot_sameClip ..).trans (Job.card_sameClip _ rfl rfl)

theorem Job.emptyBuffers_sameClip : j.SameClip j.emptyBuffers := ⟨rfl, rfl⟩

theorem Job.writeDirectory_sameClip (purpose : DirPurpose) (first count : Nat) :
    j.SameClip (j.writeDirectory purpose first count) := ⟨rfl, rfl⟩

theorem Job.setMap_sameClip (unit value : Nat) : j.SameClip (j.setMap map unit value) := .of_mirrors (Job.mirrorPut_on ..)

theorem Job.mirrorPut_sameClip (a : Nat) (bytes : List Byte) : j.SameClip (j.mirrorPut map a bytes) :=
  .of_mirrors (Job.mirrorPut_on ..)

theorem Job.tidyDirectory_sameClip : j.SameClip (j.tidyDirectory map) := .of_mirrors (Job.tidyDirectory_on ..)

theorem Job.stampEntry_sameClip (e : QueueEntry) : j.SameClip (j.stampEntry map e) := by
  have hcard : (j.st.formStamp e).2.card = j.st.card := by
    unfold Recorder.formStamp
    dsimp only
    cases j.st.tc.mode
    · rfl
    · cases e.kind.isVideo <;> rfl
  exact ⟨congrArg (·.clip.isSome) hcard, congrArg (·.recState.clipped) hcard⟩

theorem Job.joinRetained_sameClip : j.SameClip (j.joinRetained map) := .foldl (fun j e => j.stampEntry_sameClip map e) ..

/-! #### The record state and the card state -/

/-- A change of the record state leaves the clip (R137). -/
theorem Job.setRec_card (r : RecState) : (j.setRec r).st.card = { j.st.card with recState := r } := by
  unfold Job.setRec
  dsimp only
  split_ifs with h
  · rw [h]
  all_goals rfl

/-- A record state that goes with the clip's presence. -/
theorem Job.setRec_sound {r : RecState} (h : j.st.card.clip.isSome = r.clipped) : (j.setRec r).st.card.ClipSound := by
  rw [CardEngine.clipSound_iff, Job.setRec_card]
  exact h

theorem Job.setRec_sameClip {r : RecState} (h : r.clipped = j.st.card.recState.clipped) : j.SameClip (j.setRec r) := by
  unfold Job.SameClip
  rw [Job.setRec_card]
  exact ⟨rfl, h⟩

theorem Job.setCard_sameClip (s : CardState) : j.SameClip (j.setCard s) := by
  have hstate : j.SameClip ((j.card fun c => { c with state := s }).ask .status) := ⟨rfl, rfl⟩
  unfold Job.setCard
  dsimp only
  split_ifs with h1 h2 h3 h4
  · exact .refl j
  · exact hstate.trans (Job.setRec_sameClip _ (by rw [h3]; rfl))
  · exact hstate
  · exact hstate.trans (Job.setRec_sameClip _ (by rw [h4]; rfl))
  · exact hstate

/-! #### Units -/

theorem Job.allocate_sameClip (relocated : Bool) : j.SameClip (j.allocate map relocated).1 := by
  unfold Job.allocate
  split
  · next u c _ _ =>
    have hlast : (j.setMap map u mapEnd).SameClip
        (match c.chain.getLast? with
          | some last => (j.setMap map u mapEnd).setMap map last u
          | none => j.setMap map u mapEnd) := by
      split
      · exact Job.setMap_sameClip ..
      · exact .refl _
    exact (((Job.setMap_sameClip ..).trans hlast).trans (Job.card_sameClip _ rfl rfl)).trans (Job.clip_sameClip ..)
  · exact .refl j

theorem Job.commitUnit_sameClip : j.SameClip (j.commitUnit map) := by
  unfold Job.commitUnit
  split
  · exact .refl j
  · exact (Job.clip_sameClip ..).trans (Job.ring_sameClip ..)

theorem Job.commitIfComplete_sameClip : j.SameClip (j.commitIfComplete map) := by
  unfold Job.commitIfComplete
  split
  · split_ifs
    · exact j.commitUnit_sameClip map
    · exact .refl j
  · exact .refl j

/-- The closing writes begin: the clip stays, in CLOSING. -/
theorem Job.beginClose_card : (j.beginClose map).st.card.clip.isSome = j.st.card.clip.isSome ∧
    (j.beginClose map).st.card.recState.clipped = true := by
  unfold Job.beginClose
  extract_lets j1 j2
  have h1 : j1.st.card = { j.st.card with recState := .closing } := Job.setRec_card ..
  have h2 : j1.SameClip j2 := by
    unfold j2
    split
    · exact Job.mirrorPut_sameClip ..
    · exact .refl _
  obtain ⟨hclip, hrec⟩ := h2.trans ((Job.tidyDirectory_sameClip j2 map).trans
    ((Job.writeDirectory_sameClip _ .closeHead 1 24).trans (Job.writeDirectory_sameClip _ .closeMap 25 256)))
  rw [hclip, hrec, h1]
  exact ⟨rfl, rfl⟩

theorem Job.beginClose_sound (h : j.st.card.clip.isSome = true) : (j.beginClose map).st.card.ClipSound := by
  obtain ⟨hclip, hrec⟩ := j.beginClose_card map
  rw [CardEngine.clipSound_iff, hclip, hrec, h]

theorem Job.endFull_sound (h : j.st.card.clip.isSome = true) : (j.endFull map).st.card.ClipSound := by
  unfold Job.endFull
  extract_lets j1 j2
  have h1 : j.SameClip j1 := (Job.clip_sameClip ..).trans (Job.emptyBuffers_sameClip _)
  have h2 : j2.st.card.clip.isSome = ((j1.setCard .full).ask (.raise .cardFilled)).st.card.clip.isSome := by
    unfold j2; rw [Job.setRec_card]
  have h3 := (Job.setCard_sameClip j1 .full).trans (Job.ask_sameClip _ (.raise .cardFilled))
  exact Job.beginClose_sound _ map (h2.trans (h3.1.trans (h1.1.trans h)))

/-- A unit that fails is retired: the clip goes on in another one, or ends full. -/
theorem Job.relocate_sound (hj : j.st.card.ClipSound) : (j.relocate map).st.card.ClipSound := by
  unfold Job.relocate
  split
  · exact hj
  · next c hclip =>
    have hsome : j.st.card.clip.isSome = true := by rw [hclip]; rfl
    extract_lets failed chain j1 j2 j3 j4 j5 r j6 j7 j8
    have h1 : j.SameClip j1 := Job.setMap_sameClip ..
    have h2 : j1.SameClip j2 := by
      unfold j2
      split
      · exact Job.setMap_sameClip ..
      · exact .refl _
    have h3 : j2.SameClip j3 := Job.clip_sameClip ..
    have h4 : j3.SameClip j4 := Job.card_sameClip _ rfl rfl
    have h5 : j4.SameClip j5 := (Job.ask_sameClip ..).trans (Job.emptyBuffers_sameClip _)
    have h6 : j5.SameClip j6 := Job.allocate_sameClip ..
    have h7 : j6.SameClip j7 := by
      unfold j7
      split
      · split_ifs
        · exact Job.mirrorPut_sameClip ..
        · exact .refl _
      · exact .refl _
    have h8 : j.SameClip j8 :=
      ((((((h1.trans h2).trans h3).trans h4).trans h5).trans h6).trans h7).trans (Job.ring_sameClip ..)
    split_ifs
    · exact h8.sound hj
    · exact Job.endFull_sound _ map (h8.1.trans hsome)

/-! #### Clips that open and end -/

theorem Job.openClip_clip : (j.openClip map).st.card.clip.isSome = true := by
  unfold Job.openClip
  extract_lets c number entry j1 j2 j3 j4
  have h2 : j1.SameClip j2 := Job.mirrorPut_sameClip ..
  have h3 : j2.SameClip j3 := Job.allocate_sameClip ..
  have h4 : j3.SameClip j4 := by
    unfold j4
    split
    · exact Job.mirrorPut_sameClip ..
    · exact .refl _
  have h5 := (Job.tidyDirectory_sameClip j4 map).trans (Job.writeDirectory_sameClip _ .opening 0 25)
  have h1 : j1.st.card.clip.isSome = true := rfl
  rw [h5.1, h4.1, h3.1, h2.1, h1]

theorem Job.startRecording_sound : (j.startRecording map).st.card.ClipSound := by
  have hrec : ((j.openClip map).setRec .recording).st.card.ClipSound := Job.setRec_sound _ (j.openClip_clip map)
  unfold Job.startRecording
  exact (Job.joinRetained_sameClip _ map).sound hrec

theorem Job.clipFault_sound : (j.clipFault map).st.card.ClipSound := by
  unfold Job.clipFault
  extract_lets j1 j2 j3
  have h2 : j2.st.card.ClipSound := Job.setRec_sound _ rfl
  have h3 : j2.SameClip j3 := Job.card_sameClip _ rfl rfl
  exact ((((h3.trans (Job.endStart_sameClip ..)).trans (Job.dropPendingStart_sameClip ..)).trans
    (Job.endStop_sameClip ..)).trans (Job.endEject_sameClip ..)).sound h2

theorem Job.plainFault_sameClip : j.SameClip j.plainFault :=
  (((Job.setCard_sameClip ..).trans (Job.ask_sameClip ..)).trans (Job.card_sameClip _ rfl rfl)).trans
    (Job.endFormat_sameClip ..)

end

end Sys2Proof.Machine

end

section
/-! PROOFS. A clip is open exactly in its record states (08): what the card engine does by itself, REC requests, the card's answers,
the card-detect line, and the beats of the record ring. -/

namespace Sys2Proof.Machine

section

variable (j : RecWork) (map : RegionMap)

/-! #### What the card engine does by itself -/

theorem CardEngine.setBuffer_clip (n : BufName) (b : StagingBuffer) (c : CardEngine) :
    (c.setBuffer n b).clip = c.clip ∧ (c.setBuffer n b).recState = c.recState := by
  cases n <;> exact ⟨rfl, rfl⟩

theorem Job.setBuffer_sameClip (n : BufName) (b : CardEngine → StagingBuffer) :
    j.SameClip (j.card fun c => c.setBuffer n (b c)) :=
  Job.card_sameClip _ (CardEngine.setBuffer_clip ..).1 (CardEngine.setBuffer_clip ..).2

theorem Job.stopProgress_sound (hj : j.st.card.ClipSound) : (j.stopProgress map).st.card.ClipSound := by
  unfold Job.stopProgress
  split
  · exact hj
  · next c hclip =>
    extract_lets j1 j2
    have h1 : j.SameClip j1 := by
      unfold j1
      split_ifs
      · split
        · exact (Job.setBuffer_sameClip ..).trans (Job.clip_sameClip ..)
        · exact Job.clip_sameClip ..
      · exact .refl j
    have h2 : j.SameClip j2 := h1.trans (Job.commitIfComplete_sameClip ..)
    split_ifs
    · exact h2.sound hj
    · exact Job.beginClose_sound _ map (h2.1.trans (by rw [hclip]; rfl))
    · exact hj

theorem Job.nextUnit_sound (hj : j.st.card.ClipSound) : (j.nextUnit map).st.card.ClipSound := by
  unfold Job.nextUnit
  split
  · next c _ hclip _ =>
    dsimp only
    split_ifs
    · exact (Job.allocate_sameClip ..).sound hj
    · exact Job.endFull_sound _ map (by rw [hclip]; rfl)
    · exact hj
  · exact hj

theorem Job.requestChunk_sameClip : j.SameClip (j.requestChunk map) := by
  unfold Job.requestChunk
  split
  · split_ifs
    · split
      · next n b new _ =>
        extract_lets unit j1
        have h1 : j.SameClip j1 :=
          Job.card_sameClip _ (CardEngine.setBuffer_clip ..).1 (CardEngine.setBuffer_clip ..).2
        split_ifs
        · exact h1.trans (Job.clip_sameClip ..)
        · exact h1
      · exact .refl j
    · exact .refl j
  · exact .refl j

theorem Job.makeRequest_sameClip : j.SameClip (j.makeRequest map) := by
  unfold Job.makeRequest
  dsimp only
  split
  · exact .refl j
  · split
    · split
      · split
        · exact Job.card_sameClip _ rfl rfl
        · exact .refl j
      · exact Job.requestChunk_sameClip ..
    · exact Job.requestChunk_sameClip ..

theorem Job.issue_sameClip : j.SameClip j.issue := by
  unfold Job.issue
  dsimp only
  split_ifs
  · exact .refl j
  · split
    · exact Job.card_sameClip _ rfl rfl
    · split
      · exact Job.card_sameClip _ rfl rfl
      · split
        · exact Job.card_sameClip _ (CardEngine.setBuffer_clip ..).1 (CardEngine.setBuffer_clip ..).2
        · exact .refl j

/-- What the card engine does by itself keeps a clip open exactly in its record states. -/
theorem Job.pump_sound (hj : j.st.card.ClipSound) : (j.pump map).st.card.ClipSound :=
  ((Job.makeRequest_sameClip ..).trans (Job.issue_sameClip _)).sound
    (Job.nextUnit_sound _ map (Job.stopProgress_sound j map hj))

/-! #### Mounts and ends -/

theorem Job.mirrorFill_sameClip (a : Nat) (bytes : List Byte) : j.SameClip (j.mirrorFill map a bytes) := ⟨rfl, rfl⟩

theorem Job.startMount_sameClip : j.SameClip j.startMount :=
  (Job.setCard_sameClip ..).trans (Job.card_sameClip _ rfl rfl)

theorem Job.finishMount_sameClip : j.SameClip j.finishMount := by
  unfold Job.finishMount
  extract_lets c free j1 j2
  have h2 : j1.SameClip j2 := by
    unfold j2
    split_ifs <;> exact Job.setCard_sameClip ..
  exact ((Job.card_sameClip j rfl rfl).trans h2).trans (Job.ask_sameClip ..)

theorem Job.markDamaged_sameClip : j.SameClip (j.markDamaged map) := by
  refine .foldl (fun j e => ?_) ..
  split_ifs
  · exact Job.mirrorPut_sameClip ..
  · exact .refl j

theorem Job.checkDirectory_sameClip : j.SameClip (j.checkDirectory map) := by
  unfold Job.checkDirectory
  extract_lets c j1
  have h1 : j.SameClip j1 := (Job.markDamaged_sameClip ..).trans (Job.tidyDirectory_sameClip ..)
  split_ifs
  · exact (Job.setCard_sameClip ..).trans (Job.ask_sameClip ..)
  · exact h1.trans (Job.finishMount_sameClip _)
  · exact h1.trans (Job.writeDirectory_sameClip ..)
  · exact Job.finishMount_sameClip j

/-- With no clip open, an eject leaves none and the record state IDLE. -/
theorem Job.ejectNow_sound (h : j.st.card.clip = none) : j.ejectNow.st.card.ClipSound := by
  unfold Job.ejectNow
  refine Job.setRec_sound _ ?_
  have hdrop : j.SameClip (j.card fun c => { c.dropDirectory.dropMirrors with ejected := true }) :=
    Job.card_sameClip j rfl rfl
  exact (hdrop.trans (Job.setCard_sameClip _ .absent)).1.trans (by rw [h]; rfl)

/-- A START in STANDBY opens a clip, or arms. -/
theorem Job.startFromStandby_sound (source : StartSource) (h : j.st.card.clip = none) :
    (j.startFromStandby map source).1.st.card.ClipSound := by
  unfold Job.startFromStandby
  split
  · dsimp only
    exact j.startRecording_sound map
  · have harm : j.st.card.clip.isSome = RecState.armed.clipped := by rw [h]; rfl
    dsimp only
    exact Job.setRec_sound _ harm

theorem CardEngine.ClipSound.clip_none {c : CardEngine} (h : c.ClipSound) (hrec : c.recState.clipped = false) :
    c.clip = none := by
  rw [CardEngine.clipSound_iff, hrec] at h
  exact Option.isSome_eq_false_iff.1 h |> Option.isNone_iff_eq_none.1

theorem Job.takePendingStart_sound (hj : j.st.card.ClipSound) : (j.takePendingStart map).st.card.ClipSound := by
  unfold Job.takePendingStart
  split
  · exact hj
  · next source _ =>
    split_ifs with hrec
    · have hnone := hj.clip_none (by rw [hrec]; rfl)
      have hstart : ((j.card fun c => { c with pendingStart := none }).startFromStandby map source).1.st.card.ClipSound :=
        Job.startFromStandby_sound _ map source hnone
      dsimp only
      split_ifs
      · exact (Job.endSlot_sameClip ..).sound hstart
      · exact hstart
    · exact (Job.dropPendingStart_sameClip ..).sound hj

theorem Job.closeComplete_sound : (j.closeComplete map).st.card.ClipSound := by
  unfold Job.closeComplete
  extract_lets j1 c full j2 j3 j4
  have h1 : j1.st.card.clip = none := rfl
  have h2 : j2.st.card.ClipSound := by
    unfold j2
    split_ifs
    · exact Job.setRec_sound _ ((Job.setCard_sameClip j1 .full).1.trans (by rw [h1]; rfl))
    · exact Job.setRec_sound _ (by rw [h1]; rfl)
  have h2n : j2.st.card.clip.isSome = false := by
    unfold j2
    split_ifs
    · rw [Job.setRec_card]; exact (Job.setCard_sameClip j1 .full).1.trans (by rw [h1]; rfl)
    · rw [Job.setRec_card, h1]; rfl
  have h3 : j2.SameClip j3 := Job.endStop_sameClip ..
  have h4 : j4.st.card.ClipSound := by
    unfold j4
    split_ifs
    · have hnone : j3.st.card.clip = none := Option.isNone_iff_eq_none.1 (Option.isSome_eq_false_iff.1 (h3.1.trans h2n))
      exact (Job.endEject_sameClip ..).sound (Job.ejectNow_sound _ hnone)
    · exact h3.sound h2
  exact Job.takePendingStart_sound _ map h4

theorem Job.formatComplete_sameClip : j.SameClip j.formatComplete :=
  ((Job.card_sameClip _ rfl rfl).trans (Job.setCard_sameClip ..)).trans (Job.endFormat_sameClip ..)

/-! #### REC requests -/

theorem Job.takeStart_sound (source : StartSource) (hj : j.st.card.ClipSound) :
    (j.takeStart map source).1.st.card.ClipSound := by
  unfold Job.takeStart
  dsimp only
  cases hrec : j.st.card.recState
  case standby => exact Job.startFromStandby_sound j map source (hj.clip_none (by rw [hrec]; rfl))
  case stopping | closing =>
    dsimp only
    split
    · exact hj
    · exact (Job.card_sameClip j rfl rfl).sound hj
  all_goals exact hj

theorem Job.takeStop_sound (slot : Option CmdSlot) (hj : j.st.card.ClipSound) : (j.takeStop slot).1.st.card.ClipSound := by
  unfold Job.takeStop
  cases hrec : j.st.card.recState <;> dsimp only
  case armed => exact ((Job.setRec_sameClip j (by rw [hrec]; rfl)).trans (Job.endStart_sameClip ..)).sound hj
  case recording => exact ((Job.setRec_sameClip j (by rw [hrec]; rfl)).trans (Job.card_sameClip _ rfl rfl)).sound hj
  case stopping | closing => exact (Job.dropPendingStart_sameClip ..).sound hj
  all_goals exact hj

theorem Recorder.recStart_sound (slot : CmdSlot) {r : Recorder} (h : r.card.ClipSound) :
    (r.recStart map slot).1.st.card.ClipSound := by
  unfold Recorder.recStart
  split_ifs
  · exact h
  · exact Job.takeStart_sound _ map _ h

theorem Recorder.recStop_sound (slot : CmdSlot) {r : Recorder} (h : r.card.ClipSound) :
    (r.recStop slot).1.st.card.ClipSound := Job.takeStop_sound (.start r) _ h

theorem Recorder.toggle_sound {r : Recorder} (h : r.card.ClipSound) : (r.toggle map).st.card.ClipSound := by
  unfold Recorder.toggle
  cases r.card.recState <;> dsimp only
  case idle => exact h
  case armed | recording => exact Job.takeStop_sound (.start r) _ h
  all_goals
    split_ifs
    · exact h
    · exact Job.takeStart_sound (.start r) map _ h

theorem Recorder.cardFormat_sound (slot : CmdSlot) {r : Recorder} (h : r.card.ClipSound) :
    (r.cardFormat map slot).1.st.card.ClipSound := by
  unfold Recorder.cardFormat
  dsimp only
  split
  · exact h
  · have hset : (Job.start r : RecWork).SameClip ((Job.start r).setCard .formatting) := Job.setCard_sameClip ..
    generalize (Job.start r : RecWork).setCard .formatting = j at hset ⊢
    have hmirror : j.SameClip (j.card fun c => { c with mirror := none, formatSlot := some slot }) :=
      Job.card_sameClip _ rfl rfl
    exact (((hset.trans hmirror).trans (Job.mirrorFill_sameClip ..)).trans
      ((Job.writeDirectory_sameClip ..).trans (Job.writeDirectory_sameClip ..))).sound h

theorem Recorder.cardEject_sound (slot : CmdSlot) {r : Recorder} (h : r.card.ClipSound) :
    (r.cardEject slot).1.st.card.ClipSound := by
  unfold Recorder.cardEject
  dsimp only
  split
  · exact h
  · cases hrec : r.card.recState <;> dsimp only
    case recording =>
      exact ((Job.setRec_sameClip (.start r) (by rw [Job.start_st, hrec]; rfl)).trans (Job.card_sameClip _ rfl rfl)).sound h
    case stopping | closing =>
      exact ((Job.dropPendingStart_sameClip (.start r) ..).trans (Job.card_sameClip _ rfl rfl)).sound h
    case idle | standby => exact Job.ejectNow_sound (.start r) (h.clip_none (by rw [hrec]; rfl))
    case armed =>
      have hsame : (Job.start r : RecWork).SameClip (((Job.start r).setRec .standby).endStart .aborted 0) :=
        (Job.setRec_sameClip (.start r) (by rw [Job.start_st, hrec]; rfl)).trans (Job.endStart_sameClip ..)
      refine Job.ejectNow_sound _ ((hsame.sound h).clip_none (hsame.2.trans ?_))
      rw [Job.start_st, hrec]; rfl

/-! #### Answers -/

theorem Job.landed_sameClip : j.SameClip j.landed := ⟨rfl, rfl⟩

theorem Job.directoryWritten_sound (hj : j.st.card.ClipSound) : (j.directoryWritten map).st.card.ClipSound := by
  unfold Job.directoryWritten
  split
  · exact hj
  · next d ds _ =>
    extract_lets j1
    have h1 : j.SameClip j1 := Job.card_sameClip _ rfl rfl
    cases d.purpose <;> dsimp only
    · exact (h1.trans (Job.finishMount_sameClip _)).sound hj
    · exact h1.sound hj
    · exact (h1.trans (Job.formatComplete_sameClip _)).sound hj
    · exact (h1.trans (Job.clip_sameClip ..)).sound hj
    · exact h1.sound hj
    · exact Job.closeComplete_sound ..

theorem Job.directoryFailed_sound (hj : j.st.card.ClipSound) : (j.directoryFailed map).st.card.ClipSound := by
  unfold Job.directoryFailed
  split
  · exact hj
  · next d ds _ =>
    split_ifs
    · exact (Job.card_sameClip j rfl rfl).sound hj
    · cases d.purpose <;> dsimp only
      case opening | closeHead | closeMap => exact Job.clipFault_sound ..
      all_goals exact (Job.plainFault_sameClip j).sound hj

theorem Job.batchWritten_sameClip (n : BufName) : j.SameClip (j.batchWritten map n) :=
  ((Job.setBuffer_sameClip ..).trans (Job.clip_sameClip ..)).trans (Job.commitIfComplete_sameClip ..)

theorem Job.batchFailed_sound (n : BufName) (hj : j.st.card.ClipSound) : (j.batchFailed map n).st.card.ClipSound := by
  unfold Job.batchFailed
  dsimp only
  split_ifs
  · exact (Job.setBuffer_sameClip ..).sound hj
  · exact Job.clipFault_sound ..
  · exact Job.relocate_sound _ map hj

theorem Job.commandFailed_sound (cmd : CardCmd) (hj : j.st.card.ClipSound) : (j.commandFailed map cmd).st.card.ClipSound := by
  cases cmd with
  | ident => exact (Job.plainFault_sameClip j).sound hj
  | read => exact (Job.plainFault_sameClip j).sound hj
  | writeDir => exact Job.directoryFailed_sound _ map hj
  | writeBatch first n => exact Job.batchFailed_sound _ map n hj

theorem Job.identAnswer_sound (blocks : Nat) (writeProtect : Bool) (hj : j.st.card.ClipSound) :
    (j.identAnswer blocks writeProtect).st.card.ClipSound := by
  unfold Job.identAnswer
  have hland := j.landed_sameClip
  split
  · split_ifs
    · exact hland.sound hj
    · exact (hland.trans (Job.plainFault_sameClip _)).sound hj
    · exact (hland.trans (Job.card_sameClip _ rfl rfl)).sound hj
  · exact hj

theorem Job.readAnswer_sound (data : Option (List Byte)) (hj : j.st.card.ClipSound) :
    (j.readAnswer map data).st.card.ClipSound := by
  unfold Job.readAnswer
  have hland := j.landed_sameClip
  split
  · split
    · exact hland.sound hj
    · split
      · exact (hland.trans (Job.plainFault_sameClip _)).sound hj
      · next bytes _ =>
        dsimp only
        split
        · exact (hland.trans ((Job.mirrorFill_sameClip ..).trans (Job.card_sameClip _ rfl rfl))).sound hj
        · exact (hland.trans ((Job.mirrorFill_sameClip ..).trans (Job.checkDirectory_sameClip ..))).sound hj
  · exact hj

theorem Job.writeAnswer_sound (ok : Bool) (hj : j.st.card.ClipSound) : (j.writeAnswer map ok).st.card.ClipSound := by
  unfold Job.writeAnswer
  have hland := j.landed_sameClip.sound hj
  split
  · split_ifs
    · exact hland
    · exact Job.directoryWritten_sound _ map hland
    · exact Job.commandFailed_sound _ map _ hland
  · split_ifs
    · exact hland
    · exact (Job.batchWritten_sameClip ..).sound hland
    · exact Job.commandFailed_sound _ map _ hland
  · exact hj

theorem Job.timeout_sound (hj : j.st.card.ClipSound) : (j.timeout map).st.card.ClipSound := by
  unfold Job.timeout
  have hland := j.landed_sameClip.sound hj
  split
  · split_ifs
    · exact hland
    · exact Job.commandFailed_sound _ map _ hland
  · exact hj

/-! #### Grants, the card-detect line and REGION -/

theorem OpenClip.isSome_map {c : Option OpenClip} {f : OpenClip → OpenClip} : (c.map f).isSome = c.isSome := Option.isSome_map

theorem Job.cardGranted_sameClip (req : CardReq) (bytes : List Byte) : j.SameClip (j.cardGranted map req bytes) := by
  unfold Job.cardGranted
  cases req with
  | dir => exact (Job.card_sameClip _ rfl rfl).trans (Job.card_sameClip _ rfl rfl)
  | chunk offset length unit n =>
    exact (((Job.card_sameClip j rfl rfl).trans (Job.clip_sameClip ..)).trans
      (Job.card_sameClip _ (CardEngine.setBuffer_clip ..).1 (CardEngine.setBuffer_clip ..).2)).trans (Job.ring_sameClip ..)

theorem Job.mirrorGranted_sameClip : j.SameClip j.mirrorGranted := ⟨rfl, rfl⟩

theorem CardEngine.detect_clip (level : Bool) (n : Nat) (c : CardEngine) :
    (c.detect level n).1.clip = c.clip ∧ (c.detect level n).1.recState = c.recState := by
  unfold CardEngine.detect
  split_ifs <;> exact ⟨rfl, rfl⟩

theorem Job.insertion_sameClip (enabled : Bool) : j.SameClip (j.insertion enabled) := by
  unfold Job.insertion
  split_ifs
  · exact Job.startMount_sameClip j
  · exact .refl j

theorem Job.removal_sound (hj : j.st.card.ClipSound) : (j.removal map).st.card.ClipSound := by
  unfold Job.removal
  extract_lets c j1 jlost jidle j2 j3
  have h1 : j.SameClip j1 := Job.card_sameClip _ rfl rfl
  have hlost : jidle.st.card.ClipSound := Job.setRec_sound _ rfl
  have h2 : j2.st.card.ClipSound := by
    unfold j2
    cases hrec : c.recState
    case armed =>
      have harm : RecState.idle.clipped = j.st.card.recState.clipped := by
        change _ = c.recState.clipped
        rw [hrec]; rfl
      exact (((h1.trans (Job.ask_sameClip _ (.raise .cardOut))).trans (Job.setRec_sameClip _ harm)).trans
        (Job.endStart_sameClip ..)).sound hj
    case idle | standby =>
      dsimp only
      split
      · exact h1.sound hj
      · exact ((h1.trans (Job.endFormat_sameClip ..)).trans (Job.ask_sameClip ..)).sound hj
    all_goals
      exact (((Job.endStop_sameClip ..).trans (Job.dropPendingStart_sameClip ..)).trans (Job.endEject_sameClip ..)).sound hlost
  have h3 : j2.SameClip j3 := Job.card_sameClip _ rfl rfl
  exact (h3.trans (Job.setCard_sameClip ..)).sound h2

theorem Job.cardDetect_sound (level : Bool) (n : Nat) (enabled : Bool) (hj : j.st.card.ClipSound) :
    (j.cardDetect map level n enabled).st.card.ClipSound := by
  unfold Job.cardDetect
  extract_lets r j1
  have h1 : j.SameClip j1 := Job.card_sameClip j (CardEngine.detect_clip ..).1 (CardEngine.detect_clip ..).2
  split_ifs
  · exact (h1.trans (Job.insertion_sameClip ..)).sound hj
  · exact Job.removal_sound _ map (h1.sound hj)
  · exact h1.sound hj

theorem CardEngine.restart_sound (conflict : Bool) (c : CardEngine) : (c.restart conflict).ClipSound := by
  rw [CardEngine.clipSound_iff]; rfl

/-- A REGION that moves the mirrors' area, with no clip open. -/
theorem Job.privateMoved_sound (hj : j.st.card.ClipSound) (hrec : j.st.card.recState.clipped = false) :
    j.privateMoved.st.card.ClipSound := by
  unfold Job.privateMoved
  extract_lets j1
  have h1 : j.SameClip j1 := Job.card_sameClip _ rfl rfl
  split_ifs
  · have hidle : RecState.idle.clipped = j1.st.card.recState.clipped := (h1.2.trans hrec).symm
    exact ((h1.trans (Job.setRec_sameClip _ hidle)).trans (Job.startMount_sameClip _)).sound hj
  · exact h1.sound hj

/-! #### Ring beats -/

theorem Job.overrunJoined_sameClip (e : QueueEntry) : j.SameClip (j.overrunJoined map e) := by
  unfold Job.overrunJoined
  extract_lets j1
  have hwait (k : RecWork) : k.SameClip (k.overwriteWaiting e) := by
    unfold Job.overwriteWaiting
    split_ifs
    · exact Job.ask_sameClip ..
    · exact .refl k
  have hagain (k : RecWork) : k.SameClip (k.stampAgain map e) := by
    unfold Job.stampAgain
    split
    · exact ⟨rfl, rfl⟩
    · exact .refl k
  have h1 : j.SameClip j1 := Job.ring_sameClip ..
  exact (((h1.trans (Job.ask_sameClip ..)).trans (Job.clip_sameClip ..)).trans (hwait _)).trans (hagain _)

theorem Job.overrun_sameClip (offset : Nat) (enables : List Bool) : j.SameClip (j.overrun map offset enables) :=
  (Job.SameClip.foldl (fun j e => j.overrunJoined_sameClip map e) ..).trans (Job.ring_sameClip ..)

theorem Job.joinPublished_sound (e : QueueEntry) (hj : j.st.card.ClipSound) : (j.joinPublished map e).st.card.ClipSound := by
  unfold Job.joinPublished
  extract_lets j1
  have h1 : j1.st.card.ClipSound := by
    unfold j1
    split_ifs
    · exact (Job.endStart_sameClip ..).sound (Job.startRecording_sound ..)
    · exact hj
  exact (Job.stampEntry_sameClip ..).sound h1

theorem Job.publish_sound (kind : ChunkKind) (length frame : Nat) (d : Disposition) (hj : j.st.card.ClipSound) :
    (j.publish map kind length frame d).st.card.ClipSound := by
  unfold Job.publish
  extract_lets e put move jdrop jput
  have hput (k : RecWork) : k.SameClip (put k) := Job.ring_sameClip ..
  have hmove (k : RecWork) : k.SameClip (move k) := Job.ring_sameClip ..
  have hdrop : j.SameClip jdrop := (Job.ring_sameClip ..).trans (Job.ask_sameClip ..)
  have hkept : j.SameClip jput := (hput j).trans (hmove _)
  cases d
  case passOver => exact (hmove j).sound hj
  case drop =>
    dsimp only
    split
    · exact ((hdrop.trans (Job.clip_sameClip ..)).trans (hmove _)).sound hj
    · exact (hdrop.trans (hmove _)).sound hj
  case retain =>
    dsimp only
    split
    · exact hkept.sound hj
    · exact (hkept.trans (Job.ring_sameClip ..)).sound hj
  case join => exact Job.joinPublished_sound _ map _ (hkept.sound hj)

theorem Job.attempt_sound (hj : j.st.card.ClipSound) : (j.attempt map).st.card.ClipSound := by
  unfold Job.attempt
  extract_lets _ _ _ j1
  have hreject : j.reject.st.card.ClipSound := (Job.ask_sameClip j _).sound hj
  have hroom : j1.st.card.ClipSound := (Job.ring_sameClip ..).sound hj
  split
  · exact hreject
  · split
    · exact hreject
    · split
      · exact hreject
      · split
        · split
          · exact ((Job.ask_sameClip ..).trans (Job.clip_sameClip ..)).sound hroom
          · exact (Job.ask_sameClip ..).sound hroom
        · exact Job.publish_sound _ map _ _ _ _ ((Job.ring_sameClip ..).sound hroom)

theorem Job.ringBeat_sound (offset : Nat) (data : List Byte) (enables : List Bool) (hj : j.st.card.ClipSound) :
    (j.ringBeat map offset data enables).st.card.ClipSound := by
  unfold Job.ringBeat
  dsimp only
  split_ifs
  · exact (Job.overrun_sameClip ..).sound hj
  · exact Job.attempt_sound _ map ((Job.ring_sameClip ..).sound hj)
  · exact (Job.ring_sameClip ..).sound hj
  · exact hj

end

end Sys2Proof.Machine

end

section
/-! PROOFS. What every step keeps, the host commands: takes, REGION (01 section 1.3), RESTART, and the check of a slot. -/

namespace Sys2Proof.Machine

/-! ### Judgements and takes -/

/-- A judgement passes exactly where each of its tests does (R22). -/
theorem firstFailure_eq_none_iff {cs : List Check} : firstFailure cs = none ↔ ∀ c ∈ cs, c.1 = true := by
  induction cs with
  | nil => simp [firstFailure]
  | cons c cs ih =>
    obtain ⟨ok, v⟩ := c
    cases ok <;> simp [firstFailure, ih]

/-- A change of the bus alone. -/
theorem Part.Keeps.bus (p : Part) (b : Bus) : p.Keeps { p with bus := b } := .of_eq rfl rfl rfl rfl rfl

/-- A take keeps the laws where the owner's judgement and action do (R22, R23). -/
theorem Part.take_keeps {carry : Part → Part × Verdict} (h : ∀ q : Part, q.Keeps (carry q).1) (slot : CmdSlot) (kind : Byte)
    (selOk : Bool) (ack : Word) (p : Part) : p.Keeps (p.take slot kind selOk ack carry) := by
  unfold Part.take
  refine (Part.Keeps.bus p (p.bus.beginTake slot kind)).trans (.trans ?_ (Part.Keeps.bus _ _))
  dsimp only
  split
  · exact .refl _
  · split
    · exact .refl _
    · exact h _

theorem Part.onLens_keeps (f : Lens → LensAnswer) (p : Part) : p.Keeps (p.onLens f).1 := .of_eq rfl rfl rfl rfl rfl

theorem Part.takeAxis_keeps (slot : CmdSlot) (kind sel : Byte) (f : AxisName → Lens → LensAnswer) (p : Part) :
    p.Keeps (p.takeAxis slot kind sel f) := by
  unfold Part.takeAxis
  split
  · exact Part.take_keeps (Part.onLens_keeps _) ..
  · exact Part.take_keeps (fun q => .refl q) ..

theorem Part.takeLens_keeps (slot : CmdSlot) (kind : Byte) (f : Lens → LensAnswer) (p : Part) :
    p.Keeps (p.takeLens slot kind f) := Part.take_keeps (Part.onLens_keeps _) ..

theorem Part.takeOverlay_keeps (slot : CmdSlot) (kind : Byte) (f : Overlay → Overlay × Verdict) (p : Part) :
    p.Keeps (p.takeOverlay slot kind f) := Part.take_keeps (fun _ => .of_eq rfl rfl rfl rfl rfl) ..

/-- A recording command keeps the laws where its work keeps a clip open exactly in its record states. -/
theorem Part.takeRec_keeps {f : RegionMap → Recorder → RecAnswer}
    (h : ∀ m (r : Recorder), r.card.ClipSound → (f m r).1.st.card.ClipSound) (slot : CmdSlot) (kind : Byte) (p : Part) :
    p.Keeps (p.takeRec slot kind f) := by
  refine Part.take_keeps (fun q => ?_) ..
  unfold Part.onRecCommand
  split
  · exact .refl q
  · have hwork : q.Keeps (q.onRecorder fun r => (f q.map r).1) :=
      Part.Keeps.onRecorder fun hq => Job.pump_sound (f q.map q.recd).1 q.map (h q.map q.recd hq)
    exact hwork

/-- A change of the audio channels alone. -/
theorem Part.Keeps.audio (p : Part) (a : Vector Channel 4) : p.Keeps { p with audio := a } := .of_eq rfl rfl rfl rfl rfl

theorem Part.takeAudioSet_keeps (slot : CmdSlot) (sel : Byte) (enable threshold release clearOver : Word) (p : Part) :
    p.Keeps (p.takeAudioSet slot sel enable threshold release clearOver) := by
  unfold Part.takeAudioSet
  split
  · exact Part.take_keeps (fun q => Part.Keeps.audio q _) ..
  · exact Part.take_keeps (fun q => .refl q) ..

theorem Part.onRecSetting_keeps {f : Recorder → Recorder × Verdict} (h : ∀ r, (f r).1.card = r.card) (p : Part) :
    p.Keeps (p.onRecSetting f).1 := .of_eq rfl rfl rfl rfl (h p.recd)

theorem Recorder.prerecSet_card (map : RegionMap) (depth : Nat) (r : Recorder) :
    (r.prerecSet map depth).1.card = r.card := by
  unfold Recorder.prerecSet
  split <;> rfl

theorem Recorder.tcSet_card (timecode mode rate : Nat) (r : Recorder) : (r.tcSet timecode mode rate).1.card = r.card := by
  unfold Recorder.tcSet
  split <;> rfl

theorem Part.takePrerecSet_keeps (slot : CmdSlot) (depth : Word) (p : Part) : p.Keeps (p.takePrerecSet slot depth) :=
  Part.take_keeps (fun q => Part.onRecSetting_keeps (Recorder.prerecSet_card q.map _) q) ..

theorem Part.takeTcSet_keeps (slot : CmdSlot) (timecode mode rate : Word) (p : Part) :
    p.Keeps (p.takeTcSet slot timecode mode rate) :=
  Part.take_keeps (Part.onRecSetting_keeps (Recorder.tcSet_card _ _ _)) ..

theorem Part.takeStabSet_keeps (slot : CmdSlot) (enable rate lTrack lPan hold yaw pitch : Word) (p : Part) :
    p.Keeps (p.takeStabSet slot enable rate lTrack lPan hold yaw pitch) :=
  Part.take_keeps (fun _ => .of_stab (fun h => Stabiliser.set_bounded h ..) rfl) ..

theorem Part.takeStabCal_keeps (slot : CmdSlot) (p : Part) : p.Keeps (p.takeStabCal slot) :=
  Part.take_keeps (fun _ => .of_stab (fun h => Stabiliser.calibrate_bounded h slot) rfl) ..

theorem Part.takeEventSet_keeps (slot : CmdSlot) (mask mode : Word) (p : Part) : p.Keeps (p.takeEventSet slot mask mode) :=
  Part.take_keeps (fun _ => .of_eq rfl rfl rfl rfl rfl) ..

theorem Part.takeEventAck_keeps (slot : CmdSlot) (factors : Word) (p : Part) : p.Keeps (p.takeEventAck slot factors) :=
  Part.take_keeps (fun q => .refl q) ..

/-! ### REGION -/

theorem Part.heldMount_keeps (p : Part) : p.Keeps p.heldMount := by
  unfold Part.heldMount
  split
  · exact Part.Keeps.onRecorder fun h => Job.pump_sound _ _ ((Job.startMount_sameClip (.start p.recd)).sound h)
  · exact .refl p

/-- Maps with the same slot table have the same margins. -/
theorem RegionMap.sameSlots_geometry {a b : RegionMap} (h : a.sameSlots b = true) :
    a.slotCount = b.slotCount ∧ a.mx = b.mx ∧ a.my = b.my := by
  simp only [RegionMap.sameSlots, Bool.and_eq_true, decide_eq_true_eq] at h
  obtain ⟨⟨⟨⟨⟨-, hcount⟩, hcw⟩, hch⟩, hvw⟩, hvh⟩ := h
  exact ⟨hcount, by rw [RegionMap.mx, hcw, hvw, RegionMap.mx], by rw [RegionMap.my, hch, hvh, RegionMap.my]⟩

/-- A REGION that is accepted on this part: no reader is attached, no clip is open, the table has at least 3 slots, and MX is
even (R7). -/
structure Part.RegionAllowed (m : RegionMap) (p : Part) : Prop where
  slots : 3 ≤ m.slotCount
  even : m.mx % 2 = 0
  enc : p.slots.enc.slot = none
  vf : p.slots.vf.slot = none
  quiet : p.recd.card.recState.clipped = false

/-- The map and the slot table after a REGION. -/
theorem Part.remap_keeps {m : RegionMap} {p : Part} (h : p.RegionAllowed m) :
    p.Keeps (if m.sameSlots p.map then { p with map := m }
      else { p with map := m, slots := p.slots.freeAll m.slotCount }) := by
  split
  · next hsame =>
    obtain ⟨hcount, hmx, hmy⟩ := RegionMap.sameSlots_geometry hsame
    refine ⟨id, id, ?_, id, ?_⟩
    · unfold Part.SlotsSound; rw [hcount]; exact id
    · unfold Part.CropsSound; rw [hmx, hmy]; exact id
  · refine ⟨id, id, fun _ => ⟨?_, h.slots, SlotManager.Laws.allFree _ h.enc h.vf⟩, id, fun _ => ?_⟩
    · simp [SlotManager.freeAll]
    · exact Part.cropsSound_iff.2 (.replicate_free h.even ..)

theorem Part.applyRegion_keeps {m : RegionMap} {p : Part} (h : p.RegionAllowed m) : p.Keeps (p.applyRegion m) := by
  unfold Part.applyRegion
  extract_lets old q0 q1 r q2 q3 q4 q5
  have h1 : p.Keeps q1 := Part.remap_keeps h
  have r1 : q1.recd = p.recd := by unfold q1; split <;> rfl
  have h2 : q1.Keeps q2 := by
    unfold q2; split
    · exact .refl _
    · exact .of_eq rfl rfl rfl rfl rfl
  have r2 : q2.recd.card = q1.recd.card := by unfold q2; split <;> rfl
  have h3 : q2.Keeps q3 := by
    unfold q3; split
    · exact .refl _
    · exact .of_eq rfl rfl rfl rfl rfl
  have r3 : q3.recd.card = q2.recd.card := by unfold q3; split <;> rfl
  have h4 : q3.Keeps q4 := by
    unfold q4; split
    · exact .refl _
    · exact .of_eq rfl rfl rfl rfl rfl
  have r4 : q4.recd.card = p.recd.card := by
    rw [← r1, ← r2, ← r3]; unfold q4; split <;> rfl
  have h5 : q4.Keeps q5 := by
    unfold q5; split
    · exact .refl _
    · have hquiet : q4.recd.card.recState.clipped = false := by rw [r4]; exact h.quiet
      exact (Part.Keeps.bus ..).trans (Part.Keeps.onRecorder fun hc => Job.pump_sound _ _ (Job.privateMoved_sound _ hc hquiet))
  have hall : p.Keeps q5 := (((h1.trans h2).trans h3).trans h4).trans h5
  split
  · exact hall.trans ((Part.Keeps.bus ..).trans (Part.heldMount_keeps _))
  · exact hall

theorem Part.regionAllowed_of_tests {o : RegionOperands} {p : Part} (h : firstFailure (p.regionTests o) = none) :
    p.RegionAllowed (o.map p.map) := by
  have tests := firstFailure_eq_none_iff.1 h
  have hcount : within 3 8 o.slotCount = true :=
    tests (operandTest 7 (within 3 8 o.slotCount)) (by simp [Part.regionTests, RegionOperands.tests])
  have hwidth : (within o.vw 4096 o.cw && decide ((o.cw - o.vw) % 4 = 0)) = true :=
    tests (operandTest 10 (within o.vw 4096 o.cw && decide ((o.cw - o.vw) % 4 = 0)))
      (by simp [Part.regionTests, RegionOperands.tests])
  have hbusy : (!p.regionBusy o.privBase) = true :=
    tests (ownerTest (!p.regionBusy o.privBase) .busy) (by simp [Part.regionTests])
  simp only [within, Bool.and_eq_true, decide_eq_true_eq] at hcount hwidth
  simp only [Part.regionBusy, Bool.not_or, Bool.and_eq_true, Bool.not_eq_true', Option.isSome_eq_false_iff,
    Option.isNone_iff_eq_none] at hbusy
  obtain ⟨⟨⟨⟨⟨-, henc⟩, hvf⟩, -⟩, hrec⟩, -⟩ := hbusy
  refine ⟨hcount.1, ?_, henc, hvf, ?_⟩
  · change (o.cw - o.vw) / 2 % 2 = 0
    omega
  · cases hr : p.recd.card.recState <;> simp_all [RecState.clipped]

theorem Part.region_keeps (o : RegionOperands) (p : Part) : p.Keeps (p.region o).1 := by
  unfold Part.region
  split
  · exact .refl p
  · next h => exact Part.applyRegion_keeps (Part.regionAllowed_of_tests h)

/-! ### RESTART -/

theorem SlotManager.reset_laws (n : Nat) : (SlotManager.reset n).Laws :=
  (SlotManager.Laws.allFree (m := SlotManager.reset n) n rfl rfl)

theorem Part.restartPoint_keeps (slot : CmdSlot) (p : Part) : p.Keeps (p.restartPoint slot) := by
  refine Part.Keeps.trans (q :=
    { p with
      bus := p.bus.restart slot
      slots := .restart p.map.slotCount
      stab := p.stab.restart
      lens := p.lens.restart (p.recd.restart p.map.conflict).card.recState
      recd := p.recd.restart p.map.conflict
      audio := channelsMap Channel.restart p.audio }) ?_ ?_
  · refine ⟨id, fun _ => Stabiliser.restart_bounded _, fun h => ⟨?_, h.2.1, SlotManager.reset_laws _⟩,
      fun _ => CardEngine.restart_sound .., fun h => ?_⟩
    · simp [SlotManager.restart, SlotManager.reset]
    · exact Part.cropsSound_iff.2 (.replicate_free h.1 ..)
  · exact Part.Keeps.onRecorder fun h => Job.pump_sound _ _ h

theorem Part.takeRestart_keeps (slot : CmdSlot) (p : Part) : p.Keeps (p.takeRestart slot) := by
  have htake : p.Keeps (p.take slot 0x02 true 0 fun p => (p, .pending)) := Part.take_keeps (fun q => .refl q) ..
  unfold Part.takeRestart
  dsimp only
  split
  · exact htake.trans (Part.restartPoint_keeps ..)
  · exact htake

/-! ### Every command, and the check of a slot -/

theorem Part.takeCommand_keeps (i : Instr) (p : Part) : p.Keeps (p.takeCommand i) := by
  cases i
  case region => exact Part.take_keeps (Part.region_keeps _) ..
  case restart slot => exact Part.takeRestart_keeps slot p
  case eventSet => exact Part.takeEventSet_keeps ..
  case eventAck => exact Part.takeEventAck_keeps ..
  case stabSet => exact Part.takeStabSet_keeps ..
  case stabCal => exact Part.takeStabCal_keeps ..
  case prerecSet => exact Part.takePrerecSet_keeps ..
  case tcSet => exact Part.takeTcSet_keeps ..
  case audioSet => exact Part.takeAudioSet_keeps ..
  case recStart => exact Part.takeRec_keeps (fun m _ h => Recorder.recStart_sound m _ h) ..
  case recStop => exact Part.takeRec_keeps (fun _ _ h => Recorder.recStop_sound _ h) ..
  case cardFormat => exact Part.takeRec_keeps (fun m _ h => Recorder.cardFormat_sound m _ h) ..
  case cardEject => exact Part.takeRec_keeps (fun _ _ h => Recorder.cardEject_sound _ h) ..
  case axisSet | compareSet | home | move | jog | stop => exact Part.takeAxis_keeps ..
  case lensTable | focusTrack | iris | gripSet => exact Part.takeLens_keeps ..
  case text | textClear | fieldSet | zebraSet | paletteSet => exact Part.takeOverlay_keeps ..
  all_goals exact .refl p

/-- An offer keeps the laws where the take does (R20, R21). -/
theorem Part.offer_keeps {taken : Part → Part} (h : ∀ q : Part, q.Keeps (taken q)) (slot : CmdSlot) (p : Part) :
    p.Keeps (p.offer slot taken) := by
  obtain ⟨-, heq⟩ | ⟨-, -, heq⟩ | ⟨-, -, heq⟩ := Part.offer_cases slot taken p <;> rw [heq]
  · exact .refl p
  · exact Part.Keeps.bus ..
  · exact h p

theorem Part.checkSlot_keeps (slot : CmdSlot) (p : Part) : p.Keeps (p.checkSlot slot) := by
  refine Part.offer_keeps (fun q => ?_) ..
  unfold Part.takeSlot
  split
  · exact Part.takeCommand_keeps ..
  · exact Part.Keeps.bus ..

theorem Part.checkAll_keeps (p : Part) : p.Keeps p.checkAll := by
  unfold Part.checkAll
  generalize allSlots = slots
  induction slots generalizing p with
  | nil => exact .refl p
  | cons k slots ih =>
    rw [List.foldl_cons]
    refine Part.Keeps.trans ?_ (ih _)
    split
    · exact .refl p
    · exact Part.checkSlot_keeps ..

end Sys2Proof.Machine

end

section
/-! PROOFS. What every step keeps, the rows: beats, grants, resets and the part's own lines; and the statements about every step. -/

namespace Sys2Proof.Machine

section

variable (p : Part)

/-! ### The recording side, the lens side and the slots of the part -/

theorem Part.onRecorder_keeps {f : Recorder → RecWork} (h : ∀ r, r.card.ClipSound → (f r).st.card.ClipSound) :
    p.Keeps (p.onRecorder f) := Part.Keeps.onRecorder fun hp => Job.pump_sound _ _ (h _ hp)

theorem Part.lensJob_keeps (f : Job Lens Out → Job Lens Out) : p.Keeps (p.lensJob f) := .of_eq rfl rfl rfl rfl rfl

theorem Part.skipNotice_keeps : p.Keeps p.skipNotice := by
  unfold Part.skipNotice
  exact Part.onRecorder_keeps p fun r h => (Job.clip_sameClip (.start r) _).sound h

theorem Part.deliverSlot_keeps (o : SlotOut) : p.Keeps (p.deliverSlot o) := by
  cases o with
  | raise f => exact Part.Keeps.bus ..
  | skip => exact Part.skipNotice_keeps p
  | frameMark => exact Part.lensJob_keeps ..

theorem Part.withSlots_keeps {j : SlotWork} (h : SlotManager.Keeps p.map.mx p.map.my p.slots j.st) :
    p.Keeps (p.withSlots j) := by
  have deliver (os : List SlotOut) (q : Part) : q.Keeps (os.foldl Part.deliverSlot q) := by
    induction os generalizing q with
    | nil => exact .refl q
    | cons o os ih => exact (Part.deliverSlot_keeps q o).trans (ih _)
  exact (Part.Keeps.of_slots (q := { p with slots := j.st }) h rfl).trans (deliver ..)

/-! ### A frame complete -/

theorem SlotManager.isFilling_iff {m : SlotManager} {k : Nat} :
    m.isFilling k = true ↔ ∃ n, m.table[k]? = some (.filling n) := by
  unfold SlotManager.isFilling
  split
  · next n hk => simp [hk]
  · next hno => simpa using hno

theorem Part.frameComplete_keeps {k : Nat} (h : p.slots.isFilling k = true) : p.Keeps (p.frameComplete k) := by
  obtain ⟨n, hk⟩ := SlotManager.isFilling_iff.1 h
  unfold Part.frameComplete
  extract_lets zoom c p1 p2 j p3
  have h1 : p.Keeps p1 := .of_stab (fun hs => Stabiliser.frame_bounded hs ..) rfl
  have h2 : p1.Keeps p2 := by
    unfold p2
    split
    · exact Part.Keeps.bus ..
    · exact .refl _
  have hslots : p2.slots = p.slots ∧ p2.map = p.map := by
    unfold p2
    split <;> exact ⟨rfl, rfl⟩
  have hwork : SlotManager.Keeps p2.map.mx p2.map.my p2.slots (j.releaseOthers p2.recording k).st := by
    have hj : j = .start (p.slots.complete k zoom c.dx c.dy) := by unfold j; rw [hslots.1]
    rw [hslots.2, hslots.1, hj]
    exact SlotManager.complete_keeps hk _ _ fun hmx => Stabiliser.frame_within hmx ..
  have h3 : p2.Keeps p3 := Part.withSlots_keeps p2 hwork
  exact ((h1.trans h2).trans h3).trans (.of_eq rfl rfl rfl rfl rfl)

/-! ### Beats -/

theorem Part.endBeat_keeps (data : Option (List Byte)) (error : Bool) : p.Keeps (p.endBeat data error) :=
  .of_link (fun h => LinkPort.endBeat_bounded h ..) rfl

theorem Part.linkRequest_keeps (r : LinkReq) : p.Keeps (p.linkRequest r) := .of_link id rfl

theorem Part.physicalBeat_keeps (b : LinkBeat) : p.Keeps (p.physicalBeat b) := by
  unfold Part.physicalBeat
  dsimp only
  split <;> exact Part.linkRequest_keeps ..

theorem Part.overload_keeps : p.Keeps p.overload :=
  (Part.Keeps.bus ..).trans (Part.onRecorder_keeps _ fun r h => (Job.clip_sameClip (.start r) _).sound h)

theorem Part.audioBeat_keeps (b : LinkBeat) : p.Keeps (p.audioBeat b) := by
  unfold Part.audioBeat
  split
  · extract_lets r p1 p2
    have h1 : p.Keeps p1 := Part.Keeps.audio ..
    have h2 : p1.Keeps p2 := by
      unfold p2
      split
      · exact Part.overload_keeps _
      · exact .refl _
    exact (h1.trans h2).trans (Part.linkRequest_keeps ..)
  · exact .refl p

theorem Part.privateBeat_keeps : p.Keeps p.privateBeat := (Part.Keeps.bus ..).trans (Part.endBeat_keeps ..)

theorem Part.holeBeat_keeps (b : LinkBeat) : p.Keeps (p.holeBeat b) := by
  unfold Part.holeBeat
  split
  · exact (Part.Keeps.bus ..).trans (Part.endBeat_keeps ..)
  · exact Part.endBeat_keeps ..

theorem Part.captureBeat_keeps {b : LinkBeat} {q : Part} (h : p.captureBeat b = some q) : p.Keeps q := by
  unfold Part.captureBeat at h
  split at h
  · obtain ⟨r, hr, rfl⟩ := Option.map_eq_some_iff.1 h
    have hslots : p.Keeps (p.withSlots r.1) := Part.withSlots_keeps p (Job.captureBeat_keeps _ _ hr)
    dsimp only
    split
    · exact hslots.trans (Part.linkRequest_keeps ..)
    · exact hslots.trans (Part.endBeat_keeps ..)
  · obtain rfl := Option.some.inj h
    exact .refl p

/-- A view beat at the slot manager and the overlay unit. -/
theorem Part.Keeps.slotsOverlay {m : SlotManager} (h : SlotManager.Keeps p.map.mx p.map.my p.slots m) (o : Overlay) :
    p.Keeps { p with slots := m, overlay := o } :=
  (Part.Keeps.of_slots (q := { p with slots := m }) h rfl).trans (.of_eq rfl rfl rfl rfl rfl)

theorem Part.viewBeat_keeps (b : LinkBeat) : p.Keeps (p.viewBeat b) := by
  have hview := SlotManager.viewBeat_keeps p.map.mx p.map.my (readerAt b.addr) p.map (viewOffset b.addr) p.slots
  unfold Part.viewBeat
  dsimp only
  generalize p.slots.viewBeat (readerAt b.addr) p.map (viewOffset b.addr) = v at hview ⊢
  obtain ⟨slots, answer, latched⟩ := v
  have h1 := Part.Keeps.slotsOverlay p hview (if latched && decide (readerAt b.addr = .vf)
    then p.overlay.takeSnapshot slots.vfFrames else p.overlay)
  cases answer
  · exact h1.trans (Part.endBeat_keeps ..)
  · exact h1.trans (Part.endBeat_keeps ..)
  · exact h1.trans (Part.linkRequest_keeps ..)

/-! ### Grants -/

/-- The command unit's watch of a beat: the port holds as many transactions as before, and a slot may be checked. -/
theorem Part.commandBeat_keeps (offset : Nat) (data : List Byte) (enables : List Bool) :
    p.Keeps (p.commandBeat offset data enables) := by
  unfold Part.commandBeat
  extract_lets b c p1 slot first l
  have h1 : p.Keeps p1 := Part.Keeps.bus ..
  split
  · exact h1
  · next t ts hheld =>
    extract_lets offered last p2
    have h2 : p1.Keeps p2 := by
      refine .of_link (fun h => ?_) rfl
      unfold LinkPort.Bounded at *
      rw [hheld] at h
      exact h
    split
    · exact (h1.trans h2).trans (Part.checkSlot_keeps ..)
    · exact h1.trans h2

theorem Part.watch_keeps (w : WriteWatch) (data : List Byte) (enables : List Bool) : p.Keeps (p.watch w data enables) := by
  unfold Part.watch
  split
  · exact .refl p
  · exact Part.commandBeat_keeps ..
  · exact Part.onRecorder_keeps p fun r h => Job.ringBeat_sound (.start r) p.map _ data enables h
  · split
    · next h => exact Part.frameComplete_keeps p (Bool.and_eq_true_iff.1 h).1
    · exact .refl p

theorem Part.linkGrant_keeps (mem : Memory) : p.Keeps (p.linkGrant mem).1 := by
  have htake : p.Keeps { p with link := { p.link with request := none }, lastGrant := .link } := ⟨id, id, id, id, id⟩
  unfold Part.linkGrant
  dsimp only
  split
  · exact .refl p
  · exact (htake.trans (Part.watch_keeps ..)).trans (Part.endBeat_keeps ..)
  · split
    · exact htake.trans ((Part.Keeps.bus ..).trans (Part.endBeat_keeps ..))
    · exact htake.trans (Part.endBeat_keeps ..)
  · exact htake.trans (Part.endBeat_keeps ..)

theorem Part.cardGrant_keeps (mem : Memory) : p.Keeps (p.cardGrant mem) := by
  unfold Part.cardGrant
  split
  · exact .refl p
  · next req _ =>
    have htake : p.Keeps { p with lastGrant := .card } := .of_eq rfl rfl rfl rfl rfl
    exact htake.trans (Part.onRecorder_keeps _ fun r h => (Job.cardGranted_sameClip (.start r) _ req _).sound h)

theorem Part.dequeue_keeps : p.Keeps p.dequeue := Part.Keeps.bus ..

theorem Part.grantPart_keeps (mem : Memory) (r : PartReq) : p.Keeps (Part.grantPart mem p r).1 := by
  cases r with
  | zero a pieces =>
    dsimp only [Part.grantPart]
    split
    · exact Part.dequeue_keeps p
    · exact Part.Keeps.bus ..
  | zeroOutcome slot => exact Part.dequeue_keeps p
  | status => exact (Part.Keeps.bus ..).trans (Part.dequeue_keeps _)
  | factor =>
    dsimp only [Part.grantPart]
    split
    · exact Part.Keeps.trans (q := { p with phase := .recordsWritten }) (.of_eq rfl rfl rfl rfl rfl) (Part.dequeue_keeps _)
    · exact Part.dequeue_keeps p
  | lastClip record => exact Part.dequeue_keeps p
  | outcome slot code detail uses kind ack => exact (Part.Keeps.bus ..).trans (Part.dequeue_keeps _)
  | stamp entry a timecode rateMode estimated overwritten =>
    dsimp only [Part.grantPart]
    exact (Part.dequeue_keeps p).trans (Part.onRecorder_keeps _ fun r h => (Job.ring_sameClip (.start r) _).sound h)
  | mirror a bytes =>
    dsimp only [Part.grantPart]
    split
    · exact (Part.dequeue_keeps p).trans (Part.onRecorder_keeps _ fun r h => (Job.mirrorGranted_sameClip (.start r)).sound h)
    · exact Part.Keeps.bus ..
  | lensLoad a discard =>
    dsimp only [Part.grantPart]
    split
    · exact Part.dequeue_keeps p
    · exact (Part.dequeue_keeps p).trans (Part.lensJob_keeps ..)

theorem Part.partGrant_keeps (mem : Memory) : p.Keeps (p.partGrant mem).1 := by
  unfold Part.partGrant
  split
  · exact .refl p
  · exact Part.Keeps.trans (q := { p with lastGrant := .part }) (.of_eq rfl rfl rfl rfl rfl) (Part.grantPart_keeps ..)

/-! ### Resets and start-up -/

theorem Stabiliser.reset_bounded : Stabiliser.reset.Bounded := ⟨.zero rfl _, .zero rfl _⟩

theorem Part.reset_slotsSound (cause : ResetCause) (pins : Pins) : (Part.reset cause pins).SlotsSound :=
  ⟨rfl, Nat.le_succ 3, SlotManager.reset_laws 4⟩

theorem Part.reset_cropsSound (cause : ResetCause) (pins : Pins) : (Part.reset cause pins).CropsSound :=
  Part.cropsSound_iff.2 ⟨by simp [Part.reset, RegionMap.reset, RegionMap.mx], fun _ hf => nomatch List.eq_of_mem_replicate hf⟩

theorem Part.reset_clipSound (cause : ResetCause) (pins : Pins) : (Part.reset cause pins).recd.card.ClipSound :=
  CardEngine.clipSound_iff.2 rfl

theorem Part.hardReset_keeps (cause : ResetCause) (pins : Pins) : p.Keeps (p.hardReset cause pins) :=
  ⟨fun _ => LinkPort.refill_bounded (Nat.zero_le _), fun _ => Stabiliser.reset_bounded,
    fun _ => Part.reset_slotsSound cause pins, fun _ => Part.reset_clipSound cause pins,
    fun _ => Part.reset_cropsSound cause pins⟩

theorem Part.raiseInitDone_keeps : p.Keeps p.raiseInitDone := by
  have hmount (q : Part) : q.Keeps q.beginHeldMount := by
    unfold Part.beginHeldMount
    split
    · exact .refl q
    · exact Part.heldMount_keeps q
  have hraise : p.Keeps ({ p with phase := .running }.raise .initDone).status := .of_eq rfl rfl rfl rfl rfl
  unfold Part.raiseInitDone
  dsimp only
  split
  · exact hraise.trans ((hmount _).trans (Part.checkAll_keeps _))
  · exact hraise.trans ((Part.checkAll_keeps _).trans (hmount _))

/-! ### The part's own lines -/

theorem Part.gyro_keeps (answer : GyroAnswer) : p.Keeps (p.gyro answer) := by
  unfold Part.gyro
  split
  · exact Part.Keeps.trans (q := { p with stab := (Job.sample (.start p.stab) answer).st })
      (.of_stab (fun h => Job.sample_bounded (j := .start p.stab) h answer) rfl) (.of_eq rfl rfl rfl rfl rfl)
  · exact .refl p

theorem Part.recButton_keeps (pressed : Bool) (n : Nat) : p.Keeps (p.recButton pressed n) := by
  unfold Part.recButton
  split
  · extract_lets r l p1
    have h1 : p.Keeps p1 := .of_eq rfl rfl rfl rfl rfl
    split
    · exact (h1.trans (Part.Keeps.bus ..)).trans (Part.onRecorder_keeps _ fun r h => Recorder.toggle_sound _ h)
    · exact h1
  · exact .refl p

end

/-! ### Every step -/

/-- A row of a host command offers the command in its slot. -/
theorem exec_offers {i : Instr} {slot : CmdSlot} {w : SlotWords} (h : encodeSlot i = some (slot, w)) (s : State) :
    exec i s = .next (s.onPart (Part.offer slot (Part.takeCommand i))) := by
  cases i
  case region | restart | eventSet | eventAck | lensTable | axisSet | compareSet | home | move | jog | stop | focusTrack |
      iris | gripSet | stabSet | stabCal | prerecSet | recStart | recStop | cardFormat | cardEject | tcSet | audioSet | text |
      textClear | fieldSet | zebraSet | paletteSet =>
    obtain ⟨rfl, -⟩ := Prod.mk.inj (Option.some.inj h)
    rfl
  all_goals exact absurd h.symm (Option.some_ne_none _)

theorem State.grant_keeps (c : ReqClass) (s : State) : s.part.Keeps (s.grant c).part := by
  unfold State.grant
  split
  · cases c
    · exact Part.linkGrant_keeps ..
    · exact Part.cardGrant_keeps ..
    · exact Part.partGrant_keeps ..
  · exact .refl _

theorem State.onBeat_keeps {f : LinkBeat → Part → Part} (h : ∀ b (q : Part), q.Keeps (f b q)) (row : BeatRow) (s : State) :
    s.part.Keeps (s.onBeat row f).part := by
  unfold State.onBeat
  split
  · exact h ..
  · exact .refl _

theorem State.onCard_keeps {f : RegionMap → RecWork → RecWork}
    (h : ∀ m (j : RecWork), j.st.card.ClipSound → (f m j).st.card.ClipSound) (s : State) :
    s.part.Keeps (s.onCard f).part := by
  have hwork : s.part.Keeps (s.part.onRecorder fun r => f s.part.map (Job.start r)) :=
    Part.onRecorder_keeps _ fun r hr => h _ (.start r) hr
  exact hwork

theorem State.cardDetect_keeps (level : Bool) (n : Nat) (s : State) : s.part.Keeps (s.cardDetect level n).part :=
  State.onCard_keeps (fun m j hj => Job.cardDetect_sound j m level n _ hj) s

/-- A row that is no host command keeps the laws. -/
theorem exec_line_keeps {i : Instr} (hi : encodeSlot i = none) {s t : State} (h : exec i s = .next t) :
    s.part.Keeps t.part := by
  cases i
  case powerOn | pinReset =>
    obtain rfl := Host.Outcome.next.inj h
    exact Part.hardReset_keeps ..
  case frameMemoryReady =>
    obtain rfl := Host.Outcome.next.inj h
    split
    · exact .of_eq rfl rfl rfl rfl rfl
    · exact .refl _
  case initDone =>
    obtain rfl := Host.Outcome.next.inj h
    split
    · exact Part.raiseInitDone_keeps _
    · exact .refl _
  case linkTransaction addr op =>
    simp only [exec, execLinkTransaction] at h
    split at h
    · obtain rfl := Host.Outcome.next.inj h
      exact .of_link (fun hb => LinkPort.arrive_bounded hb _) rfl
    · simp at h
  case physicalBeat =>
    obtain rfl := Host.Outcome.next.inj h
    exact State.onBeat_keeps (fun b q => Part.physicalBeat_keeps q b) ..
  case audioRingWrite =>
    obtain rfl := Host.Outcome.next.inj h
    exact State.onBeat_keeps (fun b q => Part.audioBeat_keeps q b) ..
  case privateAreaWrite =>
    obtain rfl := Host.Outcome.next.inj h
    exact State.onBeat_keeps (fun _ q => Part.privateBeat_keeps q) ..
  case holeBeat =>
    obtain rfl := Host.Outcome.next.inj h
    exact State.onBeat_keeps (fun b q => Part.holeBeat_keeps q b) ..
  case captureWrite =>
    simp only [exec, execCaptureWrite] at h
    split at h
    · obtain rfl := Host.Outcome.next.inj h
      exact .refl _
    · split at h
      · next hbeat =>
        obtain rfl := Host.Outcome.next.inj h
        exact Part.captureBeat_keeps _ hbeat
      · simp at h
  case viewRead =>
    obtain rfl := Host.Outcome.next.inj h
    exact State.onBeat_keeps (fun b q => Part.viewBeat_keeps q b) ..
  case linkRequestGrant | cardRequestGrant | partRequestGrant =>
    obtain rfl := Host.Outcome.next.inj h
    exact State.grant_keeps ..
  case pan | trackReturn | meterFall =>
    obtain rfl := Host.Outcome.next.inj h
    split
    · exact State.grant_keeps ..
    · exact .refl _
  case gyroSample =>
    obtain rfl := Host.Outcome.next.inj h
    exact Part.gyro_keeps ..
  case calDone | gyroLost | gyroBack =>
    obtain rfl := Host.Outcome.next.inj h
    split
    · exact Part.gyro_keeps ..
    · exact .refl _
  case axisStep =>
    obtain rfl := Host.Outcome.next.inj h
    exact Part.lensJob_keeps ..
  case homingFail | rockerSample =>
    obtain rfl := Host.Outcome.next.inj h
    split
    · exact Part.lensJob_keeps ..
    · exact .refl _
  case dwellExpire | irisPwmPeriod =>
    obtain rfl := Host.Outcome.next.inj h
    exact .of_eq rfl rfl rfl rfl rfl
  case recButtonPress | recButtonRelease =>
    obtain rfl := Host.Outcome.next.inj h
    exact Part.recButton_keeps ..
  case cardInsertion | cardRemoval =>
    obtain rfl := Host.Outcome.next.inj h
    exact State.cardDetect_keeps ..
  case cardIdentAnswer blocks wp =>
    cases blocks with
    | late => obtain rfl := Host.Outcome.next.inj h; exact .refl _
    | inTime n =>
      obtain rfl := Host.Outcome.next.inj h
      exact State.onCard_keeps (fun _ j hj => Job.identAnswer_sound j n wp hj) s
  case cardReadAnswer data =>
    cases data with
    | late => obtain rfl := Host.Outcome.next.inj h; exact .refl _
    | inTime d =>
      simp only [exec, execCardReadAnswer] at h
      split at h
      · obtain rfl := Host.Outcome.next.inj h
        exact State.onCard_keeps (fun m j hj => Job.readAnswer_sound j m d hj) s
      · simp at h
  case cardWriteAnswer ok =>
    cases ok with
    | late => obtain rfl := Host.Outcome.next.inj h; exact .refl _
    | inTime o =>
      obtain rfl := Host.Outcome.next.inj h
      exact State.onCard_keeps (fun m j hj => Job.writeAnswer_sound j m o hj) s
  case cardTimeout =>
    obtain rfl := Host.Outcome.next.inj h
    exact State.onCard_keeps (fun m j hj => Job.timeout_sound j m hj) s
  all_goals exact absurd hi (Option.some_ne_none _)

/-- Every row that answers a next state keeps the laws. -/
theorem exec_keeps {i : Instr} {s t : State} (h : exec i s = .next t) : s.part.Keeps t.part := by
  cases hi : encodeSlot i with
  | none => exact exec_line_keeps hi h
  | some sw =>
    rw [exec_offers (slot := sw.1) (w := sw.2) hi s] at h
    obtain rfl := Host.Outcome.next.inj h
    exact Part.offer_keeps (Part.takeCommand_keeps i) ..

/-- Every step does. -/
theorem step_keeps {s t : State} (h : step s = .next t) : s.part.Keeps t.part := by
  cases hp : s.pending with
  | nil =>
    unfold step at h
    rw [hp] at h
    obtain rfl := Host.Outcome.next.inj h
    exact .refl _
  | cons i rest =>
    rw [step_cons i rest s hp] at h
    exact exec_keeps (s := { s with pending := rest }) h

/-! ### What every step keeps -/

/-- Settles O58: one of the laws that every step keeps (`step_keeps`), and OFF with accumulators 0 after reset. -/
theorem everyStepKeepsTheAccumulatorsBounded : Obligations.EveryStepKeepsTheAccumulatorsBounded :=
  ⟨Stabiliser.reset_bounded, fun _ _ hs h => (step_keeps h).stab hs⟩

/-- Settles O60: one of the laws that every step keeps (`step_keeps`), and an empty port after reset. -/
theorem everyStepKeepsTheLinkPortBounded : Obligations.EveryStepKeepsTheLinkPortBounded :=
  ⟨⟨Nat.zero_le _, fun hw => absurd rfl hw⟩, fun _ _ hs h => (step_keeps h).link hs⟩

/-- A capture beat finds its slot where the slot table is sound (R40). -/
theorem Part.captureBeat_ne_none {p : Part} (h : p.SlotsSound) (b : LinkBeat) : p.captureBeat b ≠ none := by
  obtain ⟨hsize, hcount, hlaws⟩ := h
  unfold Part.captureBeat
  split
  · simpa using Job.captureBeat_ne_none (j := .start p.slots) hlaws (by rw [Job.start_st]; omega) p.map p.recording _ _
  · simp

/-- Settles O59: one of the laws that every step keeps (`step_keeps`); and of three slots or more, none FREE, a frame start
finds one without a reader. -/
theorem everyStepKeepsTheSlotTableSound : Obligations.EveryStepKeepsTheSlotTableSound := by
  refine ⟨Part.reset_slotsSound _ _, fun _ _ hs h => (step_keeps h).slots hs, fun s hs => ?_⟩
  cases hb : s.part.beatFor .captureWrite with
  | none => exact ⟨s, by simp only [exec, execCaptureWrite, hb]⟩
  | some b =>
    obtain ⟨q, hq⟩ := Option.ne_none_iff_exists'.1 (Part.captureBeat_ne_none hs b)
    exact ⟨{ s with part := q }, by simp only [exec, execCaptureWrite, hb, hq]⟩

/-- Settles O26: two of the laws that every step keeps (`step_keeps`), and no clip and an all-FREE table after reset. -/
theorem everyStepKeepsTheRecordStateAndTheCropsSound : Obligations.EveryStepKeepsTheRecordStateAndTheCropsSound :=
  ⟨⟨Part.reset_clipSound _ _, fun _ _ hs h => (step_keeps h).clip hs⟩,
    Part.reset_cropsSound _ _, fun _ _ hs h => (step_keeps h).crops hs⟩

/-! ### The memory form -/

theorem Part.linkGrant_wf {mem : Memory} (h : mem.wf = true) (p : Part) : (p.linkGrant mem).2.wf = true := by
  unfold Part.linkGrant
  dsimp only
  split
  · exact h
  · exact Memory.wf_writeMasked h ..
  · exact h
  · exact h

theorem Part.partGrant_wf {mem : Memory} (h : mem.wf = true) (p : Part) : (p.partGrant mem).2.wf = true := by
  unfold Part.partGrant
  split
  · exact h
  · next r _ _ =>
    cases r
    case lensLoad => exact h
    all_goals
      dsimp only [Part.grantPart]
      exact Memory.wf_writeBytes h ..

theorem State.grant_wf {s : State} (h : s.mem.wf = true) (c : ReqClass) : (s.grant c).mem.wf = true := by
  unfold State.grant
  split
  · cases c
    · exact Part.linkGrant_wf h _
    · exact h
    · exact Part.partGrant_wf h _
  · exact h

theorem State.onBeat_mem (row : BeatRow) (f : LinkBeat → Part → Part) (s : State) : (s.onBeat row f).mem = s.mem := by
  unfold State.onBeat
  split <;> rfl

/-- A row writes memory at a grant, or leaves it, but for POWER_ON, which empties it (log 4). -/
theorem exec_wf {i : Instr} {s t : State} (hs : s.mem.wf = true) (h : exec i s = .next t) : t.mem.wf = true := by
  cases i
  case powerOn => obtain rfl := Host.Outcome.next.inj h; rfl
  case linkRequestGrant | cardRequestGrant | partRequestGrant =>
    obtain rfl := Host.Outcome.next.inj h
    exact State.grant_wf hs _
  case pan | trackReturn | meterFall =>
    obtain rfl := Host.Outcome.next.inj h
    split
    · exact State.grant_wf hs _
    · exact hs
  case physicalBeat | audioRingWrite | privateAreaWrite | holeBeat | viewRead =>
    obtain rfl := Host.Outcome.next.inj h
    rw [State.onBeat_mem]; exact hs
  case frameMemoryReady | initDone | calDone | gyroLost | gyroBack | homingFail | rockerSample =>
    obtain rfl := Host.Outcome.next.inj h
    split <;> exact hs
  case linkTransaction =>
    simp only [exec, execLinkTransaction] at h
    split at h
    · obtain rfl := Host.Outcome.next.inj h; exact hs
    · simp at h
  case captureWrite =>
    simp only [exec, execCaptureWrite] at h
    split at h
    · obtain rfl := Host.Outcome.next.inj h; exact hs
    · split at h
      · obtain rfl := Host.Outcome.next.inj h; exact hs
      · simp at h
  case cardIdentAnswer blocks _ | cardWriteAnswer blocks =>
    cases blocks <;> obtain rfl := Host.Outcome.next.inj h <;> exact hs
  case cardReadAnswer data =>
    cases data with
    | late => obtain rfl := Host.Outcome.next.inj h; exact hs
    | inTime d =>
      simp only [exec, execCardReadAnswer] at h
      split at h
      · obtain rfl := Host.Outcome.next.inj h; exact hs
      · simp at h
  all_goals
    obtain rfl := Host.Outcome.next.inj h
    exact hs

/-- Settles O57: memory changes by the writes of grants alone, and each keeps the form. -/
theorem everyStepKeepsTheMemoryForm : Obligations.EveryStepKeepsTheMemoryForm := by
  refine ⟨State.reset_mem_wf, fun s t hs h => ?_⟩
  cases hp : s.pending with
  | nil =>
    unfold step at h
    rw [hp] at h
    obtain rfl := Host.Outcome.next.inj h
    exact hs
  | cons i rest =>
    rw [step_cons i rest s hp] at h
    exact exec_wf (s := { s with pending := rest }) hs h

end Sys2Proof.Machine

end

section
/-! PROOFS. Commands of the lens side at their take (05, 06): what a judgement does to the part, which selectors name an axis, and
the commands that start no motion: LENS_TABLE, AXIS_SET, COMPARE_SET and IRIS. -/

namespace Sys2Proof.Machine

/-! ### The take of a lens command -/

section

variable {slot : CmdSlot} {kind sel : Byte} {s : State} {n : AxisName} {j : LensWork} {v : Verdict}

/-- A lens command in a ready slot: the lens side's work, what it asked, and its answer (R22, R23). -/
theorem State.offered_lens {judge : Lens → LensAnswer} (h : Ready slot s.part) (hjudge : judge s.part.lens = (j, v)) :
    s.offered slot (Part.takeLens slot kind judge) =
      .next (s.onPart fun p => { p.afterTake slot kind j.out v with lens := j.st }) := by
  refine (State.offered_of_accepts h.1 _).trans (congrArg _ (State.onPart_congr ?_))
  unfold Part.takeLens
  rw [Part.take_ready h, ite_self]
  simp only [Part.onLens, hjudge]
  rfl

/-- A refused one leaves the slot's outcome alone behind. -/
theorem State.offered_lens_refused {judge : Lens → LensAnswer} (h : Ready slot s.part)
    (hjudge : judge s.part.lens = s.part.lens.refuse v) :
    s.offered slot (Part.takeLens slot kind judge) = .next (s.onPart (Part.takenOnly slot kind v)) :=
  (State.offered_lens h hjudge).trans (congrArg _ (State.onPart_congr rfl))

/-- A selector that names an axis hands the command to that axis (R22 step 3). -/
theorem Part.takeAxis_of_axisOf (hsel : axisOf sel = some n) (f : AxisName → Lens → LensAnswer) :
    Part.takeAxis slot kind sel f = Part.takeLens slot kind (f n) := by
  funext p
  unfold Part.takeAxis Part.takeLens
  rw [hsel]

/-- A command with an axis selector in a ready slot, for the axis that the selector names. -/
theorem State.offered_axis {judge : AxisName → Lens → LensAnswer} (h : Ready slot s.part) (hsel : axisOf sel = some n)
    (hjudge : judge n s.part.lens = (j, v)) :
    s.offered slot (Part.takeAxis slot kind sel judge) =
      .next (s.onPart fun p => { p.afterTake slot kind j.out v with lens := j.st }) := by
  rw [Part.takeAxis_of_axisOf hsel]
  exact State.offered_lens h hjudge

/-- A refused one leaves the slot's outcome alone behind. -/
theorem State.offered_axis_refused {judge : AxisName → Lens → LensAnswer} (h : Ready slot s.part)
    (hsel : axisOf sel = some n) (hjudge : judge n s.part.lens = s.part.lens.refuse v) :
    s.offered slot (Part.takeAxis slot kind sel judge) = .next (s.onPart (Part.takenOnly slot kind v)) := by
  rw [Part.takeAxis_of_axisOf hsel]
  exact State.offered_lens_refused h hjudge

/-- A selector that names none refuses the command (R22 step 3). -/
theorem State.offered_axis_bad (h : Ready slot s.part) (hsel : axisOf sel = none) (f : AxisName → Lens → LensAnswer) :
    s.offered slot (Part.takeAxis slot kind sel f) = .next (s.onPart (Part.takenOnly slot kind (.badValue 0))) := by
  refine (State.offered_of_accepts h.1 _).trans (congrArg _ (State.onPart_congr ?_))
  obtain ⟨⟨-, -, hrestart⟩, hconflict⟩ := h
  unfold Part.takeAxis
  rw [hsel]
  simp [Part.take, hrestart, hconflict, Part.takenOnly, Bus.taken, Bus.meetAll, Verdict.badValue]

end

/-- The selectors of the two axes (12.1). -/
theorem axisOf_of_named {sel : Byte} {n : AxisName} (h : (sel = 0 ∧ n = .zoom) ∨ (sel = 1 ∧ n = .focus)) :
    axisOf sel = some n := by
  obtain ⟨rfl, rfl⟩ | ⟨rfl, rfl⟩ := h <;> rfl

theorem axisOf_eq_none {sel : Byte} (h0 : sel ≠ 0) (h1 : sel ≠ 1) : axisOf sel = none := by
  rw [axisOf, if_neg h0, if_neg h1]

/-! ### LENS_TABLE (R100) -/

theorem Lens.lensTable_tests (address : Nat) (l : Lens) :
    firstFailure [operandTest 1 (decide (address % 32 = 0) && decide (address ≤ 0x0FFFFF00)),
      ownerTest (l.coord.load.isNone && !l.inMotion) .busy] =
      if ¬32 ∣ address ∨ 0x0FFFFF00 < address then some (.badValue 1)
      else if l.coord.load ≠ none ∨ l.zoom.inMotion = true ∨ l.focus.inMotion = true then some (.refuse .busy)
      else none := by
  have place : (decide (address % 32 = 0) && decide (address ≤ 0x0FFFFF00)) = false ↔ ¬32 ∣ address ∨ 0x0FFFFF00 < address := by
    rw [Bool.and_eq_false_iff, decide_eq_false_iff_not, decide_le_eq_false_iff, Nat.dvd_iff_mod_eq_zero]
  have free : (l.coord.load.isNone && !l.inMotion) = false ↔
      l.coord.load ≠ none ∨ l.zoom.inMotion = true ∨ l.focus.inMotion = true := by
    rw [Bool.and_eq_false_iff, Option.isNone_eq_false_iff, Option.isSome_iff_ne_none, Bool.not_eq_false',
      Lens.inMotion, Bool.or_eq_true]
  rw [firstFailure_operandTest place, firstFailure_ownerTest free]
  rfl

/-- Settles O27: the two tests in their order; the load is requested as the lens side's one demand. -/
theorem lensTableRequestsItsLoad : Obligations.LensTableRequestsItsLoad := by
  intro slot address s h
  have judged := Lens.lensTable_tests address.toNat s.part.lens
  have refused {v : Verdict} (hv : firstFailure [operandTest 1 (decide (address.toNat % 32 = 0) &&
      decide (address.toNat ≤ 0x0FFFFF00)), ownerTest (s.part.lens.coord.load.isNone && !s.part.lens.inMotion) .busy] =
      some v) : exec (.lensTable slot address) s = .next (s.onPart (Part.takenOnly slot 0x10 v)) :=
    State.offered_lens_refused h (by unfold Lens.lensTable; dsimp only; rw [hv])
  refine
    next_of_test refused judged fun _placed judged =>
    next_of_test refused judged fun _free passed => ?_
  have work : Lens.lensTable slot address.toNat s.part.lens =
      (((Job.start s.part.lens).coord fun c => { c with load := some ⟨address.toNat, slot⟩ }).emit
        (.request (.lensLoad address.toNat false)), .pending) := by
    unfold Lens.lensTable; dsimp only; rw [passed]
  exact (State.offered_lens h work).trans (congrArg _ (State.onPart_congr rfl))

/-! ### IRIS (R97) -/

theorem Lens.irisSet_tests (target step : Nat) :
    firstFailure [operandTest 1 (decide (target ≤ 1023)), operandTest 2 (within 1 1023 step)] =
      if 1023 < target then some (.badValue 1) else if step < 1 ∨ 1023 < step then some (.badValue 2) else none := by
  rw [firstFailure_operandTest decide_le_eq_false_iff, firstFailure_operandTest within_eq_false_iff]
  rfl

/-- Settles O37: the two tests in index order; the target and the step are the lens side's whole change. -/
theorem irisSetsItsTarget : Obligations.IrisSetsItsTarget := by
  refine ⟨fun slot target step s h => ?_, fun s => rfl⟩
  have judged := Lens.irisSet_tests target.toNat step.toNat
  have refused {v : Verdict} (hv : firstFailure [operandTest 1 (decide (target.toNat ≤ 1023)),
      operandTest 2 (within 1 1023 step.toNat)] = some v) :
      exec (.iris slot target step) s = .next (s.onPart (Part.takenOnly slot 0x18 v)) :=
    State.offered_lens_refused h (by unfold Lens.irisSet; rw [hv])
  refine
    next_of_test refused judged fun _targetLegal judged =>
    next_of_test refused judged fun _stepLegal passed => ?_
  have work : Lens.irisSet target.toNat step.toNat s.part.lens =
      (.start { s.part.lens with iris := { s.part.lens.iris with target := target.toNat, step := step.toNat } }, .done) := by
    unfold Lens.irisSet; rw [passed]
  exact (State.offered_lens h work).trans (congrArg _ (State.onPart_congr rfl))

/-! ### AXIS_SET (R93) -/

/-- The rocker holds an axis: the zoom, in HOLD (R109). -/
theorem Lens.held_eq_true_iff {l : Lens} {n : AxisName} : l.held n = true ↔ n = .zoom ∧ l.coord.rocker = .hold := by
  cases n <;> simp [Lens.held]

theorem Lens.range_of_table {l : Lens} {t : LensTable} (h : l.coord.table = some t) (n : AxisName) :
    l.range n = t.range n := by simp [Lens.range, h]

theorem Lens.homeValue_of_table {l : Lens} {t : LensTable} (h : l.coord.table = some t) (n : AxisName) :
    l.homeValue n = t.homeValue n := by simp [Lens.homeValue, h]

/-- The order in which an AXIS_SET is judged with a lens table (R93). -/
theorem Lens.firstFailure_axisSetTests {l : Lens} {t : LensTable} (h : l.coord.table = some t) (n : AxisName)
    (vStart vMax ramp dwell low high action quietCap : Nat) :
    firstFailure (l.axisSetTests n vStart vMax ramp dwell low high action quietCap) =
      if ((l.axis n).state ≠ .idle ∧ (l.axis n).state ≠ .unhomed) ∨ (n = .zoom ∧ l.coord.rocker = .hold) then
        some (.refuse .busy)
      else if vStart < 10 ∨ 2000 < vStart then some (.badValue 1)
      else if vMax < vStart ∨ 8000 < vMax then some (.badValue 2)
      else if ramp < 1 ∨ 4096 < ramp then some (.badValue 3)
      else if 255 < dwell then some (.badValue 4)
      else if t.range n < low then some (.badValue 5)
      else if high < low ∨ t.range n < high then some (.badValue 6)
      else if 1 < action then some (.badValue 7)
      else if n = .zoom ∧ (quietCap < vStart ∨ 8000 < quietCap) then some (.badValue 8)
      else if t.homeValue n < low then some (.badValue 5)
      else if high < t.homeValue n then some (.badValue 6)
      else if (l.axis n).state = .idle ∧ (l.axis n).pos.getD 0 < low then some (.badValue 5)
      else if (l.axis n).state = .idle ∧ high < (l.axis n).pos.getD 0 then some (.badValue 6)
      else none := by
  have busy : ((decide ((l.axis n).state = .idle) || decide ((l.axis n).state = .unhomed)) && !l.held n) = false ↔
      ((l.axis n).state ≠ .idle ∧ (l.axis n).state ≠ .unhomed) ∨ (n = .zoom ∧ l.coord.rocker = .hold) := by
    rw [Bool.and_eq_false_iff, Bool.or_eq_false_iff, decide_eq_false_iff_not, decide_eq_false_iff_not, Bool.not_eq_false',
      Lens.held_eq_true_iff]
  have quiet : (decide (n = .focus) || within vStart 8000 quietCap) = false ↔
      n = .zoom ∧ (quietCap < vStart ∨ 8000 < quietCap) := by
    rw [Bool.or_eq_false_iff, decide_eq_false_iff_not, within_eq_false_iff]
    cases n <;> simp
  have above : (decide ((l.axis n).state ≠ .idle) || decide (low ≤ (l.axis n).at0)) = false ↔
      (l.axis n).state = .idle ∧ (l.axis n).pos.getD 0 < low := by
    rw [Bool.or_eq_false_iff, decide_eq_false_iff_not, not_not, decide_le_eq_false_iff, StepAxis.at0]
  have below : (decide ((l.axis n).state ≠ .idle) || decide ((l.axis n).at0 ≤ high)) = false ↔
      (l.axis n).state = .idle ∧ high < (l.axis n).pos.getD 0 := by
    rw [Bool.or_eq_false_iff, decide_eq_false_iff_not, not_not, decide_le_eq_false_iff, StepAxis.at0]
  have table : l.coord.table.isSome = true := by rw [h]; rfl
  unfold Lens.axisSetTests
  rw [table]
  dsimp only
  rw [Lens.range_of_table h, Lens.homeValue_of_table h, ownerTest, firstFailure, firstFailure_ownerTest busy,
    firstFailure_operandTest within_eq_false_iff, firstFailure_operandTest within_eq_false_iff,
    firstFailure_operandTest within_eq_false_iff, firstFailure_operandTest decide_le_eq_false_iff,
    firstFailure_operandTest decide_le_eq_false_iff, firstFailure_operandTest within_eq_false_iff,
    firstFailure_operandTest decide_le_eq_false_iff, firstFailure_operandTest quiet,
    firstFailure_operandTest decide_le_eq_false_iff, firstFailure_operandTest decide_le_eq_false_iff,
    firstFailure_operandTest above, firstFailure_operandTest below]
  rfl

/-- Settles O28: the tests in the manual's order, each failure a take with no more than its refusal; one that passes replaces the
eight values in the axis's record. -/
theorem axisSetReplacesTheEightValues : Obligations.AxisSetReplacesTheEightValues := by
  intro slot sel n vs vm ramp dwell low high action quiet s h hsel t ht
  have judged := Lens.firstFailure_axisSetTests ht n vs.toNat vm.toNat ramp.toNat dwell.toNat low.toNat high.toNat
    action.toNat quiet.toNat
  have named := axisOf_of_named hsel
  have refused {v : Verdict} (hv : firstFailure (s.part.lens.axisSetTests n vs.toNat vm.toNat ramp.toNat dwell.toNat
      low.toNat high.toNat action.toNat quiet.toNat) = some v) :
      exec (.axisSet slot sel vs vm ramp dwell low high action quiet) s = .next (s.onPart (Part.takenOnly slot 0x11 v)) :=
    State.offered_axis_refused h named (by unfold Lens.axisSet; rw [hv])
  refine
    next_of_test refused judged fun _free judged =>
    next_of_test refused judged fun _startLegal judged =>
    next_of_test refused judged fun _maxLegal judged =>
    next_of_test refused judged fun _rampLegal judged =>
    next_of_test refused judged fun _dwellLegal judged =>
    next_of_test refused judged fun _lowInRange judged =>
    next_of_test refused judged fun _highInRange judged =>
    next_of_test refused judged fun actionLegal judged =>
    next_of_test refused judged fun _quietLegal judged =>
    next_of_test refused judged fun _lowBelowHome judged =>
    next_of_test refused judged fun _highAboveHome judged =>
    next_of_test refused judged fun _lowBelowPosition judged =>
    next_of_test refused judged fun _highAbovePosition passed => ?_
  have side : (if action.toNat = 1 then LimitAction.halt else .clamp) = if action.toNat = 0 then .clamp else .halt := by
    have : action.toNat = 0 ∨ action.toNat = 1 := by omega
    obtain h0 | h1 := this
    · simp [h0]
    · simp [h1]
  have work : Lens.axisSet n vs.toNat vm.toNat ramp.toNat dwell.toNat low.toNat high.toNat action.toNat quiet.toNat
      s.part.lens = ((Job.start s.part.lens).putAxis n { s.part.lens.axis n with
        vStart := vs.toNat
        vMax := vm.toNat
        ramp := ramp.toNat
        dwell := dwell.toNat
        low := low.toNat
        high := high.toNat
        action := if action.toNat = 0 then .clamp else .halt
        quietCap := if n = .zoom then quiet.toNat else (s.part.lens.axis n).quietCap }, .done) := by
    unfold Lens.axisSet; rw [passed, side]
  exact (State.offered_axis h named work).trans (congrArg _ (State.onPart_congr rfl))

end Sys2Proof.Machine

end

section
/-! PROOFS. Commands of the lens side that begin or end motions (05 sections 5.3 to 5.6, 06 section 6.6): HOME, STOP, COMPARE_SET,
GRIP_SET, and the judgement of MOVE and JOG. -/

namespace Sys2Proof.Machine

/-! ### One rule per operation of the lens side -/

@[simp] theorem Lens.setAxis_setAxis (n : AxisName) (a b : StepAxis) (l : Lens) :
    (l.setAxis n a).setAxis n b = l.setAxis n b := by cases n <;> rfl

@[simp] theorem Lens.setAxis_other (n : AxisName) (a : StepAxis) (l : Lens) :
    (l.setAxis n a).axis (otherAxis n) = l.axis (otherAxis n) := Lens.axis_setAxis_other n a l

@[simp] theorem Job.putAxis_putAxis (n : AxisName) (a b : StepAxis) (j : LensWork) :
    (j.putAxis n a).putAxis n b = j.putAxis n b := by
  simp [Job.putAxis, Job.change]

/-- The commands of an axis end: what is handed over, and the axis without holder and pending move. -/
theorem Job.endMotions_eq (n : AxisName) (code : OutcomeCode) (j : LensWork) :
    j.endMotions n code =
      ⟨j.st.setAxis n { j.st.axis n with holder := none, pendingMove := none }, j.out ++ (j.st.axis n).ended code⟩ := by
  unfold Job.endMotions StepAxis.ended StepAxis.hostSlot
  dsimp only
  cases (j.st.axis n).holder with
  | none => cases (j.st.axis n).pendingMove <;> simp [Job.putAxis, Job.change, Job.emit]
  | some holder =>
    cases holder <;> cases (j.st.axis n).pendingMove <;> simp [Job.putAxis, Job.change, Job.emit]

theorem Job.endMotions_start (n : AxisName) (code : OutcomeCode) (l : Lens) :
    (Job.start l).endMotions n code =
      ⟨l.setAxis n { l.axis n with holder := none, pendingMove := none }, (l.axis n).ended code⟩ := by
  rw [Job.endMotions_eq]
  rfl

/-- An axis with no pending move is not released (R107). -/
theorem Job.releaseOn_none {onIdle : OnIdle} {cond : StartCond} {n : AxisName} {j : LensWork}
    (h : (j.st.axis n).pendingMove = none) : j.releaseOn onIdle cond n = j := by
  unfold Job.releaseOn
  rw [h]
  rfl

/-- A mark that no move waits for does nothing (R107). -/
theorem Job.mark_none {j : LensWork} (hz : j.st.zoom.pendingMove = none) (hf : j.st.focus.pendingMove = none)
    (src : MarkSource) : j.mark src = j := by
  have hzoom : j.releaseOn Job.idleEntry (.onMark src) .zoom = j := Job.releaseOn_none hz
  unfold Job.mark
  rw [hzoom]
  exact Job.releaseOn_none hf

/-- An entry into IDLE for which no move waits, and with tracking not suspended on it, does nothing (R96). -/
theorem Job.idleEntry_none {n : AxisName} {j : LensWork} (hp : (j.st.axis (otherAxis n)).pendingMove = none)
    (hs : n = .focus → j.st.coord.suspended = false) : j.idleEntry n = j := by
  unfold Job.idleEntry Job.idleEntryWith
  cases n with
  | zoom => exact Job.releaseOn_none hp
  | focus =>
    simp only [hs rfl, Bool.false_eq_true, if_false]
    exact Job.releaseOn_none hp

/-! ### COMPARE_SET (R94, R95) -/

theorem Lens.compareSet_tests (comparator value condition enable : Nat) :
    firstFailure [operandTest 1 (decide (comparator ≤ 1)), operandTest 2 (decide (value ≤ 60000)),
      operandTest 3 (decide (condition ≤ 3)), operandTest 4 (decide (enable ≤ 1))] =
      if 1 < comparator then some (.badValue 1) else if 60000 < value then some (.badValue 2)
      else if 3 < condition then some (.badValue 3) else if 1 < enable then some (.badValue 4) else none := by
  rw [firstFailure_operandTest decide_le_eq_false_iff, firstFailure_operandTest decide_le_eq_false_iff,
    firstFailure_operandTest decide_le_eq_false_iff, firstFailure_operandTest decide_le_eq_false_iff]
  rfl

/-- Where a comparator with a condition of COMPARE_SET holds (5.6). -/
theorem Comparator.holds_cmpCondOf {condition : Nat} (h : condition ≤ 3) (value p : Nat) (enable met : Bool) :
    (Comparator.mk value (cmpCondOf condition) enable met).holds p =
      decide ((condition = 1 ∧ p = value) ∨ (condition = 2 ∧ value < p) ∨ (condition = 3 ∧ p < value)) := by
  have cases4 : condition = 0 ∨ condition = 1 ∨ condition = 2 ∨ condition = 3 := by omega
  obtain rfl | rfl | rfl | rfl := cases4 <;> simp [Comparator.holds, cmpCondOf]

/-- The new comparator at the axis's position, which the command evaluates from met flag 0 (R95). -/
def StepAxis.compareNew (ax : StepAxis) (c : Comparator) : Comparator × Bool :=
  match ax.pos with
  | some p => c.evaluate p
  | none => (c, false)

/-- With no move waiting for a mark, a COMPARE_SET that passes its tests replaces the comparator, and raises MARK where it fires
and enables it. -/
theorem Lens.compareSet_accepted {n : AxisName} {comparator value condition enable : Nat} {l : Lens}
    (h : firstFailure [operandTest 1 (decide (comparator ≤ 1)), operandTest 2 (decide (value ≤ 60000)),
      operandTest 3 (decide (condition ≤ 3)), operandTest 4 (decide (enable ≤ 1))] = none)
    (hz : l.zoom.pendingMove = none) (hf : l.focus.pendingMove = none) {c : Comparator} {met : Bool}
    (hc : (l.axis n).compareNew ⟨value, cmpCondOf condition, decide (enable = 1), false⟩ = (c, met)) :
    l.compareSet n comparator value condition enable =
      (⟨l.setAxis n (if comparator = 1 then { l.axis n with cmpB := c } else { l.axis n with cmpA := c }),
        if met && decide (enable = 1) then [.raise .mark] else []⟩, .done) := by
  have unfolded : l.compareSet n comparator value condition enable =
      (if met then Job.fire n (decide (comparator = 1)) (decide (enable = 1))
        ((Job.start l).putAxis n (if comparator = 1 then { l.axis n with cmpB := c } else { l.axis n with cmpA := c }))
      else (Job.start l).putAxis n (if comparator = 1 then { l.axis n with cmpB := c } else { l.axis n with cmpA := c }),
        .done) := by
    obtain ⟨rfl, rfl⟩ : c = ((l.axis n).compareNew ⟨value, cmpCondOf condition, decide (enable = 1), false⟩).1 ∧
        met = ((l.axis n).compareNew ⟨value, cmpCondOf condition, decide (enable = 1), false⟩).2 := by
      rw [hc]; exact ⟨rfl, rfl⟩
    unfold Lens.compareSet
    dsimp only
    rw [h]
    rfl
  have quiet : ((if comparator = 1 then { l.axis n with cmpB := c } else { l.axis n with cmpA := c } :
      StepAxis)).pendingMove = none := by
    cases n <;> split <;> assumption
  rw [unfolded]
  generalize (if comparator = 1 then { l.axis n with cmpB := c } else { l.axis n with cmpA := c } : StepAxis) = ax at quiet
  have zoomQuiet : (l.setAxis n ax).zoom.pendingMove = none := by cases n <;> assumption
  have focusQuiet : (l.setAxis n ax).focus.pendingMove = none := by cases n <;> assumption
  cases met
  · rfl
  · unfold Job.fire
    by_cases he : enable = 1
    · rw [if_pos rfl, decide_eq_true he, if_pos rfl, Job.mark_none (by exact zoomQuiet) (by exact focusQuiet)]
      rfl
    · rw [if_pos rfl, decide_eq_false he, if_neg Bool.false_ne_true, Job.mark_none (by exact zoomQuiet) (by exact focusQuiet)]
      rfl

/-- Settles O30: the four tests in index order; the comparator is replaced and evaluated at once. -/
theorem compareSetReplacesTheComparator : Obligations.CompareSetReplacesTheComparator := by
  intro slot sel n which value cond enable s h hsel hz hf bad ax met c
  have named := axisOf_of_named hsel
  have judged := Lens.compareSet_tests which.toNat value.toNat cond.toNat enable.toNat
  have refused {v : Verdict} (hv : firstFailure [operandTest 1 (decide (which.toNat ≤ 1)),
      operandTest 2 (decide (value.toNat ≤ 60000)), operandTest 3 (decide (cond.toNat ≤ 3)),
      operandTest 4 (decide (enable.toNat ≤ 1))] = some v) :
      exec (.compareSet slot sel which value cond enable) s = .next (s.onPart (Part.takenOnly slot 0x12 v)) :=
    State.offered_axis_refused h named (by unfold Lens.compareSet; dsimp only; rw [hv])
  refine
    next_of_test refused judged fun whichLegal judged =>
    next_of_test refused judged fun _valueLegal judged =>
    next_of_test refused judged fun condLegal judged =>
    next_of_test refused judged fun _enableLegal passed => ?_
  have evaluated : ax.compareNew ⟨value.toNat, cmpCondOf cond.toNat, decide (enable.toNat = 1), false⟩ = (c, met) := by
    unfold StepAxis.compareNew c met
    cases ax.pos with
    | none => rfl
    | some p =>
      have hholds := Comparator.holds_cmpCondOf (by omega : cond.toNat ≤ 3) value.toNat p (decide (enable.toNat = 1)) false
      simp only [Comparator.evaluate, hholds, Bool.not_false, Bool.and_true]
      rfl
  refine (State.offered_axis h named (Lens.compareSet_accepted passed hz hf evaluated)).trans
    (congrArg _ (State.onPart_congr ?_))
  have which01 : which.toNat = 0 ∨ which.toNat = 1 := by omega
  obtain h0 | h1 := which01
  · simp [h0, ax]
  · simp [h1, ax]

/-! ### HOME (R83) -/

theorem Lens.home_tests (n : AxisName) (l : Lens) :
    firstFailure [ownerTest l.coord.table.isSome .noLensTable, ownerTest (!l.held n) .busy] =
      if l.coord.table = none then some (.refuse .noLensTable)
      else if n = .zoom ∧ l.coord.rocker = .hold then some (.refuse .busy) else none := by
  have noTable : l.coord.table.isSome = false ↔ l.coord.table = none := by simp
  have busy : (!l.held n) = false ↔ n = .zoom ∧ l.coord.rocker = .hold := by rw [Bool.not_eq_false', Lens.held_eq_true_iff]
  rw [firstFailure_ownerTest noTable, firstFailure_ownerTest busy]
  rfl

theorem Lens.home_refused {slot : CmdSlot} {n : AxisName} {l : Lens} {v : Verdict}
    (h : firstFailure [ownerTest l.coord.table.isSome .noLensTable, ownerTest (!l.held n) .busy] = some v) :
    l.home slot n = l.refuse v := by
  unfold Lens.home; rw [h]

/-- What a HOME that is taken makes of its axis (R83). -/
def StepAxis.homed (n : AxisName) (ax : StepAxis) : StepAxis :=
  match ax.state, ax.homing with
  | .moving, _ => { ax.decelerate .rest with state := .homing, homing := some (.slowing false) }
  | .homing, some (.slowing _) => { ax with homing := some (.slowing false) }
  | .homing, some (.leg _ _ false) => { ax with homing := some .again }
  | .homing, some .again => ax
  | _, _ => ax.beginHoming n

theorem Lens.home_accepted {slot : CmdSlot} {n : AxisName} {l : Lens}
    (h : firstFailure [ownerTest l.coord.table.isSome .noLensTable, ownerTest (!l.held n) .busy] = none) :
    l.home slot n =
      (⟨l.setAxis n (StepAxis.homed n { l.axis n with holder := some (.host slot), pendingMove := none }),
        (l.axis n).ended .superseded⟩, .pending) := by
  unfold Lens.home
  rw [h]
  dsimp only
  rw [Job.endMotions_start]
  simp only [Lens.axis_setAxis, Job.putAxis, Job.change, Lens.setAxis_setAxis]
  rfl

/-- A stop by deceleration that begins: its point lies one stopping distance ahead (R81). -/
theorem StepAxis.decelerate_begins {ax : StepAxis} (h : ∀ p x, ax.goal ≠ .stopAt p x) (next : AfterStop) :
    ax.decelerate next = { ax with goal := .stopAt ax.stopPoint next } := by
  unfold StepAxis.decelerate
  split
  · next p x hg => exact absurd hg (h p x)
  · rfl

/-- Homing begins: the position and the met flags go, and the sensor chooses the leg (R83). -/
theorem StepAxis.beginHoming_eq {n : AxisName} {ax : StepAxis} {d : Dir}
    (hd : d = if ax.sensor then (homingDir n).opposite else homingDir n) :
    ax.beginHoming n =
      { ax with
        state := .homing
        pos := none
        motionDir := d
        goal := .none
        phase := .cruise
        k := 0
        speed := ax.vStart
        ownCap := 0
        cmpA := { ax.cmpA with met := false }
        cmpB := { ax.cmpB with met := false }
        homing := some (.leg (!ax.sensor) 0 (ax.needsDwell d)) } := by
  subst hd
  rfl

theorem StepAxis.homed_still {n : AxisName} {ax : StepAxis}
    (h : ax.state = .idle ∨ ax.state = .unhomed ∨ ax.state = .fault ∨ ax.state = .waiting ∨ ax.state = .dwell) :
    ax.homed n = ax.beginHoming n := by
  unfold StepAxis.homed
  obtain h | h | h | h | h := h <;> rw [h]

theorem StepAxis.homed_moving {n : AxisName} {ax : StepAxis} (h : ax.state = .moving) (hg : ∀ p x, ax.goal ≠ .stopAt p x) :
    ax.homed n = { ax with state := .homing, goal := .stopAt ax.stopPoint .rest, homing := some (.slowing false) } := by
  unfold StepAxis.homed
  rw [h]
  dsimp only
  rw [StepAxis.decelerate_begins hg]

theorem StepAxis.homed_leg {n : AxisName} {ax : StepAxis} {toward : Bool} {steps : Nat} (h : ax.state = .homing)
    (hl : ax.homing = some (.leg toward steps false)) : ax.homed n = { ax with homing := some .again } := by
  unfold StepAxis.homed
  rw [h, hl]

/-- Settles O31: the two tests in order; the axis's state decides how the homing begins. -/
theorem homeBeginsAHoming : Obligations.HomeBeginsAHoming := by
  intro slot sel n s h hsel htable ax held done
  have named := axisOf_of_named hsel
  have judged := s.part.lens.home_tests n
  rw [if_neg htable] at judged
  refine ⟨fun hn hrocker => ?_, fun hfree => ?_⟩
  · rw [if_pos ⟨hn, hrocker⟩] at judged
    exact State.offered_axis_refused h named (Lens.home_refused judged)
  · rw [if_neg (by rintro ⟨rfl, hrocker⟩; simp [hrocker] at hfree)] at judged
    have taken {a : StepAxis} (ha : StepAxis.homed n held = a) : exec (.home slot sel) s = done a := by
      refine (State.offered_axis h named (Lens.home_accepted judged)).trans (congrArg _ (State.onPart_congr ?_))
      rw [← ha]
    refine ⟨fun hstate => taken ?_, fun hmoving hgoal => taken ?_, fun toward steps hhoming hleg => taken ?_⟩
    · refine (StepAxis.homed_still (ax := held) hstate).trans (StepAxis.beginHoming_eq ?_)
      have hsensor : held.sensor = ax.sensor := rfl
      rw [hsensor]
      cases n <;> cases ax.sensor <;> rfl
    · exact StepAxis.homed_moving (ax := held) hmoving hgoal
    · exact StepAxis.homed_leg (ax := held) hhoming hleg

/-! ### STOP (R84, R92) -/

theorem Lens.stop_tests (n : AxisName) (kind : Nat) (l : Lens) :
    firstFailure [operandTest 1 (decide (kind ≤ 1)), ownerTest (!l.held n) .busy] =
      if 1 < kind then some (.badValue 1)
      else if n = .zoom ∧ l.coord.rocker = .hold then some (.refuse .busy) else none := by
  have busy : (!l.held n) = false ↔ n = .zoom ∧ l.coord.rocker = .hold := by rw [Bool.not_eq_false', Lens.held_eq_true_iff]
  rw [firstFailure_operandTest decide_le_eq_false_iff, firstFailure_ownerTest busy]
  rfl

/-- A STOP that passes its tests. -/
theorem Lens.stop_accepted {n : AxisName} {kind : Nat} {l : Lens} {j : LensWork}
    (h : firstFailure [operandTest 1 (decide (kind ≤ 1)), ownerTest (!l.held n) .busy] = none)
    (hj : (Job.start l).stopAxis n (decide (kind = 1)) = j) : l.stop n kind = (j, .done) := by
  unfold Lens.stop; rw [h, hj]

/-- An entry into IDLE after the commands of the axis have ended, which brings about nothing more. -/
theorem Job.idleEntry_ended {n : AxisName} {l : Lens} {outs : List Out} (ax : StepAxis)
    (hp : (l.axis (otherAxis n)).pendingMove = none) (hs : l.coord.suspended = false) :
    (⟨l.setAxis n ax, outs⟩ : LensWork).idleEntry n = ⟨l.setAxis n ax, outs⟩ := by
  refine Job.idleEntry_none ?_ fun _ => ?_
  · rw [Lens.axis_setAxis_other]; exact hp
  · rw [Lens.setAxis_coord]; exact hs

theorem Job.stopAxis_still {n : AxisName} {l : Lens} {immediate : Bool}
    (h : (l.axis n).state = .idle ∨ (l.axis n).state = .unhomed ∨ (l.axis n).state = .fault) :
    (Job.start l).stopAxis n immediate = .start l := by
  unfold Job.stopAxis
  dsimp only
  obtain h | h | h := h <;> rw [Job.start_st, h]

theorem Job.stopAxis_decel {n : AxisName} {l : Lens} (h : (l.axis n).state = .moving)
    (hg : ∀ p x, (l.axis n).goal ≠ .stopAt p x) :
    (Job.start l).stopAxis n false =
      ⟨l.setAxis n
        { l.axis n with holder := none, pendingMove := none, goal := .stopAt (l.axis n).stopPoint .rest },
        (l.axis n).ended .aborted⟩ := by
  have begins : ({ l.axis n with holder := none, pendingMove := none } : StepAxis).decelerate .rest =
      { l.axis n with holder := none, pendingMove := none, goal := .stopAt (l.axis n).stopPoint .rest } :=
    StepAxis.decelerate_begins (ax := { l.axis n with holder := none, pendingMove := none }) hg _
  unfold Job.stopAxis
  simp only [h] at begins
  simp only [Job.start_st, h, Job.endMotions_start, Lens.axis_setAxis, Job.putAxis, Job.change, Lens.setAxis_setAxis, begins,
    Bool.false_eq_true, if_false]

/-- A motion that STOP ends at once, where no move waits for it and tracking is not suspended on it. -/
theorem Job.stopAxis_idle {n : AxisName} {l : Lens} {immediate : Bool}
    (h : (l.axis n).state = .moving ∧ immediate = true ∨ (l.axis n).state = .waiting ∨ (l.axis n).state = .dwell)
    (hp : (l.axis (otherAxis n)).pendingMove = none) (hs : l.coord.suspended = false) :
    (Job.start l).stopAxis n immediate =
      ⟨l.setAxis n (StepAxis.rest .idle { l.axis n with holder := none, pendingMove := none }),
        (l.axis n).ended .aborted⟩ := by
  have entered := Job.idleEntry_ended (n := n) (outs := (l.axis n).ended .aborted)
    (StepAxis.rest .idle { l.axis n with holder := none, pendingMove := none }) hp hs
  unfold Job.stopAxis
  obtain ⟨h, rfl⟩ | h | h := h <;> simp only [h] at entered <;>
    simp only [Job.start_st, h, Job.endMotions_start, Lens.axis_setAxis, Job.putAxis, Job.change, Lens.setAxis_setAxis,
      entered, if_true]

theorem Job.stopAxis_leg {n : AxisName} {l : Lens} {immediate toward dwells : Bool} {steps : Nat}
    (h : (l.axis n).state = .homing) (hl : (l.axis n).homing = some (.leg toward steps dwells)) :
    (Job.start l).stopAxis n immediate =
      ⟨l.setAxis n (StepAxis.rest .unhomed { l.axis n with holder := none, pendingMove := none }).losePosition,
        (l.axis n).ended .aborted⟩ := by
  unfold Job.stopAxis
  simp only [Job.start_st, h, Job.endMotions_start, Lens.axis_setAxis, Job.putAxis, Job.change, Lens.setAxis_setAxis, hl]

/-- Settles O35: the two tests in order; the axis's state and the kind decide how the motion ends. -/
theorem stopEndsTheMotion : Obligations.StopEndsTheMotion := by
  intro slot sel n kind s h hsel ax free done
  have named := axisOf_of_named hsel
  have judged := s.part.lens.stop_tests n kind.toNat
  have refused {v : Verdict} (hv : firstFailure [operandTest 1 (decide (kind.toNat ≤ 1)),
      ownerTest (!s.part.lens.held n) .busy] = some v) :
      exec (.stop slot sel kind) s = .next (s.onPart (Part.takenOnly slot 0x16 v)) :=
    State.offered_axis_refused h named (by unfold Lens.stop; rw [hv])
  refine ⟨fun hk => ?_, fun hk hn hrocker => ?_, fun hk hfree => ?_⟩
  · rw [if_pos hk] at judged; exact refused judged
  · rw [if_neg (Nat.not_lt.2 hk), if_pos ⟨hn, hrocker⟩] at judged; exact refused judged
  rw [if_neg (Nat.not_lt.2 hk), if_neg (by rintro ⟨rfl, hrocker⟩; simp [hrocker] at hfree)] at judged
  have taken {a : StepAxis} (ha : (Job.start s.part.lens).stopAxis n (decide (kind.toNat = 1)) =
      ⟨s.part.lens.setAxis n a, ax.ended .aborted⟩) : exec (.stop slot sel kind) s = done a :=
    (State.offered_axis h named (Lens.stop_accepted judged ha)).trans (congrArg _ (State.onPart_congr rfl))
  refine ⟨fun hrest => ?_, fun hmoving hdecel hgoal => taken ?_, fun hp hs hstate => taken ?_,
    fun toward steps dwells hhoming hleg => taken (Job.stopAxis_leg hhoming hleg)⟩
  · exact (State.offered_axis h named (Lens.stop_accepted judged (Job.stopAxis_still hrest))).trans
      (congrArg _ (State.onPart_congr rfl))
  · rw [decide_eq_false (by omega : ¬kind.toNat = 1)]
    exact Job.stopAxis_decel hmoving hgoal
  · refine Job.stopAxis_idle ?_ hp hs
    simpa only [decide_eq_true_eq] using hstate

/-! ### GRIP_SET (R108) -/

theorem Lens.gripSet_tests (rocker button : Nat) :
    firstFailure [operandTest 1 (decide (rocker ≤ 1)), operandTest 2 (decide (button ≤ 1))] =
      if 1 < rocker then some (.badValue 1) else if 1 < button then some (.badValue 2) else none := by
  rw [firstFailure_operandTest decide_le_eq_false_iff, firstFailure_operandTest decide_le_eq_false_iff]
  rfl

/-- The rocker's part of a GRIP_SET: the rocker state and the zoom after it (R108). -/
def Job.gripRocker (j : LensWork) (on : Bool) : LensWork :=
  match j.st.coord.rocker, on with
  | .off, true => j.coord fun c => { c with rocker := rockerStart j.st.coord.level }
  | .off, false => j
  | .hold, false => j.rockerRelease.coord fun c => { c with rocker := .off }
  | .centre, false => j.coord fun c => { c with rocker := .off }
  | .lockout, false => j.coord fun c => { c with rocker := .off }
  | _, true => j

theorem Lens.gripSet_accepted {rocker button : Nat} {l : Lens}
    (h : firstFailure [operandTest 1 (decide (rocker ≤ 1)), operandTest 2 (decide (button ≤ 1))] = none) :
    l.gripSet rocker button =
      (((Job.start l).gripRocker (decide (rocker = 1))).coord fun c =>
        { c with
          recEnable := decide (button = 1)
          recLockout := c.recLockout || (decide (button = 1) && !c.recEnable && c.recPressed) }, .done) := by
  unfold Lens.gripSet Job.gripRocker
  rw [h]
  simp only [Job.start_st] <;> cases l.coord.rocker <;> cases decide (rocker = 1) <;> rfl

/-- Turned on from OFF, the rocker is judged by its last level (R108). -/
theorem Job.gripRocker_off {l : Lens} (h : l.coord.rocker = .off) (on : Bool) :
    (Job.start l).gripRocker on =
      ⟨{ l with coord := { l.coord with rocker := if on then rockerStart l.coord.level else .off } }, []⟩ := by
  have same : ({ l with coord := { l.coord with rocker := .off } } : Lens) = l := by rw [← h]
  unfold Job.gripRocker
  rw [Job.start_st, h]
  cases on
  · rw [if_neg Bool.false_ne_true, same]; rfl
  · rfl

theorem Job.gripRocker_stays {l : Lens} (h : l.coord.rocker ≠ .off) : (Job.start l).gripRocker true = .start l := by
  unfold Job.gripRocker
  rw [Job.start_st]
  cases hr : l.coord.rocker with
  | off => exact absurd hr h
  | centre | hold | lockout => rfl

theorem Job.gripRocker_released {l : Lens} (h : l.coord.rocker = .centre ∨ l.coord.rocker = .lockout) :
    (Job.start l).gripRocker false = ⟨{ l with coord := { l.coord with rocker := .off } }, []⟩ := by
  unfold Job.gripRocker
  obtain h | h := h <;> rw [Job.start_st, h] <;> rfl

/-- A zoom in motion that the rocker releases stops by deceleration, as a request (R110). -/
theorem Job.rockerRelease_moving {j : LensWork} (hm : j.st.zoom.state = .moving) (hg : ∀ p x, j.st.zoom.goal ≠ .stopAt p x) :
    j.rockerRelease =
      j.putAxis .zoom { j.st.zoom with goal := .stopAt j.st.zoom.stopPoint .rest, holder := some .request } := by
  unfold Job.rockerRelease
  dsimp only
  split
  · rw [StepAxis.decelerate_begins hg]
  · next hd => rw [hm] at hd; cases hd
  · next hne _ => exact absurd hm hne

theorem Job.gripRocker_hold {l : Lens} (h : l.coord.rocker = .hold) (hm : l.zoom.state = .moving)
    (hg : ∀ p x, l.zoom.goal ≠ .stopAt p x) :
    (Job.start l).gripRocker false =
      ⟨{ l with
          zoom := { l.zoom with goal := .stopAt l.zoom.stopPoint .rest, holder := some .request }
          coord := { l.coord with rocker := .off } }, []⟩ := by
  unfold Job.gripRocker
  rw [Job.start_st, h]
  dsimp only
  rw [Job.rockerRelease_moving hm hg]
  rfl

/-- Settles O38: the two tests in index order; the rocker's state and operand 1 decide the rocker's part. -/
theorem gripSetTurnsTheGripOnAndOff : Obligations.GripSetTurnsTheGripOnAndOff := by
  intro slot rocker button s h c z done
  have judged := Lens.gripSet_tests rocker.toNat button.toNat
  have refused {v : Verdict} (hv : firstFailure [operandTest 1 (decide (rocker.toNat ≤ 1)),
      operandTest 2 (decide (button.toNat ≤ 1))] = some v) :
      exec (.gripSet slot rocker button) s = .next (s.onPart (Part.takenOnly slot 0x19 v)) :=
    State.offered_lens_refused h (by unfold Lens.gripSet; rw [hv])
  refine ⟨fun hr => ?_, fun hr hb => ?_, fun hr hb => ?_⟩
  · rw [if_pos hr] at judged; exact refused judged
  · rw [if_neg (Nat.not_lt.2 hr), if_pos hb] at judged; exact refused judged
  rw [if_neg (Nat.not_lt.2 hr), if_neg (Nat.not_lt.2 hb)] at judged
  have taken {r : RockerState} {a : StepAxis} (hj : (Job.start s.part.lens).gripRocker (decide (rocker.toNat = 1)) =
      ⟨{ s.part.lens with zoom := a, coord := { c with rocker := r } }, []⟩) :
      exec (.gripSet slot rocker button) s = done r a := by
    have work := Lens.gripSet_accepted (l := s.part.lens) judged
    rw [hj] at work
    exact (State.offered_lens h work).trans (congrArg _ (State.onPart_congr rfl))
  have off (hr0 : rocker.toNat = 0) : decide (rocker.toNat = 1) = false := by rw [hr0]; rfl
  refine ⟨fun hoff => taken ?_, fun hon hr1 => taken ?_, fun hstate hr0 => taken ?_, fun hhold hr0 hmoving hgoal => taken ?_⟩
  · rw [Job.gripRocker_off hoff]
    by_cases hr0 : rocker.toNat = 0
    · rw [off hr0, if_pos hr0]; rfl
    · rw [decide_eq_true (by omega : rocker.toNat = 1), if_neg hr0]
      simp [rockerStart, deadBand, within, c, z]
  · rw [decide_eq_true hr1]
    exact Job.gripRocker_stays hon
  · rw [off hr0]
    exact Job.gripRocker_released hstate
  · rw [off hr0]
    exact Job.gripRocker_hold hhold hmoving hgoal

end Sys2Proof.Machine

end

section
/-! PROOFS. MOVE and JOG (05 sections 5.4 and 5.5, 06 section 6.5): the order in which they are judged, and how an axis starts, changes
its goal, stops first or waits. -/

namespace Sys2Proof.Machine

/-! ### The judgement of MOVE (R86) -/

/-- The tests of MOVE, in order (R86). -/
def Lens.moveTests (n : AxisName) (target cap condition argument : Nat) (l : Lens) : List Check :=
  moveOperands n (l.axis n).vStart cap condition argument ++
    [ownerTest (!l.held n) .busy,
     ownerTest (l.axis n).usable .notHomed,
     operandTest 1 (decide (target ≤ 60000) && decide (target ≤ l.range n)),
     ownerTest (decide ((l.axis n).clampTarget target = target) || decide ((l.axis n).action = .clamp)) .outOfLimit]

theorem Lens.move_refused {slot : CmdSlot} {n : AxisName} {target cap condition argument : Nat} {l : Lens} {v : Verdict}
    (h : firstFailure (l.moveTests n target cap condition argument) = some v) :
    l.move slot n target cap condition argument = l.refuse v := by
  unfold Lens.moveTests at h
  unfold Lens.move
  dsimp only
  rw [h]

/-- The number by which a MOVE's argument names an axis (12.1). -/
def axisNumber : AxisName → Nat
  | .zoom => 0
  | .focus => 1

theorem axisNumber_of_named {sel : Byte} {n : AxisName} (h : (sel = 0 ∧ n = .zoom) ∨ (sel = 1 ∧ n = .focus)) :
    axisNumber n = sel.toNat := by
  obtain ⟨rfl, rfl⟩ | ⟨rfl, rfl⟩ := h <;> rfl

/-- The start condition of a MOVE is good: NOW, AFTER_STOP of the other axis, or ON_MARK of one of the eight sources (6.5). -/
def StartGood (n : AxisName) (condition argument : Nat) : Prop :=
  condition = 0 ∨ (condition = 1 ∧ argument ≤ 1 ∧ argument ≠ axisNumber n) ∨ (condition = 2 ∧ argument ≤ 7)

/-- The test of a MOVE's operand 4 (R86 step 1). -/
def startTest (n : AxisName) (condition argument : Nat) : Bool :=
  decide (condition = 0) ||
    match startCondOf condition argument with
    | some (.afterStop m) => decide (m ≠ n)
    | some (.onMark _) => true
    | none => false

theorem moveOperands_eq (n : AxisName) (vStart cap condition argument : Nat) :
    moveOperands n vStart cap condition argument =
      [operandTest 2 (decide (cap = 0) || within vStart 8000 cap), operandTest 3 (decide (condition ≤ 2)),
       operandTest 4 (startTest n condition argument)] := by rfl

theorem startTest_eq_false_iff {n : AxisName} {condition : Nat} (h : condition ≤ 2) (argument : Nat) :
    startTest n condition argument = false ↔ ¬StartGood n condition argument := by
  have cond : condition = 0 ∨ condition = 1 ∨ condition = 2 := by omega
  unfold startTest StartGood
  obtain rfl | rfl | rfl := cond
  · simp
  · match argument with
    | 0 | 1 => cases n <;> simp [startCondOf, axisNumber]
    | a + 2 => simp [startCondOf]
  · match argument with
    | 0 | 1 | 2 | 3 | 4 | 5 | 6 | 7 => simp [startCondOf]
    | a + 8 => simp [startCondOf]

theorem StepAxis.usable_iff {ax : StepAxis} :
    ax.usable = true ↔ ax.state = .idle ∨ ax.state = .waiting ∨ ax.state = .moving ∨ ax.state = .dwell := by
  unfold StepAxis.usable
  cases ax.state <;> simp

/-- The order in which a MOVE is judged (R86). -/
theorem Lens.firstFailure_moveTests (n : AxisName) (target cap condition argument : Nat) (l : Lens) :
    firstFailure (l.moveTests n target cap condition argument) =
      if ¬(cap = 0 ∨ (l.axis n).vStart ≤ cap ∧ cap ≤ 8000) then some (.badValue 2)
      else if 2 < condition then some (.badValue 3)
      else if startTest n condition argument = false then some (.badValue 4)
      else if n = .zoom ∧ l.coord.rocker = .hold then some (.refuse .busy)
      else if ¬(l.axis n).usable = true then some (.refuse .notHomed)
      else if 60000 < target ∨ l.range n < target then some (.badValue 1)
      else if (l.axis n).clampTarget target ≠ target ∧ (l.axis n).action ≠ .clamp then some (.refuse .outOfLimit)
      else none := by
  have capped : (decide (cap = 0) || within (l.axis n).vStart 8000 cap) = false ↔
      ¬(cap = 0 ∨ (l.axis n).vStart ≤ cap ∧ cap ≤ 8000) := by
    rw [Bool.or_eq_false_iff, decide_eq_false_iff_not, within_eq_false_iff]; omega
  have busy : (!l.held n) = false ↔ n = .zoom ∧ l.coord.rocker = .hold := by rw [Bool.not_eq_false', Lens.held_eq_true_iff]
  have homed : (l.axis n).usable = false ↔ ¬(l.axis n).usable = true := by simp
  have placed : (decide (target ≤ 60000) && decide (target ≤ l.range n)) = false ↔ 60000 < target ∨ l.range n < target := by
    rw [Bool.and_eq_false_iff, decide_le_eq_false_iff, decide_le_eq_false_iff]
  have limited : (decide ((l.axis n).clampTarget target = target) || decide ((l.axis n).action = .clamp)) = false ↔
      (l.axis n).clampTarget target ≠ target ∧ (l.axis n).action ≠ .clamp := by
    rw [Bool.or_eq_false_iff, decide_eq_false_iff_not, decide_eq_false_iff_not]
  rw [Lens.moveTests, moveOperands_eq, List.cons_append, List.cons_append, List.cons_append, List.nil_append,
    firstFailure_operandTest capped, firstFailure_operandTest decide_le_eq_false_iff, firstFailure_operandTest Iff.rfl,
    firstFailure_ownerTest busy, firstFailure_ownerTest homed, firstFailure_operandTest placed,
    firstFailure_ownerTest limited]
  rfl

/-- The operands of a MOVE that passes its tests up to operand 4. -/
theorem Lens.firstFailure_moveTests_operands {n : AxisName} {target cap condition argument : Nat} {l : Lens}
    (hcap : cap = 0 ∨ (l.axis n).vStart ≤ cap ∧ cap ≤ 8000) (hcond : StartGood n condition argument) :
    firstFailure (l.moveTests n target cap condition argument) =
      if n = .zoom ∧ l.coord.rocker = .hold then some (.refuse .busy)
      else if ¬(l.axis n).usable = true then some (.refuse .notHomed)
      else if 60000 < target ∨ l.range n < target then some (.badValue 1)
      else if (l.axis n).clampTarget target ≠ target ∧ (l.axis n).action ≠ .clamp then some (.refuse .outOfLimit)
      else none := by
  have hle : ¬2 < condition := by unfold StartGood at hcond; omega
  rw [Lens.firstFailure_moveTests, if_neg (not_not_intro hcap), if_neg hle,
    if_neg (mt (startTest_eq_false_iff (by omega) _).1 (not_not_intro hcond))]

theorem exec_move_refused {slot : CmdSlot} {sel : Byte} {n : AxisName} {target cap cond arg : Word} {s : State} {v : Verdict}
    (h : Ready slot s.part) (named : axisOf sel = some n)
    (hv : firstFailure (s.part.lens.moveTests n target.toNat cap.toNat cond.toNat arg.toNat) = some v) :
    exec (.move slot sel target cap cond arg) s = .next (s.onPart (Part.takenOnly slot 0x14 v)) :=
  State.offered_axis_refused h named (Lens.move_refused hv)

/-- Settles O32: each failure of the judgement (`Lens.firstFailure_moveTests`) is a take with no more than its refusal. -/
theorem movesAreJudgedInOrder : Obligations.MovesAreJudgedInOrder := by
  intro slot sel n target cap cond arg s h hsel ax condOk capOk homed held refused
  have named := axisOf_of_named hsel
  have good : condOk ↔ StartGood n cond.toNat arg.toNat := by rw [StartGood, axisNumber_of_named hsel]
  have usable : homed ↔ ax.usable = true := StepAxis.usable_iff.symm
  have judged := Lens.firstFailure_moveTests n target.toNat cap.toNat cond.toNat arg.toNat s.part.lens
  refine ⟨fun hcap => ?_, fun hcap hcond => ?_, fun hcap hcond hgood => ?_, fun hcap hgood => ?_, fun hcap hgood => ?_,
    fun hcap hgood => ?_, fun hcap hgood => ?_⟩
  · exact exec_move_refused h named (judged.trans (if_pos hcap))
  · rw [if_neg (not_not_intro hcap), if_pos hcond] at judged
    exact exec_move_refused h named judged
  · rw [if_neg (not_not_intro hcap), if_neg (Nat.not_lt.2 hcond), 
      if_pos ((startTest_eq_false_iff hcond arg.toNat).2 (mt good.2 hgood))] at judged
    exact exec_move_refused h named judged
  all_goals
    replace judged := Lens.firstFailure_moveTests_operands (target := target.toNat) hcap (good.1 hgood)
  · intro hheld
    exact exec_move_refused h named (judged.trans (if_pos hheld))
  · intro hheld hhomed
    rw [if_neg hheld, if_pos (mt usable.2 hhomed)] at judged
    exact exec_move_refused h named judged
  · intro hheld hhomed hplace
    rw [if_neg hheld, if_neg (not_not_intro (usable.1 hhomed)), if_pos hplace] at judged
    exact exec_move_refused h named judged
  · intro hheld hhomed hmax hrange haction hlimit
    have halts : ax.action ≠ .clamp := by rw [haction]; exact nofun
    rw [if_neg hheld, if_neg (not_not_intro (usable.1 hhomed)), if_neg (by omega), if_pos ⟨hlimit, halts⟩] at judged
    exact exec_move_refused h named judged

/-! ### The judgement of JOG (R90) -/

/-- A JOG that makes no motion: the axis stands on the limit ahead (R90). -/
def StepAxis.blocked (ax : StepAxis) (d : Dir) : Bool := ax.atLimit d && decide (ax.state ≠ .moving)

/-- The direction that operand 1 of JOG gives. -/
def jogDir (direction : Nat) : Dir := if direction = 1 then .up else .down

/-- The tests of JOG, in order (R90). -/
def Lens.jogTests (n : AxisName) (direction speed : Nat) (l : Lens) : List Check :=
  [operandTest 1 (decide (direction ≤ 1)),
   operandTest 2 (decide (speed = 0) || within (l.axis n).vStart 8000 speed),
   ownerTest (!l.held n) .busy,
   ownerTest (l.axis n).usable .notHomed,
   ownerTest (!(l.axis n).blocked (jogDir direction) || decide ((l.axis n).action = .clamp)) .outOfLimit]

theorem Lens.jog_refused {slot : CmdSlot} {n : AxisName} {direction speed : Nat} {l : Lens} {v : Verdict}
    (h : firstFailure (l.jogTests n direction speed) = some v) : l.jog slot n direction speed = l.refuse v := by
  unfold Lens.jogTests StepAxis.blocked jogDir at h
  unfold Lens.jog
  dsimp only
  rw [h]

end Sys2Proof.Machine

end

section
/-! PROOFS. MOVE and JOG carried out (05 sections 5.2, 5.4 and 5.5, 06 section 6.5): one rule per way in which an axis takes up a
motion, and the two commands assembled from them. -/

namespace Sys2Proof.Machine

/-! ### How an axis takes up a motion (R79, R81, R87, R90) -/

section

variable {ax : StepAxis} {d : Dir} {goal : Goal} {cap target : Nat}

theorem StepAxis.needsDwell_iff : ax.needsDwell d = true ↔ ax.dir ≠ none ∧ ax.dir ≠ some d ∧ 0 < ax.dwell := by
  unfold StepAxis.needsDwell
  cases ax.dir <;> simp

/-- Against the last step the motion first dwells (R79). -/
theorem StepAxis.startMotion_dwells (h : ax.dir ≠ none ∧ ax.dir ≠ some d ∧ 0 < ax.dwell) :
    ax.startMotion d goal cap = { ax with state := .dwell, goal := goal, ownCap := cap, motionDir := d } := by
  have needs : ({ ax with goal := goal, ownCap := cap, motionDir := d } : StepAxis).needsDwell d = true :=
    StepAxis.needsDwell_iff.2 h
  unfold StepAxis.startMotion
  exact if_pos needs

/-- Along it, or with no dwell set, the motion starts at once (R79). -/
theorem StepAxis.startMotion_starts (h : ax.dir = none ∨ ax.dir = some d ∨ ax.dwell = 0) :
    ax.startMotion d goal cap = ({ ax with goal := goal, ownCap := cap, motionDir := d } : StepAxis).startNow d := by
  have needless : ¬({ ax with goal := goal, ownCap := cap, motionDir := d } : StepAxis).needsDwell d = true := by
    rw [StepAxis.needsDwell_iff]
    rintro ⟨hsome, hother, hdwell⟩
    obtain hnone | hsame | hzero := h
    · exact hsome hnone
    · exact hother hsame
    · exact absurd hzero (Nat.pos_iff_ne_zero.1 hdwell)
  unfold StepAxis.startMotion
  exact if_neg needless

/-- The steps from the position to a target, counted in the motion direction. -/
def StepAxis.ahead (ax : StepAxis) (target : Nat) : Int :=
  match ax.motionDir with
  | .up => (target : Int) - ax.at0
  | .down => (ax.at0 : Int) - target

theorem StepAxis.goTo_starts (h : ax.state = .idle ∨ ax.state = .waiting) (ht : target ≠ ax.at0) :
    ax.goTo target cap = (ax.startMotion (toward ax.at0 target) (.moveTo target) cap, false) := by
  unfold StepAxis.goTo
  obtain h | h := h <;> (split <;> simp_all)

theorem StepAxis.goTo_stands (h : ax.state = .idle ∨ ax.state = .waiting) (ht : target = ax.at0) :
    ax.goTo target cap = (ax.rest .idle, true) := by
  unfold StepAxis.goTo
  obtain h | h := h <;> (split <;> simp_all)

theorem StepAxis.goTo_retargets (h : ax.state = .moving) (ha : (ax.k : Int) + 1 ≤ ax.ahead target) :
    ax.goTo target cap = ({ ax with goal := .moveTo target, ownCap := cap }, false) := by
  unfold StepAxis.goTo
  split
  · exact if_pos ha
  · next hd => rw [h] at hd; cases hd
  · next hm _ => exact absurd h hm

theorem StepAxis.goTo_stopsFirst (h : ax.state = .moving) (ha : ax.ahead target < ax.k + 1) :
    ax.goTo target cap = (ax.decelerate (.goTo target cap), false) := by
  unfold StepAxis.goTo
  split
  · exact if_neg (Int.not_le.2 ha)
  · next hd => rw [h] at hd; cases hd
  · next hm _ => exact absurd h hm

theorem StepAxis.jogTo_starts (h : ax.state = .idle) : ax.jogTo d cap = ax.startMotion d .jog cap := by
  unfold StepAxis.jogTo
  split
  · next hm => rw [h] at hm; cases hm
  · next hd => rw [h] at hd; cases hd
  · rfl

theorem StepAxis.jogTo_continues (h : ax.state = .moving) (hd : ax.motionDir = d) :
    ax.jogTo d cap = { ax with goal := .jog, ownCap := cap } := by
  unfold StepAxis.jogTo
  split
  · exact if_pos hd
  · next hd => rw [h] at hd; cases hd
  · next hm _ => exact absurd h hm

theorem StepAxis.jogTo_turns (h : ax.state = .moving) (hd : ax.motionDir ≠ d) :
    ax.jogTo d cap = ax.decelerate (.jogOn d cap) := by
  unfold StepAxis.jogTo
  split
  · exact if_neg hd
  · next hd => rw [h] at hd; cases hd
  · next hm _ => exact absurd h hm

end

/-! ### The lens side at work on a move -/

section

variable {onIdle : OnIdle} {n : AxisName} {target cap : Nat} {holder : Holder} {j : LensWork} {a : StepAxis}

/-- A move that begins is held from then on (R87). -/
theorem Job.goTo_begins (h : (j.st.axis n).goTo target cap = (a, false)) :
    j.goTo onIdle n target cap holder = (j.putAxis n { a with holder := some holder }, false) := by
  unfold Job.goTo
  rw [h]
  rfl

/-- A move that stands at its target arrives at once, with its factor (R87, R89). -/
theorem Job.goTo_arrives (h : (j.st.axis n).goTo target cap = (a, true)) :
    j.goTo onIdle n target cap holder =
      ((onIdle n (j.putAxis n { a with holder := none })).emit (.raise (arrivalFactor n)), true) := by
  unfold Job.goTo
  rw [h]
  rfl

end

/-- The lens side once a host motion has its axis: tracking is suspended where that axis is focus (R105). -/
def Lens.taken (n : AxisName) (a : StepAxis) (l : Lens) : Lens :=
  { l.setAxis n a with coord := { l.coord with
    suspended := l.coord.suspended || (decide (n = .focus) && l.coord.tracking) } }

@[simp] theorem Lens.axis_taken (n : AxisName) (a : StepAxis) (l : Lens) : (l.taken n a).axis n = a := by cases n <;> rfl

@[simp] theorem Lens.axis_taken_other (n : AxisName) (a : StepAxis) (l : Lens) :
    (l.taken n a).axis (otherAxis n) = l.axis (otherAxis n) := by cases n <;> rfl

@[simp] theorem Lens.setAxis_taken (n : AxisName) (a b : StepAxis) (l : Lens) :
    (l.taken n a).setAxis n b = l.taken n b := by cases n <;> rfl

theorem Job.suspend_eq (n : AxisName) (a : StepAxis) (l : Lens) (outs : List Out) :
    Job.suspend n ⟨l.setAxis n a, outs⟩ = ⟨l.taken n a, outs⟩ := by
  cases n with
  | zoom => simp [Job.suspend, Lens.taken, Lens.setAxis]
  | focus => rfl

/-! ### MOVE (R86 to R88) -/

/-- An axis whose commands have ended. -/
def StepAxis.free (ax : StepAxis) : StepAxis := { ax with holder := none, pendingMove := none }

/-- The lens side of an accepted MOVE before its axis acts: the limit noted, the former commands ended, tracking suspended. -/
def Lens.moveBegun (n : AxisName) (target : Nat) (l : Lens) : LensWork :=
  ⟨l.taken n (l.axis n).free,
    (if (l.axis n).clampTarget target = target then [] else [.raise .limitReached]) ++ (l.axis n).ended .superseded⟩

theorem Job.endMotions_suspend (n : AxisName) (l : Lens) (outs : List Out) :
    (Job.endMotions n .superseded ⟨l, outs⟩).suspend n =
      ⟨l.taken n (l.axis n).free, outs ++ (l.axis n).ended .superseded⟩ := by
  rw [Job.endMotions_eq]
  exact Job.suspend_eq ..

section

variable {slot : CmdSlot} {n : AxisName} {target cap condition argument : Nat} {l : Lens} {a : StepAxis}

theorem Lens.move_now (h : firstFailure (l.moveTests n target cap 0 argument) = none) :
    l.move slot n target cap 0 argument =
      (((l.moveBegun n target).goTo Job.idleEntry n ((l.axis n).clampTarget target) cap (.host slot)).1,
        if ((l.moveBegun n target).goTo Job.idleEntry n ((l.axis n).clampTarget target) cap (.host slot)).2
        then .done else .pending) := by
  have begun : Job.suspend n (Job.endMotions n .superseded
      (if (l.axis n).clampTarget target = target then Job.start l else (Job.start l).emit (.raise .limitReached))) =
      l.moveBegun n target := by
    unfold Lens.moveBegun
    split <;> exact Job.endMotions_suspend ..
  unfold Lens.moveTests at h
  unfold Lens.move
  dsimp only
  rw [h, ← begun]
  rfl

/-- A MOVE that starts or changes the motion is in progress (R87). -/
theorem Lens.move_begins (h : firstFailure (l.moveTests n target cap 0 argument) = none)
    (hgo : (l.axis n).free.goTo ((l.axis n).clampTarget target) cap = (a, false)) :
    l.move slot n target cap 0 argument =
      (⟨l.taken n { a with holder := some (.host slot) }, (l.moveBegun n target).out⟩, .pending) := by
  have go : ((l.moveBegun n target).st.axis n).goTo ((l.axis n).clampTarget target) cap = (a, false) := by
    rw [Lens.moveBegun, Lens.axis_taken, hgo]
  rw [Lens.move_now h, Job.goTo_begins go]
  simp [Job.putAxis, Job.change, Lens.moveBegun]

/-- A MOVE that stands at its target is DONE at once where no move waits on its axis and tracking does not resume (R87, R89). -/
theorem Lens.move_arrives (h : firstFailure (l.moveTests n target cap 0 argument) = none)
    (hgo : (l.axis n).free.goTo ((l.axis n).clampTarget target) cap = (a, true))
    (hother : (l.axis (otherAxis n)).pendingMove = none)
    (hfocus : n = .focus → l.coord.tracking = false ∧ l.coord.suspended = false) :
    l.move slot n target cap 0 argument =
      (⟨l.taken n { a with holder := none }, (l.moveBegun n target).out ++ [.raise (arrivalFactor n)]⟩, .done) := by
  have go : ((l.moveBegun n target).st.axis n).goTo ((l.axis n).clampTarget target) cap = (a, true) := by
    rw [Lens.moveBegun, Lens.axis_taken, hgo]
  have entered : Job.idleEntry n ((l.moveBegun n target).putAxis n { a with holder := none }) =
      (l.moveBegun n target).putAxis n { a with holder := none } := by
    refine Job.idleEntry_none ?_ fun hn => ?_
    · rw [Job.putAxis_st, Lens.axis_setAxis_other, Lens.moveBegun, Lens.axis_taken_other, hother]
    · rw [Job.putAxis_st, Lens.setAxis_coord]
      simp [Lens.moveBegun, Lens.taken, hfocus hn]
  rw [Lens.move_now h, Job.goTo_arrives go, entered]
  simp [Job.putAxis, Job.change, Job.emit, Lens.moveBegun]

/-- A MOVE with a start condition waits (R88). -/
theorem Lens.move_waits {c : StartCond} (h : firstFailure (l.moveTests n target cap condition argument) = none)
    (hnow : condition ≠ 0) (hcond : startCondOf condition argument = some c) :
    l.move slot n target cap condition argument =
      (⟨l.taken n { (l.axis n).free.await with pendingMove := some ⟨(l.axis n).clampTarget target, cap, c, slot⟩ },
        (l.moveBegun n target).out⟩, .pending) := by
  have begun : Job.suspend n (Job.endMotions n .superseded
      (if (l.axis n).clampTarget target = target then Job.start l else (Job.start l).emit (.raise .limitReached))) =
      l.moveBegun n target := by
    unfold Lens.moveBegun
    split <;> exact Job.endMotions_suspend ..
  unfold Lens.moveTests at h
  unfold Lens.move
  dsimp only
  rw [h, begun, if_neg hnow, hcond]
  simp [Job.putAxis, Job.change, Lens.moveBegun]

end

theorem StepAxis.await_idle {ax : StepAxis} (h : ax.state = .idle) : ax.await = ax.rest .waiting := by
  unfold StepAxis.await
  split
  · next hm => rw [h] at hm; cases hm
  · rfl

/-- Settles O33: an accepted MOVE (`Lens.move_begins`, `Lens.move_arrives`, `Lens.move_waits`) by the state of its axis. -/
theorem movesStartOrWait : Obligations.MovesStartOrWait := by
  intro slot sel n target cap cond arg s h hsel ax t hlimit hmax hrange hcap hheld pos held done d
  have named := axisOf_of_named hsel
  have passed {c : Nat} (hc : StartGood n c arg.toNat) (hu : ax.usable = true) :
      firstFailure (s.part.lens.moveTests n target.toNat cap.toNat c arg.toNat) = none := by
    have inside : ¬(ax.clampTarget target.toNat ≠ target.toNat ∧ ax.action ≠ .clamp) := by
      rintro ⟨hout, hhalt⟩
      exact hlimit.elim hout hhalt
    rw [Lens.firstFailure_moveTests_operands hcap hc, if_neg hheld, if_neg (not_not_intro hu), if_neg (by omega), if_neg inside]
  have now {v : Verdict} {more : List Out} {a : StepAxis} (hc : cond.toNat = 0)
      (hm : s.part.lens.move slot n target.toNat cap.toNat 0 arg.toNat =
        (⟨s.part.lens.taken n a, (s.part.lens.moveBegun n target.toNat).out ++ more⟩, v)) :
      exec (.move slot sel target cap cond arg) s = done v more a := by
    have out : (s.part.lens.moveBegun n target.toNat).out =
        (if t = target.toNat then [] else [.raise .limitReached]) ++ ax.ended .superseded := rfl
    rw [← hc, out] at hm
    refine (State.offered_axis h named hm).trans (congrArg _ (State.onPart_congr ?_))
    dsimp only
    rfl
  have begins {a : StepAxis} (hc : cond.toNat = 0) (hu : ax.usable = true) (hgo : ax.free.goTo t cap.toNat = (a, false)) :
      exec (.move slot sel target cap cond arg) s = done .pending [] { a with holder := some (.host slot) } :=
    now hc ((Lens.move_begins (passed (.inl rfl) hu) hgo).trans (by rw [List.append_nil]))
  refine ⟨fun hc hstate => ⟨fun hne => ⟨fun hdwell => ?_, fun hstart => ?_⟩, fun heq hother hfocus => ?_⟩,
    fun hc hstate => ⟨fun hahead => ?_, fun hahead hgoal => ?_⟩, fun hc harg hstate => ?_⟩
  · have usable : ax.usable = true := StepAxis.usable_iff.2 (hstate.imp_right .inl)
    exact begins hc usable ((StepAxis.goTo_starts (ax := ax.free) hstate hne).trans
      (congrArg (·, false) (StepAxis.startMotion_dwells (ax := ax.free) hdwell)))
  · have usable : ax.usable = true := StepAxis.usable_iff.2 (hstate.imp_right .inl)
    exact begins hc usable ((StepAxis.goTo_starts (ax := ax.free) hstate hne).trans
      (congrArg (·, false) (StepAxis.startMotion_starts (ax := ax.free) hstart)))
  · have usable : ax.usable = true := StepAxis.usable_iff.2 (hstate.imp_right .inl)
    have arrived := Lens.move_arrives (slot := slot) (passed (.inl rfl) usable)
      (StepAxis.goTo_stands (ax := ax.free) (cap := cap.toNat) hstate heq) hother hfocus
    refine (now hc arrived).trans ?_
    cases n <;> rfl
  · exact begins hc (StepAxis.usable_iff.2 (.inr (.inr (.inl hstate))))
      (StepAxis.goTo_retargets (ax := ax.free) hstate hahead)
  · exact begins hc (StepAxis.usable_iff.2 (.inr (.inr (.inl hstate))))
      ((StepAxis.goTo_stopsFirst (ax := ax.free) hstate hahead).trans
        (congrArg (·, false) (StepAxis.decelerate_begins (ax := ax.free) hgoal _)))
  · have good : StartGood n cond.toNat arg.toNat := .inr (.inr ⟨hc, by omega⟩)
    have frame : startCondOf cond.toNat arg.toNat = some (.onMark .frame) := by rw [hc, harg]; rfl
    have waits := Lens.move_waits (slot := slot) (passed good (StepAxis.usable_iff.2 (.inl hstate))) (by omega) frame
    rw [StepAxis.await_idle (ax := ax.free) hstate] at waits
    refine (State.offered_axis h named waits).trans (congrArg _ (State.onPart_congr ?_))
    rw [List.append_nil]
    rfl

/-! ### JOG (R90) -/

/-- The order in which a JOG is judged (R90). -/
theorem Lens.firstFailure_jogTests (n : AxisName) (direction speed : Nat) (l : Lens) :
    firstFailure (l.jogTests n direction speed) =
      if 1 < direction then some (.badValue 1)
      else if ¬(speed = 0 ∨ (l.axis n).vStart ≤ speed ∧ speed ≤ 8000) then some (.badValue 2)
      else if n = .zoom ∧ l.coord.rocker = .hold then some (.refuse .busy)
      else if ¬(l.axis n).usable = true then some (.refuse .notHomed)
      else if (l.axis n).blocked (jogDir direction) = true ∧ (l.axis n).action ≠ .clamp then some (.refuse .outOfLimit)
      else none := by
  have fast : (decide (speed = 0) || within (l.axis n).vStart 8000 speed) = false ↔
      ¬(speed = 0 ∨ (l.axis n).vStart ≤ speed ∧ speed ≤ 8000) := by
    rw [Bool.or_eq_false_iff, decide_eq_false_iff_not, within_eq_false_iff]; omega
  have busy : (!l.held n) = false ↔ n = .zoom ∧ l.coord.rocker = .hold := by rw [Bool.not_eq_false', Lens.held_eq_true_iff]
  have homed : (l.axis n).usable = false ↔ ¬(l.axis n).usable = true := by simp
  have limited : (!(l.axis n).blocked (jogDir direction) || decide ((l.axis n).action = .clamp)) = false ↔
      (l.axis n).blocked (jogDir direction) = true ∧ (l.axis n).action ≠ .clamp := by
    rw [Bool.or_eq_false_iff, decide_eq_false_iff_not, Bool.not_eq_false']
  unfold Lens.jogTests
  rw [firstFailure_operandTest decide_le_eq_false_iff, firstFailure_operandTest fast, firstFailure_ownerTest busy,
    firstFailure_ownerTest homed, firstFailure_ownerTest limited]
  rfl

section

variable {slot : CmdSlot} {n : AxisName} {direction speed : Nat} {l : Lens}

/-- A JOG that stands on the limit ahead is DONE with LIMIT_REACHED (R90). -/
theorem Lens.jog_blocked (h : firstFailure (l.jogTests n direction speed) = none)
    (hb : (l.axis n).blocked (jogDir direction) = true) :
    l.jog slot n direction speed = (⟨l, [.raise .limitReached]⟩, .done) := by
  unfold Lens.jogTests StepAxis.blocked jogDir at h
  unfold StepAxis.blocked jogDir at hb
  unfold Lens.jog
  dsimp only
  rw [h, hb]
  rfl

/-- Any other runs toward it (R90). -/
theorem Lens.jog_runs (h : firstFailure (l.jogTests n direction speed) = none)
    (hb : (l.axis n).blocked (jogDir direction) = false) :
    l.jog slot n direction speed =
      (⟨l.taken n { (l.axis n).free.jogTo (jogDir direction) speed with holder := some (.host slot) },
        (l.axis n).ended .superseded⟩, .pending) := by
  unfold Lens.jogTests StepAxis.blocked jogDir at h
  unfold StepAxis.blocked jogDir at hb
  unfold Lens.jog
  dsimp only
  rw [h, hb]
  dsimp only
  rw [if_neg Bool.false_ne_true, Job.start, Job.endMotions_suspend]
  simp [Job.putAxis, Job.change, jogDir]

end

theorem StepAxis.blocked_iff {ax : StepAxis} {d : Dir} :
    ax.blocked d = true ↔ ax.state ≠ .moving ∧ ((d = .up ∧ ax.high ≤ ax.at0) ∨ (d = .down ∧ ax.at0 ≤ ax.low)) := by
  cases d <;> simp [StepAxis.blocked, StepAxis.atLimit, and_comm]

/-- Settles O34: a JOG is stopped by the limit it stands on, or runs (`Lens.jog_runs`) by the state of its axis. -/
theorem jogsRunTowardTheLimit : Obligations.JogsRunTowardTheLimit := by
  intro slot sel n direction speed s h hsel ax hheld hspeed pos d hdir onLimit held done
  have named := axisOf_of_named hsel
  have way : jogDir direction.toNat = d := by
    obtain ⟨hd, rfl⟩ | ⟨hd, rfl⟩ := hdir <;> rw [hd] <;> rfl
  have judged (hu : ax.usable = true) : firstFailure (s.part.lens.jogTests n direction.toNat speed.toNat) =
      if ax.blocked d = true ∧ ax.action ≠ .clamp then some (.refuse .outOfLimit) else none := by
    rw [Lens.firstFailure_jogTests, if_neg (by omega), if_neg (not_not_intro hspeed), if_neg hheld,
      if_neg (not_not_intro hu), way]
  have runs {a : StepAxis} (hu : ax.usable = true) (hfree : ¬ax.blocked d = true)
      (hjog : ax.free.jogTo d speed.toNat = a) :
      exec (.jog slot sel direction speed) s = done { a with holder := some (.host slot) } := by
    have passed := (judged hu).trans (if_neg fun both => hfree both.1)
    have ran := Lens.jog_runs (slot := slot) passed (by rw [way]; exact Bool.eq_false_iff.2 hfree)
    rw [way, show (s.part.lens.axis n).free.jogTo d speed.toNat = a from hjog] at ran
    exact (State.offered_axis h named ran).trans (congrArg _ (State.onPart_congr rfl))
  have notBlocked (hm : ax.state = .moving) : ¬ax.blocked d = true := fun hb => (StepAxis.blocked_iff.1 hb).1 hm
  refine ⟨fun hidle hon => ?_, fun hidle hoff => ?_, fun hm hd => ?_, fun hm hd hgoal => ?_⟩
  · have usable : ax.usable = true := StepAxis.usable_iff.2 (.inl hidle)
    have blocked : ax.blocked d = true := StepAxis.blocked_iff.2 ⟨by rw [hidle]; exact nofun, hon⟩
    by_cases halt : ax.action = .halt
    · have refused := (judged usable).trans (if_pos ⟨blocked, by rw [halt]; exact nofun⟩)
      rw [if_pos halt]
      exact State.offered_axis_refused h named (Lens.jog_refused refused)
    · have clamp : ax.action = .clamp := by
        cases ha : ax.action with
        | clamp => rfl
        | halt => exact absurd ha halt
      have passed := (judged usable).trans (if_neg fun both => both.2 clamp)
      rw [if_neg halt]
      exact (State.offered_axis h named (Lens.jog_blocked passed (by rw [way]; exact blocked))).trans
        (congrArg _ (State.onPart_congr rfl))
  · have usable : ax.usable = true := StepAxis.usable_iff.2 (.inl hidle)
    have free : ¬ax.blocked d = true := fun hb => hoff (StepAxis.blocked_iff.1 hb).2
    exact ⟨fun hdwell => runs usable free ((StepAxis.jogTo_starts (ax := ax.free) hidle).trans
        (StepAxis.startMotion_dwells (ax := ax.free) hdwell)),
      fun hstart => runs usable free ((StepAxis.jogTo_starts (ax := ax.free) hidle).trans
        (StepAxis.startMotion_starts (ax := ax.free) hstart))⟩
  · exact runs (StepAxis.usable_iff.2 (.inr (.inr (.inl hm)))) (notBlocked hm)
      (StepAxis.jogTo_continues (ax := ax.free) hm hd)
  · exact runs (StepAxis.usable_iff.2 (.inr (.inr (.inl hm)))) (notBlocked hm)
      ((StepAxis.jogTo_turns (ax := ax.free) hm hd).trans (StepAxis.decelerate_begins (ax := ax.free) hgoal _))

end Sys2Proof.Machine

end

section
/-! PROOFS. FOCUS_TRACK (06 sections 6.3 and 6.4): its judgement, and the request of the curve's focus position. -/

namespace Sys2Proof.Machine

/-! ### An axis that moves or dwells for a request (R89, R104) -/

section

variable {ax : StepAxis} {target cap g : Nat}

theorem StepAxis.goTo_dwellsOn (h : ax.state = .dwell) (ht : target ≠ ax.at0) (hw : toward ax.at0 target = ax.motionDir) :
    ax.goTo target cap = ({ ax with goal := .moveTo target, ownCap := cap }, false) := by
  unfold StepAxis.goTo
  split
  · next hm => rw [h] at hm; cases hm
  · rw [if_neg ht, if_pos hw]
  · next hd => exact absurd h hd

/-- A stop by deceleration under way keeps its point (R81). -/
theorem StepAxis.decelerate_keeps {p : Int} {x : AfterStop} (h : ax.goal = .stopAt p x) (next : AfterStop) :
    ax.decelerate next = { ax with goal := .stopAt p next } := by
  unfold StepAxis.decelerate
  rw [h]

theorem StepAxis.free_of_noMove (h : ax.pendingMove = none) : ax.free = { ax with holder := none } := by
  unfold StepAxis.free
  rw [← h]

/-- The target of a request under way (R104). -/
theorem StepAxis.requestTarget_of_request (h : ax.holder = some .request)
    (hg : ax.goal = .moveTo g ∨ ∃ p c, ax.goal = .stopAt p (.goTo g c)) : ax.requestTarget = g := by
  unfold StepAxis.requestTarget
  rw [if_pos h]
  obtain hg | ⟨p, c, hg⟩ := hg <;> rw [hg]

theorem StepAxis.requestTarget_of_free (h : ax.holder = none) : ax.requestTarget = ax.at0 := by
  unfold StepAxis.requestTarget
  rw [if_neg (by rw [h]; exact nofun)]

theorem StepAxis.ended_nil {code : OutcomeCode} (h : ax.holder = none ∨ ax.holder = some .request) (hp : ax.pendingMove = none) :
    ax.ended code = [] := by
  unfold StepAxis.ended
  obtain h | h := h <;> rw [h, hp] <;> rfl

end

/-! ### The retarget (R104) -/

section

variable {onIdle : OnIdle} {j : LensWork} {t : LensTable} {z : Nat}

theorem Job.retarget_of_noZoom (h : j.st.zoom.pos = none) : j.retarget onIdle = j := by
  unfold Job.retarget
  rw [h]

theorem Job.retarget_of_zoom (h : j.st.zoom.pos = some z) : j.retarget onIdle = j.retargetAt onIdle z := by
  unfold Job.retarget
  rw [h]

/-- The focus position of the curve within the soft limits of the focus (R104). -/
def Lens.focusGoal (t : LensTable) (z : Nat) (l : Lens) : Nat :=
  max l.focus.low (min l.focus.high (t.focusFor z l.coord.distance))

/-- Focus follows the zoom: tracking on and not suspended, and the axis able to move. -/
def Lens.follows (l : Lens) : Bool := l.coord.tracking && !l.coord.suspended && l.focus.usable

theorem Job.retargetAt_same (ht : j.st.coord.table = some t) (hg : j.st.focusGoal t z = j.st.focus.requestTarget) :
    j.retargetAt onIdle z = j := by
  unfold Lens.focusGoal at hg
  unfold Job.retargetAt
  simp only [ht]
  rw [if_pos hg, ite_self]

theorem Job.retargetAt_asks {a : StepAxis} (ht : j.st.coord.table = some t) (hon : j.st.follows = true)
    (hg : j.st.focusGoal t z ≠ j.st.focus.requestTarget) (hquiet : j.st.focus.ended .aborted = [])
    (hgo : j.st.focus.free.goTo (j.st.focusGoal t z) 0 = (a, false)) :
    j.retargetAt onIdle z =
      ⟨{ j.st with focus := { a with holder := some .request } },
        j.out ++ if j.st.focusGoal t z = t.focusFor z j.st.coord.distance then [] else [.raise .limitReached]⟩ := by
  have ended : j.endMotions .focus .aborted = ⟨{ j.st with focus := j.st.focus.free }, j.out⟩ := by
    rw [Job.endMotions_eq]
    exact congrArg (Job.mk _) ((congrArg (j.out ++ ·) hquiet).trans (List.append_nil _))
  unfold Lens.follows at hon
  unfold Lens.focusGoal at hg hgo ⊢
  unfold Job.retargetAt
  simp only [ht]
  rw [if_pos hon, if_neg hg, ended]
  split
  · rw [Job.goTo_begins (a := a) hgo, List.append_nil]
    rfl
  · rw [Job.goTo_begins (a := a) hgo]
    rfl

end

/-! ### The judgement of FOCUS_TRACK (R103) -/

/-- The tests of FOCUS_TRACK, in order (R103). -/
def Lens.focusTests (enable distance : Nat) (l : Lens) : List Check :=
  [operandTest 1 (decide (enable ≤ 1)), operandTest 2 (decide (distance ≤ 256)),
   ownerTest l.coord.table.isSome .noLensTable, ownerTest (!(l.focus.hostSlot.isSome || l.focus.pendingMove.isSome)) .busy]

theorem StepAxis.hostSlot_isSome {ax : StepAxis} : ax.hostSlot.isSome = true ↔ ∃ h, ax.holder = some (.host h) := by
  unfold StepAxis.hostSlot
  split
  · next h hs => simp [hs]
  · next h => simpa using h

theorem Lens.firstFailure_focusTests (enable distance : Nat) (l : Lens) :
    firstFailure (l.focusTests enable distance) =
      if 1 < enable then some (.badValue 1)
      else if 256 < distance then some (.badValue 2)
      else if l.coord.table = none then some (.refuse .noLensTable)
      else if l.focus.hostSlot.isSome = true ∨ l.focus.pendingMove ≠ none then some (.refuse .busy)
      else none := by
  have noTable : l.coord.table.isSome = false ↔ l.coord.table = none := by simp
  have busy : (!(l.focus.hostSlot.isSome || l.focus.pendingMove.isSome)) = false ↔
      l.focus.hostSlot.isSome = true ∨ l.focus.pendingMove ≠ none := by
    rw [Bool.not_eq_false', Bool.or_eq_true, Option.isSome_iff_ne_none (o := l.focus.pendingMove)]
  unfold Lens.focusTests
  rw [firstFailure_operandTest decide_le_eq_false_iff, firstFailure_operandTest decide_le_eq_false_iff,
    firstFailure_ownerTest noTable, firstFailure_ownerTest busy]
  rfl

theorem Lens.focusTrack_refused {enable distance : Nat} {l : Lens} {v : Verdict}
    (h : firstFailure (l.focusTests enable distance) = some v) : l.focusTrack enable distance = l.refuse v := by
  unfold Lens.focusTests at h
  unfold Lens.focusTrack
  dsimp only
  rw [h]

/-- Tracking and the subject distance as an accepted FOCUS_TRACK sets them. -/
def Lens.tracked (enable distance : Nat) (l : Lens) : Lens :=
  { l with coord := { l.coord with
    tracking := decide (enable = 1)
    distance := if distance = 256 then l.coord.distance else distance } }

theorem Lens.focusTrack_accepted {enable distance : Nat} {l : Lens} (h : firstFailure (l.focusTests enable distance) = none) :
    l.focusTrack enable distance =
      (if enable = 1 then (Job.start (l.tracked enable distance)).retarget Job.idleEntry
        else Job.start (l.tracked enable distance), .done) := by
  unfold Lens.focusTests at h
  unfold Lens.focusTrack
  dsimp only
  rw [h]
  rfl

/-- Settles O36: the tests in order; then the request of the curve's focus position by the state of the focus. -/
theorem focusTrackSetsTheDistance : Obligations.FocusTrackSetsTheDistance := by
  intro slot enable distance s h htable fo d
  have judged := Lens.firstFailure_focusTests enable.toNat distance.toNat s.part.lens
  have refused {v : Verdict} (hv : firstFailure (s.part.lens.focusTests enable.toNat distance.toNat) = some v) :
      exec (.focusTrack slot enable distance) s = .next (s.onPart (Part.takenOnly slot 0x17 v)) :=
    State.offered_lens_refused h (Lens.focusTrack_refused hv)
  have legal (he : enable.toNat ≤ 1) (hd : distance.toNat ≤ 256) :
      firstFailure (s.part.lens.focusTests enable.toNat distance.toNat) =
        if fo.hostSlot.isSome = true ∨ fo.pendingMove ≠ none then some (.refuse .busy) else none := by
    rw [judged, if_neg (by omega), if_neg (by omega), if_neg htable]
  have accepted {j : LensWork} (hpass : firstFailure (s.part.lens.focusTests enable.toNat distance.toNat) = none)
      (hj : (if enable.toNat = 1 then (Job.start (s.part.lens.tracked enable.toNat distance.toNat)).retarget Job.idleEntry
        else Job.start (s.part.lens.tracked enable.toNat distance.toNat)) = j) :
      exec (.focusTrack slot enable distance) s =
        .next (s.onPart fun p => { p.afterTake slot 0x17 j.out .done with lens := j.st }) :=
    State.offered_lens h ((Lens.focusTrack_accepted hpass).trans (congrArg (·, Verdict.done) hj))
  refine ⟨fun he => refused (judged.trans (if_pos he)), fun he hd => ?_, fun he hd hbusy => ?_, fun he hd hfree hmove hoff => ?_, ?_⟩
  · rw [if_neg (by omega), if_pos hd] at judged
    exact refused judged
  · exact refused ((legal he hd).trans (if_pos (hbusy.imp_left StepAxis.hostSlot_isSome.2)))
  · have passed := (legal he hd).trans (if_neg (not_or.2
      ⟨fun hs => (StepAxis.hostSlot_isSome.1 hs).elim hfree, not_not_intro hmove⟩))
    refine (accepted passed (j := .start (s.part.lens.tracked enable.toNat distance.toNat)) ?_).trans
      (congrArg _ (State.onPart_congr rfl))
    obtain hzero | hnone := hoff
    · exact if_neg (by omega)
    · rw [Job.retarget_of_noZoom (by exact hnone), ite_self]
  intro t z ht hz hsusp hon hd hmove pos f g way requested limit held
  have start : (Job.start (s.part.lens.tracked enable.toNat distance.toNat)).retarget Job.idleEntry =
      (Job.start (s.part.lens.tracked enable.toNat distance.toNat)).retargetAt Job.idleEntry z := Job.retarget_of_zoom hz
  have passed (hfree : fo.holder = none ∨ fo.holder = some .request) :
      firstFailure (s.part.lens.focusTests enable.toNat distance.toNat) = none := by
    refine (legal (by omega) hd).trans (if_neg (not_or.2 ⟨fun hs => ?_, not_not_intro hmove⟩))
    obtain ⟨k, hk⟩ := StepAxis.hostSlot_isSome.1 hs
    obtain hfree | hfree := hfree <;> rw [hfree] at hk <;> cases hk
  have same (hfree : fo.holder = none ∨ fo.holder = some .request) (hg : g = fo.requestTarget) : requested [] fo := by
    refine (accepted (passed hfree) (j := .start (s.part.lens.tracked enable.toNat distance.toNat)) ?_).trans
      (congrArg _ (State.onPart_congr ?_))
    · rw [if_pos hon, start]
      exact Job.retargetAt_same ht hg
    · simp only [Lens.tracked, Job.start, hon]
      rfl
  have asks {a b : StepAxis} (hfree : fo.holder = none ∨ fo.holder = some .request) (hu : fo.usable = true)
      (hg : g ≠ fo.requestTarget) (hgo : fo.free.goTo g 0 = (a, false)) (hb : { a with holder := some .request } = b) :
      requested limit b := by
    refine (accepted (passed hfree) ((if_pos hon).trans (start.trans
      (Job.retargetAt_asks ht ?_ hg (StepAxis.ended_nil hfree hmove) hgo)))).trans (congrArg _ (State.onPart_congr ?_))
    · simp [Lens.follows, Lens.tracked, hon, hsusp, show s.part.lens.focus.usable = true from hu]
    · rw [← hb]
      simp only [Lens.tracked, Job.start, hon, List.nil_append]
      rfl
  refine ⟨fun hidle hnone => ⟨fun heq => ?_, fun hne => ?_⟩, fun hstate hreq => ⟨fun hgoal => ?_, fun u hu => ?_⟩⟩
  · exact same (.inl hnone) (heq.trans (StepAxis.requestTarget_of_free hnone).symm)
  · have usable : fo.usable = true := StepAxis.usable_iff.2 (.inl hidle)
    have away : g ≠ fo.requestTarget := by rw [StepAxis.requestTarget_of_free hnone]; exact hne
    have starts := StepAxis.goTo_starts (ax := fo.free) (cap := 0) (.inl hidle) hne
    exact ⟨fun hdwell => asks (.inl hnone) usable away
        (starts.trans (congrArg (·, false) (StepAxis.startMotion_dwells (ax := fo.free) hdwell)))
        (by rw [StepAxis.free_of_noMove hmove]; rfl),
      fun hstart => asks (.inl hnone) usable away
        (starts.trans (congrArg (·, false) (StepAxis.startMotion_starts (ax := fo.free) hstart)))
        (by rw [StepAxis.free_of_noMove hmove]; rfl)⟩
  · exact same (.inr hreq) (StepAxis.requestTarget_of_request hreq hgoal).symm
  · intro ahead
    have usable : fo.usable = true := StepAxis.usable_iff.2 (.inr (.inr hstate))
    have renewed (goal : Goal) (cap : Nat) :
        ({ fo.free with goal := goal, ownCap := cap, holder := some .request } : StepAxis) =
          { fo with goal := goal, ownCap := cap } := by
      rw [StepAxis.free_of_noMove hmove, ← hreq]
    have stopping (goal : Goal) :
        ({ fo.free with goal := goal, holder := some .request } : StepAxis) = { fo with goal := goal } := by
      rw [StepAxis.free_of_noMove hmove, ← hreq]
    have away (hgoal : fo.goal = .moveTo u ∨ ∃ p c, fo.goal = .stopAt p (.goTo u c)) : g ≠ fo.requestTarget := by
      rw [StepAxis.requestTarget_of_request hreq hgoal]; exact hu.symm
    refine ⟨fun hgoal hdwell hne hway => ?_, fun hm hgoal hahead => ?_, fun hm hgoal hahead => ?_,
      fun p c hm hgoal hahead => ?_⟩
    · exact asks (.inr hreq) usable (away (.inl hgoal)) (StepAxis.goTo_dwellsOn (ax := fo.free) hdwell hne hway)
        (renewed _ _)
    · exact asks (.inr hreq) usable (away hgoal) (StepAxis.goTo_retargets (ax := fo.free) hm hahead) (renewed _ _)
    · have fresh : ∀ p x, fo.free.goal ≠ .stopAt p x := by
        intro p x hstop
        rw [show fo.free.goal = .moveTo u from hgoal] at hstop
        cases hstop
      exact asks (.inr hreq) usable (away (.inl hgoal)) ((StepAxis.goTo_stopsFirst (ax := fo.free) hm hahead).trans
        (congrArg (·, false) (StepAxis.decelerate_begins fresh _))) (stopping _)
    · exact asks (.inr hreq) usable (away (.inr ⟨p, c, hgoal⟩)) ((StepAxis.goTo_stopsFirst (ax := fo.free) hm hahead).trans
        (congrArg (·, false) (StepAxis.decelerate_keeps (ax := fo.free) hgoal _))) (stopping _)

end Sys2Proof.Machine

end

section
/-! PROOFS. The queue, resets, start-up and the link's transactions (00, 01 sections 1.1 to 1.6): what a reset gives, what the end
of the stall requests, when a transaction is held, which row takes a beat, and which rows cannot occur. -/

namespace Sys2Proof.Machine

/-- Settles O1: a step is the dispatch of the command at the queue's front. -/
theorem stepRunsTheFrontCommand : Obligations.StepRunsTheFrontCommand :=
  ⟨fun c rest _s => step_cons c rest _ rfl, fun s h => by unfold step; rw [h]⟩

/-! ### Resets (R3, R5, R18, R33, R36) -/

theorem LinkPort.refill_empty (w : List LinkTxn) :
    LinkPort.refill ⟨[], w, none, none⟩ = ⟨w.take 16, w.drop 16, none, none⟩ := by
  simp [LinkPort.refill]

theorem RegionMap.reset_atReset (pins : Pins) : (RegionMap.reset pins).AtReset pins.strap1 pins.strap0 :=
  ⟨by obtain ⟨strap1, strap0, -, -⟩ := pins; cases strap1 <;> cases strap0 <;> rfl, rfl, rfl, rfl, rfl, rfl, rfl, rfl, rfl, rfl, rfl, rfl, rfl⟩

theorem Bus.reset_atReset (cause : ResetCause) : (Bus.mk .reset (.reset cause) []).AtReset cause :=
  ⟨rfl, by show ∀ k : CmdSlot, CommandUnit.reset.slots[k].last = .noOutcome ∧ CommandUnit.reset.slots[k].uses = 0; decide,
    rfl, rfl, rfl, rfl, rfl, rfl, rfl⟩

theorem StepAxis.reset_atReset (sensor : Bool) : (StepAxis.reset sensor).AtReset := by
  unfold StepAxis.AtReset; simp [StepAxis.reset, Comparator.reset]

theorem Lens.reset_atReset (pins : Pins) : (Lens.reset pins).AtReset :=
  ⟨StepAxis.reset_atReset _, StepAxis.reset_atReset _, rfl, rfl, rfl, rfl, rfl, rfl, rfl, rfl, rfl, rfl, rfl, rfl⟩

theorem SlotManager.reset_atReset : (SlotManager.reset 4).AtReset := by unfold SlotManager.AtReset; decide

theorem Stabiliser.reset_atReset : Stabiliser.reset.AtReset := by unfold Stabiliser.AtReset; decide

theorem Recorder.reset_atReset : Recorder.reset.AtReset := by unfold Recorder.AtReset; decide

theorem Channel.reset_atReset (n : ChannelNo) : ((Vector.replicate 4 Channel.reset)[n]).AtReset := by
  unfold Channel.AtReset; revert n; decide

theorem Overlay.reset_host : ∀ row ∈ Overlay.reset.host, ∀ cell ∈ row, cell.glyph = 0 := by
  intro row hrow cell hcell
  rw [List.eq_of_mem_replicate hrow] at hcell
  rw [List.eq_of_mem_replicate hcell]
  rfl

/-- Settles O2: both resets put every block in its own reset state, and keep what the senders hold. -/
theorem resetsTakeTheResetValues : Obligations.ResetsTakeTheResetValues := by
  intro pins s row hrow
  have values (cause : ResetCause) (mem : Memory) : let t : State := { s with part := s.part.hardReset cause pins, mem := mem }
      t.part.phase = .stalled ∧ t.part.map.AtReset pins.strap1 pins.strap0 ∧ t.part.bus.AtReset cause ∧
      t.part.link.request = none ∧ t.part.link.held = s.part.link.waiting.take 16 ∧
      t.part.link.waiting = s.part.link.waiting.drop 16 ∧ t.part.lastGrant = .part ∧
      t.part.slots.AtReset ∧ t.part.stab.AtReset ∧ t.part.lens.AtReset ∧ t.part.recd.AtReset ∧
      (∀ n : ChannelNo, t.part.audio[n].AtReset) ∧
      t.part.overlay.columns = 48 ∧ t.part.overlay.rows = 27 ∧ t.part.overlay.zebra = false ∧ t.part.overlay.level = 235 ∧
      t.part.overlay.palette = #v[⟨235, 128, 128⟩, ⟨81, 90, 240⟩, ⟨210, 16, 146⟩, ⟨145, 54, 34⟩] ∧
      (∀ row ∈ t.part.overlay.host, ∀ cell ∈ row, cell.glyph = 0) ∧ (∀ i : Fin 9, t.part.overlay.fields[i].enabled = false) := by
    unfold Part.hardReset
    rw [LinkPort.refill_empty]
    exact ⟨rfl, RegionMap.reset_atReset pins, Bus.reset_atReset cause, rfl, rfl, rfl, rfl, SlotManager.reset_atReset,
      Stabiliser.reset_atReset, Lens.reset_atReset pins, Recorder.reset_atReset, Channel.reset_atReset, rfl, rfl, rfl, rfl, rfl,
      Overlay.reset_host, by show ∀ i : Fin 9, Overlay.reset.fields[i].enabled = false; decide⟩
  obtain rfl | rfl : row = (.powerOn pins, .powerOn) ∨ row = (.pinReset pins, .pin) := by simpa using hrow
  · exact ⟨_, rfl, rfl, values .powerOn []⟩
  · exact ⟨_, rfl, rfl, values .pin s.mem⟩

/-! ### The end of the stall (R18, R33) -/

/-- Requests made one after the other join the class in their order (R15). -/
theorem Bus.foldl_request (rs : List PartReq) (b : Bus) :
    rs.foldl (fun b r => Bus.request r b) b = { b with partQ := b.partQ ++ rs } := by
  induction rs generalizing b with
  | nil => simp
  | cons r rs ih => rw [List.foldl_cons, ih]; simp [Bus.request]

theorem Bus.requestStatus_of_not_mem {b : Bus} (h : .status ∉ b.partQ) :
    b.requestStatus = { b with partQ := b.partQ ++ [.status] } := if_neg h

theorem Bus.requestFactor_of_not_mem {b : Bus} (h : .factor ∉ b.partQ) :
    b.requestFactor = { b with partQ := b.partQ ++ [.factor] } := if_neg h

/-- Settles O3: the zeroing runs by the conflict state, then the outcome words, then the two records. -/
theorem frameMemoryReadyRequestsTheStartUpWrites : Obligations.FrameMemoryReadyRequestsTheStartUpWrites := by
  intro s hphase hq runs hruns
  have zero : s.part.map.zeroRuns = runs ∧ ∀ r ∈ runs, ∃ a n, r = .zero a n := by
    obtain ⟨hc, rfl⟩ | ⟨hc, hcontrol, hpriv, rfl⟩ := hruns
    · simp [RegionMap.zeroRuns, hc]
    · simp [RegionMap.zeroRuns, hc, hcontrol, hpriv]
  have plain : ∀ r ∈ runs ++ allSlots.map PartReq.zeroOutcome, r ≠ .status ∧ r ≠ .factor := by
    intro r hr
    obtain hr | hr := List.mem_append.1 hr
    · obtain ⟨a, n, rfl⟩ := zero.2 r hr
      exact ⟨nofun, nofun⟩
    · obtain ⟨k, -, rfl⟩ := List.mem_map.1 hr
      exact ⟨nofun, nofun⟩
  have stepped : exec .frameMemoryReady s = .next (s.onPart Part.memoryReady) :=
    congrArg _ (if_pos hphase)
  refine stepped.trans (congrArg _ (State.onPart_congr ?_))
  unfold Part.memoryReady
  dsimp only
  rw [Bus.foldl_request, zero.1, hq, List.nil_append,
    Bus.requestStatus_of_not_mem fun hs => (plain _ hs).1 rfl,
    Bus.requestFactor_of_not_mem fun hf => ?_,
    List.append_assoc (runs ++ _)]
  · rfl
  · obtain hf | hf := List.mem_append.1 hf
    · exact (plain _ hf).2 rfl
    · simp at hf

/-! ### Transactions (R1) -/

/-- Settles O6: a transaction of 1 to 8 beats is held where there is room, and waits otherwise. -/
theorem transactionsAreHeldUpToSixteen : Obligations.TransactionsAreHeldUpToSixteen := by
  intro addr op s hwait hmax
  refine ⟨fun hlo hhi => ⟨.arriving addr.toNat op, ?_, rfl, rfl, rfl, rfl, rfl, ?_, ?_, ?_⟩, fun hbad => ?_⟩
  · simp only [LinkTxn.arriving]; omega
  · rintro n rfl; exact ⟨rfl, rfl⟩
  · rintro bs rfl; exact ⟨rfl, rfl⟩
  · have wf : op.wf = true := by simp [LinkOp.wf, hlo, hhi]
    refine (if_pos wf).trans (congrArg _ (State.onPart_congr ?_))
    unfold LinkPort.arrive LinkPort.refill
    by_cases hroom : s.part.link.held.length < 16
    · have none : s.part.link.waiting = [] := hwait.resolve_right (by omega)
      have room : 16 - s.part.link.held.length = 16 - s.part.link.held.length - 1 + 1 := by omega
      rw [if_pos hroom]
      dsimp only
      rw [none, List.nil_append, room, List.take_succ_cons, List.take_nil, List.drop_succ_cons, List.drop_nil]
    · have full : 16 - s.part.link.held.length = 0 := by omega
      rw [if_neg hroom]
      dsimp only
      rw [full, List.take_zero, List.drop_zero, List.append_nil]
  · have illFormed : ¬op.wf = true := by simp [LinkOp.wf]; omega
    exact if_neg illFormed

/-! ### The region map (R4) -/

section

variable {m : RegionMap} {a : Nat}

theorem RegionMap.physRegion_control (h : m.controlBase ≤ a ∧ a < m.controlBase + 0x800) :
    m.physRegion a =
      if a - m.controlBase < 0x400 then .commandArea (a - m.controlBase) else .reportArea (a - m.controlBase) := by
  have inside : inRegion m.controlBase controlSize a = true := inRegion_iff.2 h
  rw [RegionMap.physRegion, if_pos inside]

theorem RegionMap.physRegion_audio (hc : ¬(m.controlBase ≤ a ∧ a < m.controlBase + 0x800))
    (hp : ¬(m.privBase ≤ a ∧ a < m.privBase + 0x40000)) (h : m.audioBase ≤ a ∧ a < m.audioBase + m.audioSize) :
    m.physRegion a = .audioRing (a - m.audioBase) := by
  have outside : ¬inRegion m.controlBase controlSize a = true := fun h => hc (inRegion_iff.1 h)
  have notPrivate : ¬inRegion m.privBase privSize a = true := fun h => hp (inRegion_iff.1 h)
  rw [RegionMap.physRegion, if_neg outside, if_neg notPrivate, if_pos (inRegion_iff.2 h)]

theorem RegionMap.physRegion_ring (hc : ¬(m.controlBase ≤ a ∧ a < m.controlBase + 0x800))
    (hp : ¬(m.privBase ≤ a ∧ a < m.privBase + 0x40000)) (ha : ¬(m.audioBase ≤ a ∧ a < m.audioBase + m.audioSize))
    (h : m.ringBase ≤ a ∧ a < m.ringBase + m.ringSize) :
    m.physRegion a = .recordRing (a - m.ringBase) := by
  have outside : ¬inRegion m.controlBase controlSize a = true := fun h => hc (inRegion_iff.1 h)
  have notPrivate : ¬inRegion m.privBase privSize a = true := fun h => hp (inRegion_iff.1 h)
  have notAudio : ¬inRegion m.audioBase m.audioSize a = true := fun h => ha (inRegion_iff.1 h)
  rw [RegionMap.physRegion, if_neg outside, if_neg notPrivate, if_neg notAudio, if_pos (inRegion_iff.2 h)]

theorem RegionMap.physRegion_rest (hc : ¬(m.controlBase ≤ a ∧ a < m.controlBase + 0x800))
    (hp : ¬(m.privBase ≤ a ∧ a < m.privBase + 0x40000)) (ha : ¬(m.audioBase ≤ a ∧ a < m.audioBase + m.audioSize))
    (hr : ¬(m.ringBase ≤ a ∧ a < m.ringBase + m.ringSize)) :
    m.physRegion a = .slotArea ∨ m.physRegion a = .plain := by
  have outside : ¬inRegion m.controlBase controlSize a = true := fun h => hc (inRegion_iff.1 h)
  have notPrivate : ¬inRegion m.privBase privSize a = true := fun h => hp (inRegion_iff.1 h)
  have notAudio : ¬inRegion m.audioBase m.audioSize a = true := fun h => ha (inRegion_iff.1 h)
  have notRing : ¬inRegion m.ringBase m.ringSize a = true := fun h => hr (inRegion_iff.1 h)
  rw [RegionMap.physRegion, if_neg outside, if_neg notPrivate, if_neg notAudio, if_neg notRing]
  split
  · exact .inl rfl
  · exact .inr rfl

/-- An address is in the class of `.privateArea` exactly inside that area and outside the control block (R4). -/
theorem RegionMap.physRegion_eq_private_iff : m.physRegion a = .privateArea ↔
    ¬(m.controlBase ≤ a ∧ a < m.controlBase + 0x800) ∧ m.privBase ≤ a ∧ a < m.privBase + 0x40000 := by
  refine ⟨fun h => ?_, fun ⟨hc, hp⟩ => RegionMap.physRegion_private hc hp.1 hp.2⟩
  by_cases hc : m.controlBase ≤ a ∧ a < m.controlBase + 0x800
  · rw [RegionMap.physRegion_control hc] at h
    split at h <;> cases h
  refine ⟨hc, ?_⟩
  by_contra hp
  by_cases ha : m.audioBase ≤ a ∧ a < m.audioBase + m.audioSize
  · rw [RegionMap.physRegion_audio hc hp ha] at h
    cases h
  by_cases hr : m.ringBase ≤ a ∧ a < m.ringBase + m.ringSize
  · rw [RegionMap.physRegion_ring hc hp ha hr] at h
    cases h
  obtain hs | hs := RegionMap.physRegion_rest hc hp ha hr <;> rw [hs] at h <;> cases h

/-- And in the audio ring's class inside it and outside the control block and the area before it (R4). -/
theorem RegionMap.physRegion_eq_audio_iff : (∃ o, m.physRegion a = .audioRing o) ↔
    ¬(m.controlBase ≤ a ∧ a < m.controlBase + 0x800) ∧ ¬(m.privBase ≤ a ∧ a < m.privBase + 0x40000) ∧
      m.audioBase ≤ a ∧ a < m.audioBase + m.audioSize := by
  refine ⟨fun ⟨o, h⟩ => ?_, fun ⟨hc, hp, ha⟩ => ⟨_, RegionMap.physRegion_audio hc hp ha⟩⟩
  by_cases hc : m.controlBase ≤ a ∧ a < m.controlBase + 0x800
  · rw [RegionMap.physRegion_control hc] at h
    split at h <;> cases h
  refine ⟨hc, ?_⟩
  by_cases hp : m.privBase ≤ a ∧ a < m.privBase + 0x40000
  · rw [RegionMap.physRegion_private hc hp.1 hp.2] at h
    cases h
  refine ⟨hp, ?_⟩
  by_contra ha
  by_cases hr : m.ringBase ≤ a ∧ a < m.ringBase + m.ringSize
  · rw [RegionMap.physRegion_ring hc hp ha hr] at h
    cases h
  obtain hs | hs := RegionMap.physRegion_rest hc hp ha hr <;> rw [hs] at h <;> cases h

/-- The row of a beat in the physical window (R4): only a WRITE of the card engine's area or the audio ring is no plain access. -/
theorem RegionMap.beatRow_window (ha : a < captureBase) (isWrite : Bool) :
    (m.beatRow a isWrite = .privateAreaWrite ↔ isWrite = true ∧ m.physRegion a = .privateArea) ∧
    (m.beatRow a isWrite = .audioRingWrite ↔ isWrite = true ∧ ∃ o, m.physRegion a = .audioRing o) ∧
    (m.beatRow a isWrite = .physical ↔
      ¬(isWrite = true ∧ (m.physRegion a = .privateArea ∨ ∃ o, m.physRegion a = .audioRing o))) ∧
    m.beatRow a isWrite ≠ .hole ∧ m.beatRow a isWrite ≠ .captureWrite ∧ m.beatRow a isWrite ≠ .viewRead := by
  unfold RegionMap.beatRow
  rw [if_pos ha]
  cases m.physRegion a <;> cases isWrite <;> simp

/-- The row of a beat beyond it (R4): a WRITE of the capture window, a READ of a view window, or a hole beat. -/
theorem RegionMap.beatRow_beyond (ha : captureBase ≤ a) (isWrite : Bool) :
    (m.beatRow a isWrite = .captureWrite ↔ a < encBase ∧ isWrite = true) ∧
    (m.beatRow a isWrite = .viewRead ↔ encBase ≤ a ∧ a < holeBase ∧ isWrite = false) ∧
    (m.beatRow a isWrite = .hole ↔ ¬(a < encBase ∧ isWrite = true) ∧ ¬(encBase ≤ a ∧ a < holeBase ∧ isWrite = false)) ∧
    m.beatRow a isWrite ≠ .physical ∧ m.beatRow a isWrite ≠ .audioRingWrite ∧ m.beatRow a isWrite ≠ .privateAreaWrite := by
  unfold RegionMap.beatRow
  rw [if_neg (Nat.not_lt.2 ha)]
  by_cases he : a < encBase
  · have : ¬encBase ≤ a := Nat.not_le.2 he
    cases isWrite <;> simp [he, this]
  · have : encBase ≤ a := Nat.not_lt.1 he
    by_cases hh : a < holeBase <;> cases isWrite <;> simp [he, hh, this]

end

/-! ### Physical beats (R9 to R11) -/

/-- A beat that a row takes leaves its request behind where its work is that request. -/
theorem State.onBeat_request {s : State} {a : Nat} {w : Option WriteBeat} {row : BeatRow} {f : LinkBeat → Part → Part}
    {r : LinkReq} (h : HandsOn s.part a w) (hrow : s.part.map.beatRow a w.isSome = row)
    (hf : f (.handed a w) s.part = s.part.linkRequest r) :
    s.onBeat row f = s.onPart (Part.linkRequest r) :=
  (State.onBeat_of_handsOn h hrow f).trans (State.onPart_congr hf)

/-- Settles O7: the region map gives the beat to its row, and the class of its address gives the watcher. -/
theorem physicalBeatsRequestTheirOwnAddress : Obligations.PhysicalBeatsRequestTheirOwnAddress := by
  intro s a hwindow m control priv audio ring
  refine ⟨fun b h hplain => ?_, fun h => ?_⟩
  · have plain : m.beatRow a (some b).isSome = .physical := by
      refine (RegionMap.beatRow_window hwindow true).2.2.1.2 ?_
      rintro ⟨-, hp | ha⟩
      · obtain ⟨hc, hp⟩ := RegionMap.physRegion_eq_private_iff.1 hp
        exact hplain.elim hc fun hout => hout.1 hp
      · obtain ⟨hc, -, ha⟩ := RegionMap.physRegion_eq_audio_iff.1 ha
        exact hplain.elim hc fun hout => hout.2 ha
    have watch : (m.physRegion a).watch = if control ∧ a < m.controlBase + 0x400 then .command (a - m.controlBase)
        else if ¬control ∧ ring then .ring (a - m.ringBase) else .unwatched := by
      by_cases hc : control
      · rw [RegionMap.physRegion_control hc]
        by_cases hlow : a < m.controlBase + 0x400
        · rw [if_pos (by omega), if_pos ⟨hc, hlow⟩]
          rfl
        · rw [if_neg (by omega), if_neg fun both => hlow both.2, if_neg fun both => both.1 hc]
          rfl
      · obtain ⟨hp, ha⟩ := hplain.resolve_left hc
        rw [if_neg fun both => hc both.1]
        by_cases hr : ring
        · rw [RegionMap.physRegion_ring hc hp ha hr, if_pos ⟨hc, hr⟩]
          rfl
        · rw [if_neg fun both => hr both.2]
          obtain hs | hs := RegionMap.physRegion_rest hc hp ha hr <;> rw [hs] <;> rfl
    rw [← watch]
    exact congrArg _ (State.onBeat_request h plain rfl)
  · have plain : m.beatRow a (none : Option WriteBeat).isSome = .physical :=
      (RegionMap.beatRow_window hwindow false).2.2.1.2 fun both => nomatch both.1
    have report : (m.physRegion a).report =
        if control ∧ m.controlBase + 0x400 ≤ a then some (a - m.controlBase) else none := by
      by_cases hc : control
      · rw [RegionMap.physRegion_control hc]
        by_cases hlow : a < m.controlBase + 0x400
        · rw [if_pos (by omega), if_neg fun both => Nat.not_lt.2 both.2 hlow]
          rfl
        · rw [if_neg (by omega), if_pos ⟨hc, Nat.not_lt.1 hlow⟩]
          rfl
      · rw [if_neg fun both => hc both.1]
        by_cases hp : priv
        · rw [RegionMap.physRegion_private hc hp.1 hp.2]
          rfl
        by_cases ha : audio
        · rw [RegionMap.physRegion_audio hc hp ha]
          rfl
        by_cases hr : ring
        · rw [RegionMap.physRegion_ring hc hp ha hr]
          rfl
        obtain hs | hs := RegionMap.physRegion_rest hc hp ha hr <;> rw [hs] <;> rfl
    rw [← report]
    exact congrArg _ (State.onBeat_request h plain rfl)

/-! ### Rows that cannot occur (log 10) -/

/-- A beat row with no beat of its kind changes nothing. -/
theorem State.onBeat_none {s : State} {row : BeatRow} (h : s.part.beatFor row = none) (f : LinkBeat → Part → Part) :
    s.onBeat row f = s := by
  unfold State.onBeat
  rw [h]

theorem exec_captureWrite_none {s : State} (h : s.part.beatFor .captureWrite = none) : exec .captureWrite s = .next s := by
  show execCaptureWrite s = .next s
  unfold execCaptureWrite
  rw [h]

theorem Part.beatFor_of_idle {p : Part} (h : p.phase = .stalled ∨ p.link.request ≠ none ∨ p.link.held = []) (row : BeatRow) :
    p.beatFor row = none := by
  have none : p.nextBeat = none := by
    unfold Part.nextBeat
    obtain h | h | h := h
    · rw [if_pos (.inl h)]
    · rw [if_pos (.inr (Option.isSome_iff_ne_none.2 h))]
    · rw [h, ite_self]
  unfold Part.beatFor
  rw [none]
  rfl

theorem Part.beatFor_of_other {p : Part} {a : Nat} {w : Option WriteBeat} {row : BeatRow} (h : HandsOn p a w)
    (hrow : p.map.beatRow a w.isSome ≠ row) : p.beatFor row = none := by
  rw [Part.beatFor_of_handsOn h, if_neg hrow]

theorem State.grant_of_not_next {s : State} {c : ReqClass} (h : s.part.nextGrant ≠ some c) : s.grant c = s := if_neg h

theorem Part.holds_link_eq_false {p : Part} : p.holds .link = false ↔ p.link.request = none := by simp [Part.holds]

theorem Part.holds_card_eq_false {p : Part} : p.holds .card = false ↔ p.recd.card.request = none := by simp [Part.holds]

theorem Part.holds_part_eq_false {p : Part} : p.holds .part = false ↔ p.bus.partQ = [] := by simp [Part.holds]

/-- What the arbiter's choice says of the classes that it passed over (R16). -/
theorem Part.nextGrant_cases {p : Part} {c : ReqClass} (h : p.nextGrant = some c) :
    p.holds c = true ∧
      match p.lastGrant with
      | .link => c = .card ∨ (c = .part ∧ p.holds .card = false) ∨ (c = .link ∧ p.holds .part = false ∧ p.holds .card = false)
      | .card => c = .part ∨ (c = .link ∧ p.holds .part = false) ∨ (c = .card ∧ p.holds .part = false ∧ p.holds .link = false)
      | .part => c = .link ∨ (c = .card ∧ p.holds .link = false) ∨
          (c = .part ∧ p.holds .link = false ∧ p.holds .card = false) := by
  refine ⟨List.find?_some h, ?_⟩
  unfold Part.nextGrant ReqClass.rotation at h
  cases hl : p.lastGrant <;> rw [hl] at h <;> cases hlink : p.holds .link <;> cases hcard : p.holds .card <;>
    cases hpart : p.holds .part <;> simp_all

theorem Part.linkIsNext_of_nextGrant {p : Part} (h : p.nextGrant = some .link) : ∃ r, LinkIsNext p r := by
  obtain ⟨holds, next⟩ := Part.nextGrant_cases h
  obtain ⟨r, hr⟩ := Option.isSome_iff_exists.1 holds
  refine ⟨r, hr, ?_⟩
  cases hl : p.lastGrant <;> rw [hl] at next <;>
    simp_all [Part.holds_card_eq_false, Part.holds_part_eq_false]

theorem Part.cardIsNext_of_nextGrant {p : Part} (h : p.nextGrant = some .card) : ∃ r, CardIsNext p r := by
  obtain ⟨holds, next⟩ := Part.nextGrant_cases h
  obtain ⟨r, hr⟩ := Option.isSome_iff_exists.1 holds
  refine ⟨r, hr, ?_⟩
  cases hl : p.lastGrant <;> rw [hl] at next <;>
    simp_all [Part.holds_link_eq_false, Part.holds_part_eq_false]

theorem Part.partIsNext_of_nextGrant {p : Part} (h : p.nextGrant = some .part) : ∃ r, PartIsNext p r := by
  obtain ⟨holds, next⟩ := Part.nextGrant_cases h
  have some : p.bus.partQ ≠ [] := fun hq => by rw [Part.holds_part_eq_false.2 hq] at holds; cases holds
  refine ⟨p.bus.partQ.head some, List.head?_eq_some_head some, ?_⟩
  cases hl : p.lastGrant <;> rw [hl] at next <;>
    simp_all [Part.holds_link_eq_false, Part.holds_card_eq_false]

/-- Settles O5: each row's event needs its phase, a beat of its kind, or the arbiter's turn. -/
theorem rowsThatCannotOccurChangeNothing : Obligations.RowsThatCannotOccurChangeNothing := by
  intro s
  have linkIdle (h : ∀ r, ¬LinkIsNext s.part r) : exec .linkRequestGrant s = .next s :=
    congrArg _ (State.grant_of_not_next fun hn => (Part.linkIsNext_of_nextGrant hn).elim h)
  have cardIdle (h : ∀ r, ¬CardIsNext s.part r) : exec .cardRequestGrant s = .next s :=
    congrArg _ (State.grant_of_not_next fun hn => (Part.cardIsNext_of_nextGrant hn).elim h)
  have partIdle (h : ∀ r, ¬PartIsNext s.part r) : exec .partRequestGrant s = .next s :=
    congrArg _ (State.grant_of_not_next fun hn => (Part.partIsNext_of_nextGrant hn).elim h)
  refine ⟨fun h => congrArg _ (if_neg h), fun h => congrArg _ (if_neg h), fun h c hc => ?_, fun a w h => ?_,
    fun h => linkIdle fun r hr => ?_, fun h => cardIdle fun r hr => ?_, fun h => partIdle fun r hr => ?_,
    linkIdle, cardIdle, partIdle⟩
  · have idle (row : BeatRow) : s.part.beatFor row = none := Part.beatFor_of_idle h row
    simp only [List.mem_cons, List.not_mem_nil, or_false] at hc
    obtain rfl | rfl | rfl | rfl | rfl | rfl := hc
    · exact congrArg _ (State.onBeat_none (idle _) _)
    · exact congrArg _ (State.onBeat_none (idle _) _)
    · exact congrArg _ (State.onBeat_none (idle _) _)
    · exact congrArg _ (State.onBeat_none (idle _) _)
    · exact exec_captureWrite_none (idle _)
    · exact congrArg _ (State.onBeat_none (idle _) _)
  · intro m window control priv audio capture view
    have other {row : BeatRow} {f : LinkBeat → Part → Part} (hrow : m.beatRow a w.isSome ≠ row) : s.onBeat row f = s :=
      State.onBeat_none (Part.beatFor_of_other h hrow) f
    have isWrite : w.isSome = true ↔ w ≠ none := Option.isSome_iff_ne_none
    have inWindow (hw : window) := RegionMap.beatRow_window (m := m) (a := a) hw w.isSome
    have beyond (hw : ¬window) := RegionMap.beatRow_beyond (m := m) (Nat.not_lt.1 hw) w.isSome
    have private_iff := RegionMap.physRegion_eq_private_iff (m := m) (a := a)
    have audio_iff := RegionMap.physRegion_eq_audio_iff (m := m) (a := a)
    refine ⟨fun hout => ?_, fun hout => ?_, fun hout => ?_, fun hout => ?_, fun hout => ?_, fun hout => ?_⟩
    · refine congrArg _ (other fun hrow => ?_)
      obtain hw | ⟨hw, hregion⟩ := hout
      · exact (beyond hw).2.2.2.1 hrow
      · by_cases hwin : window
        · exact (inWindow hwin).2.2.1.1 hrow ⟨isWrite.2 hw, hregion.imp private_iff.2 audio_iff.2⟩
        · exact (beyond hwin).2.2.2.1 hrow
    · refine congrArg _ (other fun hrow => ?_)
      by_cases hwin : window
      · obtain ⟨hwrite, hring⟩ := (inWindow hwin).2.1.1 hrow
        obtain hw | hw | ha := hout
        · exact hw hwin
        · exact isWrite.1 hwrite hw
        · exact ha (audio_iff.1 hring)
      · exact (beyond hwin).2.2.2.2.1 hrow
    · refine congrArg _ (other fun hrow => ?_)
      by_cases hwin : window
      · obtain ⟨hwrite, harea⟩ := (inWindow hwin).1.1 hrow
        obtain hw | hw | hp := hout
        · exact hw hwin
        · exact isWrite.1 hwrite hw
        · exact hp (private_iff.1 harea)
      · exact (beyond hwin).2.2.2.2.2 hrow
    · refine congrArg _ (other fun hrow => ?_)
      by_cases hwin : window
      · exact (inWindow hwin).2.2.2.1 hrow
      · obtain ⟨notCapture, notView⟩ := (beyond hwin).2.2.1.1 hrow
        obtain hw | ⟨⟨-, hlow⟩, hw⟩ | ⟨⟨hlo, hhi⟩, hw⟩ := hout
        · exact hwin hw
        · exact notCapture ⟨hlow, isWrite.2 hw⟩
        · exact notView ⟨hlo, hhi, Option.isSome_eq_false_iff.2 (Option.isNone_iff_eq_none.2 hw)⟩
    · refine exec_captureWrite_none (Part.beatFor_of_other h fun hrow => ?_)
      by_cases hwin : window
      · exact (inWindow hwin).2.2.2.2.1 hrow
      · obtain ⟨hlow, hwrite⟩ := (beyond hwin).1.1 hrow
        exact hout.elim (fun hc => hc ⟨Nat.not_lt.1 hwin, hlow⟩) (isWrite.1 hwrite)
    · refine congrArg _ (other fun hrow => ?_)
      by_cases hwin : window
      · exact (inWindow hwin).2.2.2.2.2 hrow
      · obtain ⟨hlo, hhi, hread⟩ := (beyond hwin).2.1.1 hrow
        obtain hv | hw := hout
        · exact hv ⟨hlo, hhi⟩
        · rw [isWrite.2 hw] at hread
          cases hread
  · rw [hr.1] at h; cases h
  · rw [hr.1] at h; cases h
  · have head := hr.1
    rw [h] at head
    cases head

end Sys2Proof.Machine

end

section
/-! PROOFS. Host commands that set values (02, 04, 05, 09, 10, 11): their judgements in order, and what an accepted one sets:
EVENT_SET, EVENT_ACK, STAB_CAL, TC_SET, AUDIO_SET, TEXT and TEXT_CLEAR, and the refusals of the lens commands. -/

namespace Sys2Proof.Machine

/-! ### The take in a ready slot -/

/-- A command in a ready slot, by what its owner does from the take's beginning on (R22, R23). -/
theorem State.offered_take {slot : CmdSlot} {kind : Byte} {s : State} {carry : Part → Part × Verdict} {q : Part} {v : Verdict}
    (h : Ready slot s.part) (hcarry : carry { s.part with bus := s.part.bus.beginTake slot kind } = (q, v)) :
    s.offered slot (Part.take slot kind true 0 carry) =
      .next (s.onPart fun _ => { q with bus := q.bus.answer slot v 0 }) := by
  refine (State.offered_of_accepts h.1 _).trans (congrArg _ (State.onPart_congr ?_))
  rw [Part.take_ready h, hcarry, ite_self]

/-- A take whose selector is out of range is refused BAD_VALUE with detail 0 (R22 step 3). -/
theorem State.offered_badSelector {slot : CmdSlot} {s : State} (h : Ready slot s.part) (kind : Byte)
    (carry : Part → Part × Verdict) :
    s.offered slot (Part.take slot kind false 0 carry) = .next (s.onPart (Part.takenOnly slot kind (.badValue 0))) := by
  refine (State.offered_of_accepts h.1 _).trans (congrArg _ (State.onPart_congr ?_))
  obtain ⟨⟨-, -, hrestart⟩, hconflict⟩ := h
  simp [Part.take, hrestart, hconflict, Part.takenOnly, Bus.taken, Bus.meetAll, Verdict.badValue]

/-! ### AUDIO_SET (R173) -/

theorem Channel.set_tests (enable threshold release clearOver : Nat) :
    firstFailure [operandTest 1 (decide (enable ≤ 1)), operandTest 2 (within 65536 8388607 threshold),
      operandTest 3 (within 1 512 release), operandTest 4 (decide (clearOver ≤ 1))] =
      if 1 < enable then some (.badValue 1)
      else if threshold < 65536 ∨ 8388607 < threshold then some (.badValue 2)
      else if release < 1 ∨ 512 < release then some (.badValue 3)
      else if 1 < clearOver then some (.badValue 4) else none := by
  rw [firstFailure_operandTest decide_le_eq_false_iff, firstFailure_operandTest within_eq_false_iff,
    firstFailure_operandTest within_eq_false_iff, firstFailure_operandTest decide_le_eq_false_iff]
  rfl

theorem channelOf_of_toNat {sel : Byte} {n : ChannelNo} (h : sel.toNat = n.val) : channelOf sel = some n := by
  have small : sel.toNat < 4 := by omega
  rw [channelOf, dif_pos small]
  exact congrArg some (Fin.ext h)

theorem channelOf_eq_none {sel : Byte} (h : 3 < sel.toNat) : channelOf sel = none := dif_neg (by omega)

/-- AUDIO_SET in a ready slot, by the judgement of its channel. -/
theorem exec_audioSet_of_ready {slot : CmdSlot} {sel : Byte} {n : ChannelNo} {enable threshold release clear : Word} {s : State}
    {c : Channel} {v : Verdict} (h : Ready slot s.part) (hsel : sel.toNat = n.val)
    (hset : s.part.audio[n].set enable.toNat threshold.toNat release.toNat clear.toNat = (c, v)) :
    exec (.audioSet slot sel enable threshold release clear) s =
      .next (s.onPart fun p => { p.afterTake slot 0x50 [] v with audio := p.audio.set n c }) := by
  have taken : Part.takeAudioSet slot sel enable threshold release clear = Part.take slot 0x50 true 0 fun p =>
      ({ p with audio := p.audio.set n (p.audio[n].set (num enable) (num threshold) (num release) (num clear)).1 },
        (p.audio[n].set (num enable) (num threshold) (num release) (num clear)).2) := by
    funext p
    unfold Part.takeAudioSet
    rw [channelOf_of_toNat hsel]
  have offered : exec (.audioSet slot sel enable threshold release clear) s =
      s.offered slot (Part.takeAudioSet slot sel enable threshold release clear) := rfl
  rw [offered, taken]
  refine (State.offered_take h (by simp only [hset]; rfl)).trans (congrArg _ (State.onPart_congr rfl))

/-- Settles O45: the four tests in index order; the channel's limiter is the whole change. -/
theorem audioSetSetsTheLimiter : Obligations.AudioSetSetsTheLimiter := by
  intro slot sel n enable threshold release clear s h hsel bad
  have judged := Channel.set_tests enable.toNat threshold.toNat release.toNat clear.toNat
  have refused {v : Verdict} (hv : firstFailure [operandTest 1 (decide (enable.toNat ≤ 1)),
      operandTest 2 (within 65536 8388607 threshold.toNat), operandTest 3 (within 1 512 release.toNat),
      operandTest 4 (decide (clear.toNat ≤ 1))] = some v) :
      exec (.audioSet slot sel enable threshold release clear) s = .next (s.onPart (Part.takenOnly slot 0x50 v)) := by
    have same : s.part.audio[n].set enable.toNat threshold.toNat release.toNat clear.toNat = (s.part.audio[n], v) := by
      unfold Channel.set; dsimp only; rw [hv]
    refine (exec_audioSet_of_ready h hsel same).trans (congrArg _ (State.onPart_congr ?_))
    simp only [Fin.getElem_fin, Vector.set_getElem_self]
    rfl
  refine
    next_of_test refused judged fun _enable judged =>
    next_of_test refused judged fun _threshold judged =>
    next_of_test refused judged fun _release judged =>
    next_of_test refused judged fun _clear passed => ?_
  exact (exec_audioSet_of_ready h hsel (by unfold Channel.set; dsimp only; rw [passed])).trans
    (congrArg _ (State.onPart_congr rfl))

/-! ### Refusals of the lens commands (R22 step 3) -/

theorem Lens.axisSet_noTable {n : AxisName} {vStart vMax ramp dwell low high action quietCap : Nat} {l : Lens}
    (h : l.coord.table = none) :
    l.axisSet n vStart vMax ramp dwell low high action quietCap = l.refuse (.refuse .noLensTable) := by
  have noTable : l.coord.table.isSome = false ↔ True := by simp [h]
  unfold Lens.axisSet Lens.axisSetTests
  dsimp only
  rw [firstFailure_ownerTest noTable, if_pos trivial]

/-- Settles O29: the selectors, then each refusal as the first test of its command that fails. -/
theorem commandsNeedTheirSelectorAndTheirTable : Obligations.CommandsNeedTheirSelectorAndTheirTable := by
  intro slot sel a b c d e f g k s h bad
  have homed (n : AxisName) (hstate : (s.part.lens.axis n).state = .unhomed ∨ (s.part.lens.axis n).state = .homing ∨
      (s.part.lens.axis n).state = .fault) : ¬(s.part.lens.axis n).usable = true := by
    rw [StepAxis.usable_iff]
    rintro (hs | hs | hs | hs) <;> rw [hs] at hstate <;> simp at hstate
  have noMove (n : AxisName) (named : axisOf sel = some n) (hheld : ¬(n = .zoom ∧ s.part.lens.coord.rocker = .hold))
      (hstate : (s.part.lens.axis n).state = .unhomed ∨ (s.part.lens.axis n).state = .homing ∨
        (s.part.lens.axis n).state = .fault) :
      exec (.move slot sel a 0 0 d) s = .next (s.onPart (Part.takenOnly slot 0x14 (.refuse .notHomed))) ∧
      (a.toNat ≤ 1 → exec (.jog slot sel a 0) s = .next (s.onPart (Part.takenOnly slot 0x15 (.refuse .notHomed)))) := by
    refine ⟨exec_move_refused h named ?_, fun ha => State.offered_axis_refused h named (Lens.jog_refused ?_)⟩
    · exact (Lens.firstFailure_moveTests_operands (.inl rfl) (.inl rfl)).trans
        ((if_neg hheld).trans (if_pos (homed n hstate)))
    · rw [Lens.firstFailure_jogTests, if_neg (Nat.not_lt.2 ha), if_neg (not_not_intro (.inl rfl)), if_neg hheld,
        if_pos (homed n hstate)]
  refine ⟨fun h0 h1 => ?_, fun hsel => ?_, fun htable => ⟨fun hsel => ?_, fun ha hb => ?_⟩, fun h0 hstate hhold => ?_,
    fun h1 hstate => ?_⟩
  · have none := axisOf_eq_none h0 h1
    exact ⟨State.offered_axis_bad h none _, State.offered_axis_bad h none _, State.offered_axis_bad h none _,
      State.offered_axis_bad h none _, State.offered_axis_bad h none _, State.offered_axis_bad h none _⟩
  · have taken : Part.takeAudioSet slot sel a b c d = Part.take slot 0x50 false 0 (answered (.badValue 0)) := by
      funext p
      unfold Part.takeAudioSet
      rw [channelOf_eq_none hsel]
    have offered : exec (.audioSet slot sel a b c d) s = s.offered slot (Part.takeAudioSet slot sel a b c d) := rfl
    rw [offered, taken]
    exact State.offered_badSelector h ..
  · have named : ∃ n, axisOf sel = some n := by
      obtain rfl | rfl := hsel
      · exact ⟨.zoom, rfl⟩
      · exact ⟨.focus, rfl⟩
    obtain ⟨n, named⟩ := named
    refine ⟨State.offered_axis_refused h named (Lens.axisSet_noTable htable),
      State.offered_axis_refused h named (Lens.home_refused ?_)⟩
    rw [Lens.home_tests, if_pos htable]
  · refine State.offered_lens_refused h (Lens.focusTrack_refused ?_)
    rw [Lens.firstFailure_focusTests, if_neg (Nat.not_lt.2 ha), if_neg (Nat.not_lt.2 hb), if_pos htable]
  · exact noMove .zoom (by rw [h0]; rfl) (fun both => hhold both.2) hstate
  · exact noMove .focus (by rw [h1]; rfl) (fun both => nomatch both.1) hstate

/-! ### STAB_CAL (R72) -/

/-- STAB_CAL in a ready slot, by the stabiliser's judgement. -/
theorem exec_stabCal_of_ready {slot : CmdSlot} {s : State} {t : Stabiliser} {v : Verdict} (h : Ready slot s.part)
    (hcal : s.part.stab.calibrate slot = (t, v)) :
    exec (.stabCal slot) s = .next (s.onPart fun p => { p.afterTake slot 0x21 [] v with stab := t }) := by
  have offered : exec (.stabCal slot) s = .next (s.onPart (Part.takeStabCal slot)) := State.offered_of_accepts h.1 _
  exact offered.trans (congrArg _ (State.onPart_congr (Part.take_stab (judge := fun p => p.stab.calibrate slot) h hcal)))

/-- Settles O40: the judgement by the mode; both axes are cleared where the calibration begins. -/
theorem stabCalBeginsACalibration : Obligations.StabCalBeginsACalibration := by
  intro slot s h clear
  refine ⟨fun hm => ?_, fun hm => ?_, fun hm => ?_⟩
  · exact (exec_stabCal_of_ready h (by unfold Stabiliser.calibrate; rw [hm])).trans (congrArg _ (State.onPart_congr rfl))
  · exact (exec_stabCal_of_ready h (by unfold Stabiliser.calibrate; rw [hm])).trans (congrArg _ (State.onPart_congr rfl))
  · obtain hm | hm := hm
    · refine (exec_stabCal_of_ready h (by unfold Stabiliser.calibrate; rw [hm])).trans (congrArg _ (State.onPart_congr ?_))
      simp only [hm]
      rfl
    · refine (exec_stabCal_of_ready h (by unfold Stabiliser.calibrate; rw [hm])).trans (congrArg _ (State.onPart_congr ?_))
      simp only [hm]
      rfl

/-! ### EVENT_SET and EVENT_ACK (R29, R30, R32) -/

/-- A V factor that is pending and not masked asserts INT (R29). -/
theorem ReportUnit.int_of_unmasked {r : ReportUnit} {f : Word} (hp : r.pending &&& f ≠ 0) (hm : r.mask &&& f = 0) :
    r.int = true := by
  obtain ⟨i, hi⟩ : ∃ i, (r.pending &&& f).getLsbD i = true := by
    by_contra none
    refine hp (BitVec.eq_of_getLsbD_eq fun i _ => ?_)
    have off := not_exists.1 none i
    simpa using off
  rw [BitVec.getLsbD_and, Bool.and_eq_true] at hi
  obtain ⟨hpi, hfi⟩ := hi
  have hmi : r.mask.getLsbD i = false := by
    have masked := congrArg (·.getLsbD i) hm
    simpa [hfi] using masked
  have small : i < 32 := by
    by_contra hle
    rw [BitVec.getLsbD_of_ge _ _ (Nat.not_lt.1 hle)] at hpi
    cases hpi
  unfold ReportUnit.int
  rw [bne_iff_ne]
  intro zero
  have bit := congrArg (·.getLsbD i) zero
  rw [BitVec.getLsbD_and, BitVec.getLsbD_or, BitVec.getLsbD_not, hpi, hmi] at bit
  simp [small] at bit

theorem Bus.eventSet_refused {mask mode : Word} (h : 1 < mode.toNat) (b : Bus) : b.eventSet mask mode = (b, .badValue 2) := by
  unfold Bus.eventSet
  rw [firstFailure_operandTest decide_le_eq_false_iff, if_pos h]

theorem Bus.eventSet_accepted {mask mode : Word} {clear : ClearMode} (h : mode.toNat ≤ 1)
    (hclear : clear = if mode.toNat = 0 then .onRead else .onAck) (b : Bus) :
    b.eventSet mask mode =
      (if mask = b.report.mask ∧ clear = b.report.clearMode then b
        else Bus.requestFactor { b with report := { b.report with mask := mask, clearMode := clear } }, .done) := by
  have named : (if num mode = 1 then ClearMode.onAck else .onRead) = clear := by
    obtain h0 | h1 : mode.toNat = 0 ∨ mode.toNat = 1 := by omega
    · rw [hclear, if_pos h0, if_neg (show ¬mode.toNat = 1 by omega)]
    · rw [hclear, if_pos h1, if_neg (by omega)]
  unfold Bus.eventSet
  rw [firstFailure_operandTest decide_le_eq_false_iff, if_neg (Nat.not_lt.2 h), firstFailure]
  dsimp only
  rw [named]
  split <;> rfl

/-- What the requests of the report unit's own blocks leave of the report. -/
theorem Bus.set_report {b : Bus} {mask : Word} {clear : ClearMode} :
    (if mask = b.report.mask ∧ clear = b.report.clearMode then b
      else Bus.requestFactor { b with report := { b.report with mask := mask, clearMode := clear } }).report =
      { b.report with mask := mask, clearMode := clear } := by
  split
  · next h => rw [h.1, h.2]
  · rw [Bus.requestFactor_report]

/-- A slot's record right after the beginning of a take (R22). -/
theorem Bus.beginTake_slot (slot : CmdSlot) (kind : Byte) (b : Bus) :
    (b.beginTake slot kind).cmd.slots[slot] =
      { b.cmd.slots[slot] with uses := b.cmd.slots[slot].uses + 1, kind := kind } := by
  simp [Bus.beginTake]

/-- Settles O23: EVENT_SET by its one test, then its change of the report unit; EVENT_ACK notes its factors alone. -/
theorem eventCommandsAct : Obligations.EventCommandsAct := by
  refine ⟨fun slot mask mode s h => ⟨fun hmode => ?_, fun hmode => ?_⟩, fun slot factors s h => ⟨?_, ?_, ?_⟩⟩
  · have offered := State.offered_take (kind := 0x03) (carry := fun p : Part =>
      ({ p with bus := (p.bus.eventSet mask mode).1 }, (p.bus.eventSet mask mode).2)) h
      (by simp only [Bus.eventSet_refused hmode]; rfl)
    exact offered.trans (congrArg _ (State.onPart_congr rfl))
  · intro clear
    have offered := State.offered_take (kind := 0x03) (carry := fun p : Part =>
      ({ p with bus := (p.bus.eventSet mask mode).1 }, (p.bus.eventSet mask mode).2)) h
      (by simp only [Bus.eventSet_accepted hmode (show clear = _ from rfl)]; rfl)
    refine ⟨_, offered.trans (congrArg _ (State.onPart_congr rfl)), rfl, ?_⟩
    have report := Bus.set_report (b := s.part.bus.beginTake slot 0x03) (mask := mask) (clear := clear)
    exact ⟨(congrArg ReportUnit.mask report :), (congrArg ReportUnit.clearMode report :),
      (congrArg ReportUnit.pending report :),
      fun f hpending hmask => (congrArg ReportUnit.int report).trans (ReportUnit.int_of_unmasked hpending hmask)⟩
  · refine (State.offered_of_accepts h.1 _).trans (congrArg _ (State.onPart_congr ?_))
    unfold Part.takeEventAck
    rw [Part.take_ready h]
    rfl
  · rfl
  · have slots := Bus.beginTake_slot slot 0x04 s.part.bus
    exact (Bus.answer_partQ ..).trans (by rw [Bus.meetAll_nil, Bus.beginTake_partQ, slots]; rfl)

/-! ### TC_SET (R156, R161) -/

theorem Bcd.digits_iff {d : Bcd} : d.digits = true ↔ d.tens ≤ 9 ∧ d.units ≤ 9 := by simp [Bcd.digits]

/-- When a timecode is valid at a rate (R156). -/
theorem Timecode.valid_iff {rate : TcRate} {t : Timecode} :
    t.valid rate = true ↔
      ((t.hh.tens ≤ 9 ∧ t.hh.units ≤ 9) ∧ (t.mm.tens ≤ 9 ∧ t.mm.units ≤ 9) ∧ (t.ss.tens ≤ 9 ∧ t.ss.units ≤ 9) ∧
        (t.ff.tens ≤ 9 ∧ t.ff.units ≤ 9)) ∧
      t.hh.value ≤ 23 ∧ t.mm.value ≤ 59 ∧ t.ss.value ≤ 59 ∧ t.ff.value < rate.fps ∧
        ¬(rate = .df2997 ∧ t.skipped = true) := by
  simp only [Timecode.valid, Bool.and_eq_true, Bcd.digits_iff, decide_eq_true_eq, Bool.not_eq_true', Bool.and_eq_false_iff,
    decide_eq_false_iff_not, not_and_or, Bool.not_eq_true]
  tauto

theorem Timecode.skipped_iff {t : Timecode} :
    t.skipped = true ↔ t.ss = ⟨0, 0⟩ ∧ t.ff.tens = 0 ∧ t.ff.units ≤ 1 ∧ t.mm.units ≠ 0 := by
  obtain ⟨hh, mm, ⟨st, su⟩, ⟨ft, fu⟩⟩ := t
  simp only [Timecode.skipped, Bool.and_eq_true, decide_eq_true_eq]
  simp only [Bcd.value, Bcd.mk.injEq]
  omega

theorem firstFailure_tcSetTests (timecode mode rate : Nat) (r : RecState) :
    firstFailure (tcSetTests timecode mode rate r) =
      if 1 < mode then some (.badValue 2)
      else if 2 < rate then some (.badValue 3)
      else if (Timecode.ofNat timecode).valid (tcRateOf rate) = false then some (.badValue 1)
      else if r = .recording ∨ r = .stopping ∨ r = .closing then some (.refuse .busy) else none := by
  have busy : (decide (r ≠ .recording) && decide (r ≠ .stopping) && decide (r ≠ .closing)) = false ↔
      r = .recording ∨ r = .stopping ∨ r = .closing := by cases r <;> decide
  unfold tcSetTests
  rw [firstFailure_operandTest decide_le_eq_false_iff, firstFailure_operandTest decide_le_eq_false_iff,
    firstFailure_operandTest Iff.rfl, firstFailure_ownerTest busy]
  rfl

/-- TC_SET in a ready slot, by the judgement. -/
theorem exec_tcSet_of_ready {slot : CmdSlot} {timecode mode rate : Word} {s : State} {r : Recorder} {v : Verdict}
    (h : Ready slot s.part) (hset : s.part.recd.tcSet timecode.toNat mode.toNat rate.toNat = (r, v)) :
    exec (.tcSet slot timecode mode rate) s = .next (s.onPart fun p => { p.afterTake slot 0x40 [] v with recd := r }) := by
  refine (State.offered_take (kind := 0x40) (carry := Part.onRecSetting (Recorder.tcSet (num timecode) (num mode) (num rate)))
    h (by simp only [Part.onRecSetting, hset]; rfl)).trans (congrArg _ (State.onPart_congr rfl))

/-- Settles O44: the four tests in the order of R161; both timecodes, the mode and the rate are the whole change. -/
theorem tcSetSetsBothTimecodes : Obligations.TcSetSetsBothTimecodes := by
  intro slot timecode mode rate s h r tc digit valid rec' refused
  have judged := firstFailure_tcSetTests timecode.toNat mode.toNat rate.toNat s.part.recd.card.recState
  have refuses {v : Verdict} (hv : firstFailure (tcSetTests timecode.toNat mode.toNat rate.toNat s.part.recd.card.recState) =
      some v) : refused v := by
    refine (exec_tcSet_of_ready h (by unfold Recorder.tcSet; rw [hv])).trans (congrArg _ (State.onPart_congr rfl))
  have named (hr : rate.toNat ≤ 2) : tcRateOf rate.toNat = r := by
    have cases3 : rate.toNat = 0 ∨ rate.toNat = 1 ∨ rate.toNat = 2 := by omega
    obtain h0 | h1 | h2 := cases3
    · simp [r, h0, tcRateOf]
    · simp [r, h1, tcRateOf]
    · simp [r, h2, tcRateOf]
  have valid_iff (hr : rate.toNat ≤ 2) : tc.valid (tcRateOf rate.toNat) = true ↔ valid := by
    have fps : (tcRateOf rate.toNat).fps = if rate.toNat = 0 then 25 else 30 := by
      rw [named hr]
      by_cases h0 : rate.toNat = 0
      · simp [r, h0, TcRate.fps]
      · by_cases h1 : rate.toNat = 1 <;> simp [r, h0, h1, TcRate.fps]
    have df : tcRateOf rate.toNat = .df2997 ↔ rate.toNat = 2 := by
      rw [named hr]
      by_cases h0 : rate.toNat = 0
      · simp [r, h0]
      · by_cases h1 : rate.toNat = 1
        · simp [r, h1]
        · simp only [r, if_neg h0, if_neg h1, true_iff]; omega
    rw [Timecode.valid_iff, fps, df, Timecode.skipped_iff]
    exact Iff.rfl
  refine ⟨fun hm => ?_, fun hm hr => ?_, fun hm hr hv => ?_, fun hm hr hv hbusy => ?_, fun hm hr hv hrest => ?_⟩
  · exact refuses (judged.trans (if_pos hm))
  · rw [if_neg (by omega), if_pos hr] at judged
    exact refuses judged
  · have bad : tc.valid (tcRateOf rate.toNat) = false := Bool.eq_false_iff.2 (mt (valid_iff hr).1 hv)
    rw [if_neg (by omega), if_neg (by omega), if_pos bad] at judged
    exact refuses judged
  all_goals
    have good : ¬tc.valid (tcRateOf rate.toNat) = false := by rw [(valid_iff hr).2 hv]; exact nofun
    rw [if_neg (by omega), if_neg (by omega), if_neg good] at judged
  · exact refuses (judged.trans (if_pos hbusy))
  · have free : ¬(rec' = .recording ∨ rec' = .stopping ∨ rec' = .closing) := by
      obtain hs | hs | hs := hrest <;> rw [hs] <;> simp
    have passed := judged.trans (if_neg free)
    refine (exec_tcSet_of_ready h (by unfold Recorder.tcSet; rw [passed])).trans (congrArg _ (State.onPart_congr ?_))
    have mode_eq : (if mode.toNat = 1 then TcMode.recordRun else .freeRun) =
        if mode.toNat = 0 then .freeRun else .recordRun := by
      obtain h0 | h1 : mode.toNat = 0 ∨ mode.toNat = 1 := by omega
      · rw [h0]; rfl
      · rw [h1]; rfl
    unfold TimecodeUnit.set
    rw [mode_eq, named hr]

/-! ### TEXT and TEXT_CLEAR (R183) -/

/-- The cells that a run of contents leaves in a row. -/
theorem writeCells_getElem? (limit column : Nat) (cs row : List CellContent) (c : Nat) (hc : c < row.length) :
    (writeCells limit column cs row)[c]? =
      if column ≤ c ∧ c < column + cs.length ∧ c < limit then cs[c - column]? else row[c]? := by
  induction cs generalizing column row with
  | nil =>
    have outside : ¬(column ≤ c ∧ c < column + ([] : List CellContent).length ∧ c < limit) := by
      simp only [List.length_nil]; omega
    rw [if_neg outside]
    rfl
  | cons x xs ih =>
    have length : (if column < limit then row.set column x else row).length = row.length := by split <;> simp
    unfold writeCells
    rw [ih _ _ (by rw [length]; exact hc)]
    by_cases here : c = column
    · subst here
      by_cases hl : c < limit <;> simp [hl, hc]
    · have apart : (if column < limit then row.set column x else row)[c]? = row[c]? := by
        split
        · exact List.getElem?_set_ne (Ne.symm here)
        · rfl
      rw [apart]
      by_cases inside : column + 1 ≤ c ∧ c < column + 1 + xs.length ∧ c < limit
      · have shift : c - column = (c - (column + 1)) + 1 := by omega
        rw [if_pos inside, if_pos (by simp only [List.length_cons]; omega), shift, List.getElem?_cons_succ]
      · rw [if_neg inside, if_neg (by simp only [List.length_cons]; omega)]

/-- Byte `i % 4` of word `i / 4`: the glyph codes of a text (12.1). -/
theorem flatMap_leBytes_getElem? (ws : List Word) (i : Nat) :
    (ws.flatMap fun w => (leBytes 4 w.toNat).map BitVec.toNat)[i]? =
      (ws[i / 4]?).map fun w => w.toNat / 256 ^ (i % 4) % 256 := by
  induction ws generalizing i with
  | nil => simp
  | cons w ws ih =>
    rw [List.flatMap_cons]
    by_cases small : i < 4
    · have cases4 : i = 0 ∨ i = 1 ∨ i = 2 ∨ i = 3 := by omega
      obtain rfl | rfl | rfl | rfl := cases4 <;> simp [leBytes, Nat.div_div_eq_div_mul]
    · obtain ⟨j, rfl⟩ : ∃ j, i = j + 4 := ⟨i - 4, by omega⟩
      have word : ((leBytes 4 w.toNat).map BitVec.toNat).length = 4 := by simp [leBytes]
      rw [List.getElem?_append_right (by omega), word, Nat.add_sub_cancel, ih, Nat.add_div_right _ (by omega : 0 < 4),
        Nat.add_mod_right, List.getElem?_cons_succ]

theorem textCodes_getElem? (codes : Vector Word 12) (i : Nat) :
    (textCodes codes)[i]? = (codes[i / 4]?).map fun w => w.toNat / 256 ^ (i % 4) % 256 := by
  rw [textCodes, flatMap_leBytes_getElem?, Vector.getElem?_toList]

theorem Overlay.text_tests (position form : Nat) (o : Overlay) :
    firstFailure [operandTest 2 (within 1 48 (form % 256)),
      operandTest 1 (decide (position / 256 % 256 < o.rows) && decide (position % 256 < o.columns))] =
      if form % 256 < 1 ∨ 48 < form % 256 then some (.badValue 2)
      else if o.rows ≤ position / 256 % 256 ∨ o.columns ≤ position % 256 then some (.badValue 1) else none := by
  have place : (decide (position / 256 % 256 < o.rows) && decide (position % 256 < o.columns)) = false ↔
      o.rows ≤ position / 256 % 256 ∨ o.columns ≤ position % 256 := by
    rw [Bool.and_eq_false_iff, decide_lt_eq_false_iff, decide_lt_eq_false_iff]
  rw [firstFailure_operandTest within_eq_false_iff, firstFailure_operandTest place]
  rfl

theorem cellAt_set_ne {layer : List (List CellContent)} {row r : Nat} (h : r ≠ row) (cells : List CellContent) (c : Nat) :
    cellAt (layer.set row cells) r c = cellAt layer r c := by
  unfold cellAt
  rw [List.getElem?_set_ne (Ne.symm h)]

theorem cellAt_set_self {layer : List (List CellContent)} {r : Nat} (h : r < layer.length) (cells : List CellContent) (c : Nat) :
    cellAt (layer.set r cells) r c = (cells[c]?).getD .blank := by
  unfold cellAt
  rw [List.getElem?_set_self h]
  rfl

theorem replicate_blank_getElem? (n c : Nat) :
    (((List.replicate n CellContent.blank)[c]?).getD .blank) = ⟨0, 0, false, false⟩ := by
  rw [List.getElem?_replicate]
  split <;> rfl

theorem cellAt_blankLayer (r c : Nat) : cellAt Overlay.blankLayer r c = ⟨0, 0, false, false⟩ := by
  unfold cellAt Overlay.blankLayer
  rw [List.getElem?_replicate]
  split
  · exact replicate_blank_getElem? 48 c
  · rfl

/-- Settles O46: the tests in their order; the row written cell by cell, or emptied. -/
theorem textWritesTheHostLayer : Obligations.TextWritesTheHostLayer := by
  refine ⟨fun slot position form codes s h => ?_, fun slot row s h => ?_⟩
  · intro o column row count refused
    have judged := Overlay.text_tests position.toNat form.toNat o
    have refuses {v : Verdict} (hv : firstFailure [operandTest 2 (within 1 48 (form.toNat % 256)),
        operandTest 1 (decide (position.toNat / 256 % 256 < o.rows) && decide (position.toNat % 256 < o.columns))] = some v) :
        exec (.text slot position form codes) s = .next (s.onPart (Part.takenOnly slot 0x60 v)) :=
      State.offered_overlay_refused h (by unfold Overlay.text; dsimp only; rw [hv])
    refine ⟨fun hcount => ?_, fun hlo hhi hplace => ?_, fun hlo hhi hrow hcolumn => ?_⟩
    · exact refuses (judged.trans (if_pos (by omega)))
    · rw [if_neg (by omega), if_pos hplace] at judged
      exact refuses judged
    · rw [if_neg (by omega), if_neg (by omega)] at judged
      have work : Overlay.text position.toNat form.toNat codes o =
          ({ o with host := o.host.set row (writeCells o.columns column (((textCodes codes).take count).map fun c =>
            ⟨c, form.toNat / 256 % 4, form.toNat.testBit 10, form.toNat.testBit 11⟩) (o.host[row]?.getD [])) }, .done) := by
        unfold Overlay.text; dsimp only; rw [judged]
      refine ⟨_, (State.offered_overlay_done (fun o => { o with host := o.host.set row (writeCells o.columns column
        (((textCodes codes).take count).map fun c =>
          ⟨c, form.toNat / 256 % 4, form.toNat.testBit 10, form.toNat.testBit 11⟩) (o.host[row]?.getD [])) }) h work).trans
        (congrArg _ (State.onPart_congr rfl)), fun r c hr hc => ?_⟩
      by_cases same : r = row
      · subst same
        have cells : (((textCodes codes).take count).map fun c =>
            (⟨c, form.toNat / 256 % 4, form.toNat.testBit 10, form.toNat.testBit 11⟩ : CellContent)).length = count := by
          have all : (textCodes codes).length = 48 := by
            simp [textCodes, leBytes, List.length_flatMap]
          rw [List.length_map, List.length_take, all]
          omega
        rw [cellAt_set_self hr, writeCells_getElem? _ _ _ _ _ hc, cells]
        by_cases inside : column ≤ c ∧ c < column + count ∧ c < o.columns
        · rw [if_pos inside, if_pos ⟨rfl, inside⟩, List.getElem?_map, List.getElem?_take_of_lt (by omega), textCodes_getElem?]
          have word : (c - column) / 4 < 12 := by omega
          simp [word]
        · rw [if_neg inside, if_neg fun both => inside both.2]
          rfl
      · rw [cellAt_set_ne same, if_neg fun both => same both.1]
  · intro o
    have bad : (decide (row.toNat = 255) || decide (row.toNat < o.rows)) = false ↔ row.toNat ≠ 255 ∧ o.rows ≤ row.toNat := by
      rw [Bool.or_eq_false_iff, decide_eq_false_iff_not, decide_lt_eq_false_iff]
    have judged := firstFailure_operandTest bad 1 []
    refine ⟨fun hrow hall => ?_, fun hrow => ?_⟩
    · rw [if_pos ⟨hall, hrow⟩] at judged
      exact State.offered_overlay_refused h (by unfold Overlay.textClear; rw [judged])
    · rw [if_neg (by omega)] at judged
      by_cases all : row.toNat = 255
      · have work : Overlay.textClear row.toNat o = ({ o with host := Overlay.blankLayer }, .done) := by
          unfold Overlay.textClear; rw [judged]; exact if_pos all
        refine ⟨_, (State.offered_overlay_done (fun o => { o with host := Overlay.blankLayer }) h work).trans
          (congrArg _ (State.onPart_congr rfl)), fun r c hr => ?_⟩
        rw [if_pos (.inl all)]
        exact cellAt_blankLayer r c
      · have work : Overlay.textClear row.toNat o =
            ({ o with host := o.host.set row.toNat (List.replicate 48 .blank) }, .done) := by
          unfold Overlay.textClear; rw [judged]; exact if_neg all
        refine ⟨_, (State.offered_overlay_done (fun o =>
          { o with host := o.host.set row.toNat (List.replicate 48 .blank) }) h work).trans
          (congrArg _ (State.onPart_congr rfl)), fun r c hr => ?_⟩
        by_cases same : r = row.toNat
        · subst same
          rw [cellAt_set_self hr, if_pos (.inr rfl)]
          exact replicate_blank_getElem? 48 c
        · rw [cellAt_set_ne same, if_neg fun either => either.elim all same]

end Sys2Proof.Machine

end

section
/-! PROOFS. The command unit (02 sections 2.1, 2.2 and 12.1): what a host's words spell, what every take does to the command unit
and what a refusal leaves alone, which offers are not carried out, and the check of a slot by a granted beat. -/

namespace Sys2Proof.Machine

/-! ### The words of a slot (12.1) -/

theorem commandWord_kind {kind : Nat} (h : kind < 256) (sel : Byte) :
    ((commandWord kind sel).setWidth 8).toNat = kind := by
  have hs := sel.isLt
  simp only [commandWord, BitVec.toNat_setWidth, BitVec.toNat_ofNat]
  omega

theorem commandWord_selector {kind : Nat} (h : kind < 256) (sel : Byte) :
    (commandWord kind sel >>> 8).setWidth 8 = sel := by
  have hs := sel.isLt
  refine BitVec.eq_of_toNat_eq ?_
  simp only [commandWord, BitVec.toNat_setWidth, BitVec.toNat_ushiftRight, BitVec.toNat_ofNat, Nat.shiftRight_eq_div_pow]
  omega

theorem slotWords_kind {kind : Nat} (h : kind < 256) (sel : Byte) (ops : List Word) :
    (slotWords kind sel ops).kind = BitVec.ofNat 8 kind := by
  refine BitVec.eq_of_toNat_eq ((commandWord_kind h sel).trans ?_)
  rw [BitVec.toNat_ofNat]
  omega

theorem slotWords_selector {kind : Nat} (h : kind < 256) (sel : Byte) (ops : List Word) :
    (slotWords kind sel ops).selector = sel := commandWord_selector h sel

/-- The glyph words of a TEXT stand in its slot as they were given (12.1). -/
theorem slotWords_codes (sel : Byte) (a b : Word) (codes : Vector Word 12) :
    (slotWords 0x60 sel (a :: b :: codes.toList)).codes = codes := by
  refine Vector.ext fun i hi => ?_
  have code (n : Nat) (hn : n < 12) : (a :: b :: codes.toList).getD (n + 2) 0 = codes[n] := by
    simp [hn]
  match i, hi with
  | 0, _ => exact code 0 _
  | 1, _ => exact code 1 _
  | 2, _ => exact code 2 _
  | 3, _ => exact code 3 _
  | 4, _ => exact code 4 _
  | 5, _ => exact code 5 _
  | 6, _ => exact code 6 _
  | 7, _ => exact code 7 _
  | 8, _ => exact code 8 _
  | 9, _ => exact code 9 _
  | 10, _ => exact code 10 _
  | 11, _ => exact code 11 _

/-- The words that a host issues spell its command, and their kind is not 0. -/
theorem decodeSlot_of_encodeSlot {c : Instr} {slot : CmdSlot} {w : SlotWords} (h : encodeSlot c = some (slot, w)) :
    decodeSlot slot w = some c ∧ w.kind ≠ 0 := by
  cases c
  case region | restart | eventSet | eventAck | lensTable | axisSet | compareSet | home | move | jog | stop | focusTrack |
      iris | gripSet | stabSet | stabCal | prerecSet | recStart | recStop | cardFormat | cardEject | tcSet | audioSet |
      textClear | fieldSet | zebraSet | paletteSet =>
    obtain ⟨rfl, rfl⟩ := Prod.mk.inj (Option.some.inj h)
    refine ⟨?_, ?_⟩
    · unfold decodeSlot
      simp (disch := decide) only [slotWords_kind, slotWords_selector]
      rfl
    · simp (disch := decide) only [slotWords_kind]
      decide
  case text slot a b codes =>
    obtain ⟨rfl, rfl⟩ := Prod.mk.inj (Option.some.inj h)
    refine ⟨?_, ?_⟩
    · unfold decodeSlot
      simp (disch := decide) only [slotWords_kind, slotWords_codes]
      rfl
    · simp (disch := decide) only [slotWords_kind]
      decide
  all_goals exact absurd h.symm (Option.some_ne_none _)

/-- A command that words spell is one that a host can issue, under the same kind. -/
theorem encodeSlot_of_decodeSlot {c : Instr} {slot : CmdSlot} {w : SlotWords} (h : decodeSlot slot w = some c) :
    ∃ w', encodeSlot c = some (slot, w') ∧ w'.kind = w.kind := by
  unfold decodeSlot at h
  split at h
  case h_29 => cases h
  all_goals
    obtain rfl := Option.some.inj h
    refine ⟨_, rfl, BitVec.eq_of_toNat_eq ?_⟩
    exact (commandWord_kind (by decide) _).trans (Eq.symm (by assumption))

/-- Settles O22: the encoder and the decoder agree on every host command. -/
theorem slotWordsSpellTheirCommand : Obligations.SlotWordsSpellTheirCommand :=
  ⟨fun _ _ _ h => decodeSlot_of_encodeSlot h, fun _ _ _ h => encodeSlot_of_decodeSlot h⟩

/-! ### What an owner does at a take -/

/-- The command unit apart from the last outcomes: the shadow, the RESTART record, the use counts and the kinds. -/
structure Bus.SameTakes (b b' : Bus) : Prop where
  shadow : b'.cmd.shadow = b.cmd.shadow
  restart : b'.cmd.restart = b.cmd.restart
  uses : ∀ k : CmdSlot, b'.cmd.slots[k].uses = b.cmd.slots[k].uses
  kind : ∀ k : CmdSlot, b'.cmd.slots[k].kind = b.cmd.slots[k].kind

theorem Bus.SameTakes.refl (b : Bus) : b.SameTakes b := ⟨rfl, rfl, fun _ => rfl, fun _ => rfl⟩

theorem Bus.SameTakes.trans {a b c : Bus} (h : a.SameTakes b) (h' : b.SameTakes c) : a.SameTakes c :=
  ⟨h'.shadow.trans h.shadow, h'.restart.trans h.restart, fun k => (h'.uses k).trans (h.uses k),
    fun k => (h'.kind k).trans (h.kind k)⟩

theorem Bus.SameTakes.of_cmd {b b' : Bus} (h : b'.cmd = b.cmd) : b.SameTakes b' :=
  ⟨by rw [h], by rw [h], fun _ => by rw [h], fun _ => by rw [h]⟩

theorem Bus.answer_sameTakes (slot : CmdSlot) (v : Verdict) (ack : Word) (b : Bus) : b.SameTakes (b.answer slot v ack) := by
  have slots (k : CmdSlot) : (b.answer slot v ack).cmd.slots[k] =
      { b.cmd.slots[k] with last := (b.answer slot v ack).cmd.slots[k].last } := by
    simp only [Bus.answer, Bus.request, Fin.getElem_fin, Vector.getElem_set]
    split
    · next h => simp [Fin.ext h]
    · rfl
  exact ⟨rfl, rfl, fun k => by rw [slots k], fun k => by rw [slots k]⟩

theorem Bus.meet_sameTakes (o : Out) (b : Bus) : b.SameTakes (b.meet o) := by
  cases o with
  | raise f => exact .of_cmd (Bus.raise_cmd f b)
  | finish slot c d => exact Bus.answer_sameTakes ..
  | status => exact .of_cmd (Bus.requestStatus_cmd b)
  | request r => exact .of_cmd rfl
  | overwrite n => exact .of_cmd rfl

theorem Bus.meetAll_sameTakes (os : List Out) (b : Bus) : b.SameTakes (b.meetAll os) := by
  induction os generalizing b with
  | nil => exact .refl b
  | cons o os ih => exact (Bus.meet_sameTakes o b).trans (ih _)

theorem Part.deliverRec_sameTakes (p : Part) (o : RecOut) : p.bus.SameTakes (p.deliverRec o).bus := by
  cases o with
  | bus o => exact Bus.meet_sameTakes ..
  | recState r => exact .refl _
  | recStarted => exact Bus.meetAll_sameTakes ..

theorem Part.onRecorder_sameTakes (f : Recorder → RecWork) (p : Part) : p.bus.SameTakes (p.onRecorder f).bus := by
  have delivered (os : List RecOut) (q : Part) : q.bus.SameTakes (os.foldl Part.deliverRec q).bus := by
    induction os generalizing q with
    | nil => exact .refl _
    | cons o os ih => exact (Part.deliverRec_sameTakes q o).trans (ih _)
  exact delivered _ { p with recd := ((f p.recd).pump p.map).st }

theorem Part.heldMount_sameTakes (p : Part) : p.bus.SameTakes p.heldMount.bus := by
  unfold Part.heldMount
  split
  · exact Part.onRecorder_sameTakes ..
  · exact .refl _

/-- A carried-out judgement: it leaves the command unit but the outcomes alone, and a refusal changes nothing (R22). -/
structure Carries (carry : Part → Part × Verdict) : Prop where
  takes : ∀ p : Part, p.bus.SameTakes (carry p).1.bus
  refuses : ∀ p : Part, (carry p).2.code.refused = true → (carry p).1 = p

theorem not_refused_done : ¬Verdict.done.code.refused = true := by decide

theorem not_refused_pending : ¬Verdict.pending.code.refused = true := by decide

theorem Carries.answered (v : Verdict) : Carries (Machine.answered v) := ⟨fun _ => .refl _, fun _ _ => rfl⟩

/-- A judgement of a lens command that leaves the lens side alone where it refuses. -/
def LensJudge (f : Lens → LensAnswer) : Prop := ∀ l, (f l).2.code.refused = true → (f l).1 = .start l

theorem Carries.onLens {f : Lens → LensAnswer} (h : LensJudge f) : Carries (Part.onLens f) := by
  refine ⟨fun p => Bus.meetAll_sameTakes .., fun p hv => ?_⟩
  have same := h p.lens hv
  simp only [Part.onLens, same, Job.start_st, Job.start_out, Bus.meetAll_nil]

theorem Carries.onOverlay {f : Overlay → Overlay × Verdict} (h : ∀ o, (f o).2.code.refused = true → (f o).1 = o) :
    Carries (Part.onOverlay f) := by
  refine ⟨fun p => .refl _, fun p hv => ?_⟩
  have same := h p.overlay hv
  simp only [Part.onOverlay, same]

theorem Carries.onRecSetting {f : Recorder → Recorder × Verdict} (h : ∀ r, (f r).2.code.refused = true → (f r).1 = r) :
    Carries (Part.onRecSetting f) := by
  refine ⟨fun p => .refl _, fun p hv => ?_⟩
  have same := h p.recd hv
  simp only [Part.onRecSetting, same]

theorem Part.onRecCommand_eq (p : Part) (f : Recorder → RecAnswer) :
    p.onRecCommand f =
      (if (f p.recd).2.code.refused then p else p.onRecorder fun r => (f r).1, (f p.recd).2) := by
  unfold Part.onRecCommand
  split <;> rfl

theorem Carries.onRecCommand (f : Part → Recorder → RecAnswer) : Carries fun p => p.onRecCommand (f p) := by
  refine ⟨fun p => ?_, fun p hv => ?_⟩
  · show p.bus.SameTakes (p.onRecCommand (f p)).1.bus
    rw [Part.onRecCommand_eq]
    dsimp only
    split
    · exact .refl _
    · exact Part.onRecorder_sameTakes ..
  · replace hv : (p.onRecCommand (f p)).2.code.refused = true := hv
    show (p.onRecCommand (f p)).1 = p
    rw [Part.onRecCommand_eq] at hv ⊢
    exact if_pos hv

theorem Carries.onStab {judge : Part → Stabiliser × Verdict}
    (h : ∀ p : Part, (judge p).2.code.refused = true → (judge p).1 = p.stab) :
    Carries fun p => ({ p with stab := (judge p).1 }, (judge p).2) :=
  ⟨fun _ => .refl _, fun p hv => congrArg (fun stab => { p with stab := stab }) (h p hv)⟩

theorem Carries.onRecJudge {judge : Part → Recorder × Verdict}
    (h : ∀ p : Part, (judge p).2.code.refused = true → (judge p).1 = p.recd) :
    Carries fun p => ({ p with recd := (judge p).1 }, (judge p).2) :=
  ⟨fun _ => .refl _, fun p hv => congrArg (fun recd => { p with recd := recd }) (h p hv)⟩

theorem Carries.onBus {judge : Bus → Bus × Verdict} (takes : ∀ b : Bus, b.SameTakes (judge b).1)
    (h : ∀ b : Bus, (judge b).2.code.refused = true → (judge b).1 = b) :
    Carries fun p => ({ p with bus := (judge p.bus).1 }, (judge p.bus).2) :=
  ⟨fun p => takes p.bus, fun p hv => congrArg (fun bus => { p with bus := bus }) (h p.bus hv)⟩

/-! ### The judgements, one by one -/

theorem Lens.lensTable_judge {slot : CmdSlot} {address : Nat} : LensJudge (Lens.lensTable slot address) := by
  intro l h
  unfold Lens.lensTable at h ⊢
  dsimp only at h ⊢
  split at h
  · rfl
  · exact absurd h not_refused_pending

theorem Lens.axisSet_judge {n : AxisName} {vStart vMax ramp dwell low high action quietCap : Nat} :
    LensJudge (Lens.axisSet n vStart vMax ramp dwell low high action quietCap) := by
  intro l h
  unfold Lens.axisSet at h ⊢
  dsimp only at h ⊢
  split at h
  · rfl
  · exact absurd h not_refused_done

theorem Lens.compareSet_judge {n : AxisName} {comparator value condition enable : Nat} :
    LensJudge (Lens.compareSet n comparator value condition enable) := by
  intro l h
  unfold Lens.compareSet at h ⊢
  dsimp only at h ⊢
  split at h
  · rfl
  · exact absurd h not_refused_done

theorem Lens.home_judge {slot : CmdSlot} {n : AxisName} : LensJudge (Lens.home slot n) := by
  intro l h
  unfold Lens.home at h ⊢
  dsimp only at h ⊢
  split at h
  · rfl
  · exact absurd h not_refused_pending

theorem Lens.move_judge {slot : CmdSlot} {n : AxisName} {target cap condition argument : Nat} :
    LensJudge (Lens.move slot n target cap condition argument) := by
  intro l h
  cases hv : firstFailure (l.moveTests n target cap condition argument) with
  | some v => rw [Lens.move_refused hv]; rfl
  | none =>
    exfalso
    unfold Lens.moveTests at hv
    unfold Lens.move at h
    dsimp only at h
    rw [hv] at h
    generalize Job.suspend n (Job.endMotions n .superseded _) = j at h
    generalize (if condition = 0 then none else startCondOf condition argument) = start at h
    cases start with
    | none =>
      dsimp only at h
      split at h
      · exact absurd h not_refused_done
      · exact absurd h not_refused_pending
    | some c => exact absurd h not_refused_pending

theorem Lens.jog_judge {slot : CmdSlot} {n : AxisName} {direction speed : Nat} : LensJudge (Lens.jog slot n direction speed) := by
  intro l h
  cases hv : firstFailure (l.jogTests n direction speed) with
  | some v => rw [Lens.jog_refused hv]; rfl
  | none =>
    exfalso
    cases hb : (l.axis n).blocked (jogDir direction) with
    | true => rw [Lens.jog_blocked hv hb] at h; exact absurd h not_refused_done
    | false => rw [Lens.jog_runs hv hb] at h; exact absurd h not_refused_pending

theorem Lens.stop_judge {n : AxisName} {kind : Nat} : LensJudge (Lens.stop n kind) := by
  intro l h
  unfold Lens.stop at h ⊢
  split at h
  · rfl
  · exact absurd h not_refused_done

theorem Lens.focusTrack_judge {enable distance : Nat} : LensJudge (Lens.focusTrack enable distance) := by
  intro l h
  unfold Lens.focusTrack at h ⊢
  dsimp only at h ⊢
  split at h
  · rfl
  · exact absurd h not_refused_done

theorem Lens.irisSet_judge {target step : Nat} : LensJudge (Lens.irisSet target step) := by
  intro l h
  unfold Lens.irisSet at h ⊢
  split at h
  · rfl
  · exact absurd h not_refused_done

theorem Lens.gripSet_judge {rocker button : Nat} : LensJudge (Lens.gripSet rocker button) := by
  intro l h
  unfold Lens.gripSet at h ⊢
  dsimp only at h ⊢
  split at h
  · rfl
  · exact absurd h not_refused_done

theorem Stabiliser.set_judge {table : Option LensTable} {enable rate lTrack lPan hold yaw pitch : Nat} {s : Stabiliser}
    (h : (s.set table enable rate lTrack lPan hold yaw pitch).2.code.refused = true) :
    (s.set table enable rate lTrack lPan hold yaw pitch).1 = s := by
  unfold Stabiliser.set at h ⊢
  split at h
  · exact absurd h not_refused_done
  · rfl
  · rfl

theorem Stabiliser.calibrate_judge {slot : CmdSlot} {s : Stabiliser} (h : (s.calibrate slot).2.code.refused = true) :
    (s.calibrate slot).1 = s := by
  unfold Stabiliser.calibrate at h ⊢
  split at h
  · rfl
  · rfl
  · exact absurd h not_refused_pending
  · exact absurd h not_refused_pending

theorem Channel.set_judge {enable threshold release clearOver : Nat} {c : Channel}
    (h : (c.set enable threshold release clearOver).2.code.refused = true) :
    (c.set enable threshold release clearOver).1 = c := by
  unfold Channel.set at h ⊢
  dsimp only at h ⊢
  split at h
  · rfl
  · exact absurd h not_refused_done

theorem Recorder.prerecSet_judge {map : RegionMap} {depth : Nat} {r : Recorder}
    (h : (r.prerecSet map depth).2.code.refused = true) : (r.prerecSet map depth).1 = r := by
  unfold Recorder.prerecSet at h ⊢
  split at h
  · rfl
  · exact absurd h not_refused_done

theorem Recorder.tcSet_judge {timecode mode rate : Nat} {r : Recorder}
    (h : (r.tcSet timecode mode rate).2.code.refused = true) : (r.tcSet timecode mode rate).1 = r := by
  unfold Recorder.tcSet at h ⊢
  split at h
  · rfl
  · exact absurd h not_refused_done

theorem Overlay.text_judge {position form : Nat} {codes : Vector Word 12} {o : Overlay}
    (h : (o.text position form codes).2.code.refused = true) : (o.text position form codes).1 = o := by
  unfold Overlay.text at h ⊢
  dsimp only at h ⊢
  split at h
  · rfl
  · exact absurd h not_refused_done

theorem Overlay.textClear_judge {row : Nat} {o : Overlay} (h : (o.textClear row).2.code.refused = true) :
    (o.textClear row).1 = o := by
  unfold Overlay.textClear at h ⊢
  split at h
  · rfl
  · split at h <;> exact absurd h not_refused_done

theorem Overlay.fieldSet_judge {field row column enable : Nat} {o : Overlay}
    (h : (o.fieldSet field row column enable).2.code.refused = true) : (o.fieldSet field row column enable).1 = o := by
  unfold Overlay.fieldSet at h ⊢
  dsimp only at h ⊢
  split at h
  · rfl
  · exact absurd h not_refused_done
  · rfl

theorem Overlay.zebraSet_judge {enable level : Nat} {o : Overlay} (h : (o.zebraSet enable level).2.code.refused = true) :
    (o.zebraSet enable level).1 = o := by
  unfold Overlay.zebraSet at h ⊢
  split at h
  · rfl
  · exact absurd h not_refused_done

theorem Overlay.paletteSet_judge {entry y cb cr : Nat} {o : Overlay}
    (h : (o.paletteSet entry y cb cr).2.code.refused = true) : (o.paletteSet entry y cb cr).1 = o := by
  unfold Overlay.paletteSet at h ⊢
  dsimp only at h ⊢
  split at h
  · rfl
  · exact absurd h not_refused_done

theorem Bus.eventSet_judge {mask mode : Word} {b : Bus} (h : (b.eventSet mask mode).2.code.refused = true) :
    (b.eventSet mask mode).1 = b := by
  by_cases hm : mode.toNat ≤ 1
  · rw [Bus.eventSet_accepted hm rfl] at h
    exact absurd h not_refused_done
  · rw [Bus.eventSet_refused (Nat.not_le.1 hm)]

theorem Bus.eventSet_sameTakes (mask mode : Word) (b : Bus) : b.SameTakes (b.eventSet mask mode).1 := by
  by_cases hm : mode.toNat ≤ 1
  · rw [Bus.eventSet_accepted hm rfl]
    dsimp only
    generalize (if mode.toNat = 0 then ClearMode.onRead else .onAck) = clear
    split
    · exact .refl _
    · exact .of_cmd (Bus.requestFactor_cmd _)
  · rw [Bus.eventSet_refused (Nat.not_le.1 hm)]
    exact .refl _

/-! ### The effect of a REGION (R8) -/

/-- The blocks that follow a new map by themselves (R8): the slot table, the ring pointers, the audio ring's blocks, the grid. -/
def Part.remapped (m : RegionMap) (p : Part) : Part :=
  { p with
    map := m
    slots := if m.sameSlots p.map then p.slots else p.slots.freeAll m.slotCount
    recd := if m.ringBase = p.map.ringBase ∧ m.ringSize = p.map.ringSize then p.recd
      else { p.recd with ring := p.recd.ring.moved }
    audio := if m.audioBase = p.map.audioBase ∧ m.audioSize = p.map.audioSize then p.audio
      else channelsMap Channel.ringMoved p.audio
    overlay := if m.vw = p.map.vw ∧ m.vh = p.map.vh then p.overlay else p.overlay.regrid m.vw m.vh }

/-- A moved `privBase` has its area zeroed, and a card in place mounted again (R8). -/
def Part.privateMove (m : RegionMap) (p q : Part) : Part :=
  if m.privBase = p.map.privBase then q
  else Part.onRecorder (fun r => (Job.start r).privateMoved) { q with bus := q.bus.request (.zero m.privBase 1024) }

theorem Part.applyRegion_eq (m : RegionMap) (p : Part) :
    p.applyRegion m =
      if p.map.conflict then (p.privateMove m (p.remapped m)).status.heldMount else p.privateMove m (p.remapped m) := by
  have remapped :
      (let q : Part := { p with map := m }
       let q := if m.sameSlots p.map then q else { q with slots := q.slots.freeAll m.slotCount }
       let q := if m.ringBase = p.map.ringBase ∧ m.ringSize = p.map.ringSize then q
         else { q with recd := { q.recd with ring := q.recd.ring.moved } }
       let q := if m.audioBase = p.map.audioBase ∧ m.audioSize = p.map.audioSize then q
         else { q with audio := channelsMap Channel.ringMoved q.audio }
       if m.vw = p.map.vw ∧ m.vh = p.map.vh then q else { q with overlay := q.overlay.regrid m.vw m.vh }) = p.remapped m := by
    unfold Part.remapped
    dsimp only
    split_ifs <;> rfl
  rw [← remapped]
  rfl

theorem Part.privateMove_sameTakes (m : RegionMap) (p q : Part) : q.bus.SameTakes (p.privateMove m q).bus := by
  unfold Part.privateMove
  split
  · exact .refl _
  · exact (Bus.SameTakes.of_cmd (b := q.bus) (b' := q.bus.request (.zero m.privBase 1024)) rfl).trans
      (Part.onRecorder_sameTakes _ { q with bus := q.bus.request (.zero m.privBase 1024) })

theorem Part.applyRegion_sameTakes (m : RegionMap) (p : Part) : p.bus.SameTakes (p.applyRegion m).bus := by
  rw [Part.applyRegion_eq]
  have moved : p.bus.SameTakes (p.privateMove m (p.remapped m)).bus := Part.privateMove_sameTakes m p (p.remapped m)
  split
  · exact (moved.trans (.of_cmd (Bus.requestStatus_cmd _))).trans (Part.heldMount_sameTakes (Part.status _))
  · exact moved

theorem Carries.region (o : RegionOperands) : Carries (Part.region o) := by
  refine ⟨fun p => ?_, fun p hv => ?_⟩
  · unfold Part.region
    split
    · exact .refl _
    · exact Part.applyRegion_sameTakes ..
  · unfold Part.region at hv ⊢
    split at hv
    · rfl
    · exact absurd hv not_refused_done

/-! ### Every take -/

/-- A command whose selector is out of range carries nothing (R22 step 3). -/
theorem Part.takeAxis_carries (slot : CmdSlot) (kind sel : Byte) {f : AxisName → Lens → LensAnswer} (h : ∀ n, LensJudge (f n)) :
    ∃ selOk ack carry, Part.takeAxis slot kind sel f = Part.take slot kind selOk ack carry ∧ Carries carry := by
  cases hsel : axisOf sel with
  | none => exact ⟨false, 0, _, by funext p; unfold Part.takeAxis; rw [hsel], Carries.answered (.badValue 0)⟩
  | some n => exact ⟨true, 0, _, by funext p; unfold Part.takeAxis; rw [hsel], Carries.onLens (h n)⟩

theorem Part.takeAudioSet_carries (slot : CmdSlot) (sel : Byte) (enable threshold release clearOver : Word) :
    ∃ selOk ack carry, Part.takeAudioSet slot sel enable threshold release clearOver =
      Part.take slot 0x50 selOk ack carry ∧ Carries carry := by
  cases hsel : channelOf sel with
  | none => exact ⟨false, 0, _, by funext p; unfold Part.takeAudioSet; rw [hsel], Carries.answered (.badValue 0)⟩
  | some n =>
    refine ⟨true, 0, _, by funext p; unfold Part.takeAudioSet; rw [hsel], fun p => .refl _, fun p hv => ?_⟩
    have same : (p.audio[n].set (num enable) (num threshold) (num release) (num clearOver)).1 = p.audio[n] :=
      Channel.set_judge hv
    have set : p.audio.set n (p.audio[n].set (num enable) (num threshold) (num release) (num clearOver)).1 = p.audio := by
      rw [same]
      exact Vector.set_getElem_self ..
    exact congrArg (fun a => { p with audio := a }) set

/-- What a host command other than RESTART does at its take: under its own kind, a judgement that is carried out (R22). -/
theorem Part.takeCommand_eq {c : Instr} {slot : CmdSlot} {w : SlotWords} (h : encodeSlot c = some (slot, w))
    (hk : w.kind ≠ 0x02) :
    ∃ selOk ack carry, Part.takeCommand c = Part.take slot w.kind selOk ack carry ∧ Carries carry := by
  cases c
  case restart =>
    obtain ⟨rfl, rfl⟩ := Prod.mk.inj (Option.some.inj h)
    exact absurd (slotWords_kind (by decide) 0 []) hk
  case region =>
    obtain ⟨rfl, rfl⟩ := Prod.mk.inj (Option.some.inj h)
    rw [slotWords_kind (by decide)]
    exact ⟨true, 0, _, rfl, Carries.region _⟩
  case eventSet =>
    obtain ⟨rfl, rfl⟩ := Prod.mk.inj (Option.some.inj h)
    rw [slotWords_kind (by decide)]
    exact ⟨true, 0, _, rfl,
      Carries.onBus (judge := Bus.eventSet _ _) (Bus.eventSet_sameTakes _ _) fun _ hv => Bus.eventSet_judge hv⟩
  case eventAck factors =>
    obtain ⟨rfl, rfl⟩ := Prod.mk.inj (Option.some.inj h)
    rw [slotWords_kind (by decide)]
    exact ⟨true, factors, _, rfl, Carries.answered _⟩
  case stabSet =>
    obtain ⟨rfl, rfl⟩ := Prod.mk.inj (Option.some.inj h)
    rw [slotWords_kind (by decide)]
    exact ⟨true, 0, _, rfl,
      Carries.onStab (judge := fun p => p.stab.set p.lens.coord.table _ _ _ _ _ _ _) fun _ hv => Stabiliser.set_judge hv⟩
  case stabCal =>
    obtain ⟨rfl, rfl⟩ := Prod.mk.inj (Option.some.inj h)
    rw [slotWords_kind (by decide)]
    exact ⟨true, 0, _, rfl,
      Carries.onStab (judge := fun p => p.stab.calibrate _) fun _ hv => Stabiliser.calibrate_judge hv⟩
  case prerecSet =>
    obtain ⟨rfl, rfl⟩ := Prod.mk.inj (Option.some.inj h)
    rw [slotWords_kind (by decide)]
    exact ⟨true, 0, _, rfl,
      Carries.onRecJudge (judge := fun p => p.recd.prerecSet p.map _) fun _ hv => Recorder.prerecSet_judge hv⟩
  case recStart =>
    obtain ⟨rfl, rfl⟩ := Prod.mk.inj (Option.some.inj h)
    rw [slotWords_kind (by decide)]
    exact ⟨true, 0, _, rfl, Carries.onRecCommand fun p => Recorder.recStart p.map _⟩
  case recStop =>
    obtain ⟨rfl, rfl⟩ := Prod.mk.inj (Option.some.inj h)
    rw [slotWords_kind (by decide)]
    exact ⟨true, 0, _, rfl, Carries.onRecCommand fun _ => Recorder.recStop _⟩
  case cardFormat =>
    obtain ⟨rfl, rfl⟩ := Prod.mk.inj (Option.some.inj h)
    rw [slotWords_kind (by decide)]
    exact ⟨true, 0, _, rfl, Carries.onRecCommand fun p => Recorder.cardFormat p.map _⟩
  case cardEject =>
    obtain ⟨rfl, rfl⟩ := Prod.mk.inj (Option.some.inj h)
    rw [slotWords_kind (by decide)]
    exact ⟨true, 0, _, rfl, Carries.onRecCommand fun _ => Recorder.cardEject _⟩
  case tcSet =>
    obtain ⟨rfl, rfl⟩ := Prod.mk.inj (Option.some.inj h)
    rw [slotWords_kind (by decide)]
    exact ⟨true, 0, _, rfl, Carries.onRecSetting fun _ hv => Recorder.tcSet_judge hv⟩
  case audioSet =>
    obtain ⟨rfl, rfl⟩ := Prod.mk.inj (Option.some.inj h)
    rw [slotWords_kind (by decide)]
    exact Part.takeAudioSet_carries ..
  case lensTable =>
    obtain ⟨rfl, rfl⟩ := Prod.mk.inj (Option.some.inj h)
    rw [slotWords_kind (by decide)]
    exact ⟨true, 0, _, rfl, Carries.onLens Lens.lensTable_judge⟩
  case focusTrack =>
    obtain ⟨rfl, rfl⟩ := Prod.mk.inj (Option.some.inj h)
    rw [slotWords_kind (by decide)]
    exact ⟨true, 0, _, rfl, Carries.onLens Lens.focusTrack_judge⟩
  case iris =>
    obtain ⟨rfl, rfl⟩ := Prod.mk.inj (Option.some.inj h)
    rw [slotWords_kind (by decide)]
    exact ⟨true, 0, _, rfl, Carries.onLens Lens.irisSet_judge⟩
  case gripSet =>
    obtain ⟨rfl, rfl⟩ := Prod.mk.inj (Option.some.inj h)
    rw [slotWords_kind (by decide)]
    exact ⟨true, 0, _, rfl, Carries.onLens Lens.gripSet_judge⟩
  case axisSet =>
    obtain ⟨rfl, rfl⟩ := Prod.mk.inj (Option.some.inj h)
    rw [slotWords_kind (by decide)]
    exact Part.takeAxis_carries _ _ _ fun n => Lens.axisSet_judge
  case compareSet =>
    obtain ⟨rfl, rfl⟩ := Prod.mk.inj (Option.some.inj h)
    rw [slotWords_kind (by decide)]
    exact Part.takeAxis_carries _ _ _ fun n => Lens.compareSet_judge
  case home =>
    obtain ⟨rfl, rfl⟩ := Prod.mk.inj (Option.some.inj h)
    rw [slotWords_kind (by decide)]
    exact Part.takeAxis_carries _ _ _ fun n => Lens.home_judge
  case move =>
    obtain ⟨rfl, rfl⟩ := Prod.mk.inj (Option.some.inj h)
    rw [slotWords_kind (by decide)]
    exact Part.takeAxis_carries _ _ _ fun n => Lens.move_judge
  case jog =>
    obtain ⟨rfl, rfl⟩ := Prod.mk.inj (Option.some.inj h)
    rw [slotWords_kind (by decide)]
    exact Part.takeAxis_carries _ _ _ fun n => Lens.jog_judge
  case stop =>
    obtain ⟨rfl, rfl⟩ := Prod.mk.inj (Option.some.inj h)
    rw [slotWords_kind (by decide)]
    exact Part.takeAxis_carries _ _ _ fun n => Lens.stop_judge
  case text =>
    obtain ⟨rfl, rfl⟩ := Prod.mk.inj (Option.some.inj h)
    rw [slotWords_kind (by decide)]
    exact ⟨true, 0, _, rfl, Carries.onOverlay fun _ hv => Overlay.text_judge hv⟩
  case textClear =>
    obtain ⟨rfl, rfl⟩ := Prod.mk.inj (Option.some.inj h)
    rw [slotWords_kind (by decide)]
    exact ⟨true, 0, _, rfl, Carries.onOverlay fun _ hv => Overlay.textClear_judge hv⟩
  case fieldSet =>
    obtain ⟨rfl, rfl⟩ := Prod.mk.inj (Option.some.inj h)
    rw [slotWords_kind (by decide)]
    exact ⟨true, 0, _, rfl, Carries.onOverlay fun _ hv => Overlay.fieldSet_judge hv⟩
  case zebraSet =>
    obtain ⟨rfl, rfl⟩ := Prod.mk.inj (Option.some.inj h)
    rw [slotWords_kind (by decide)]
    exact ⟨true, 0, _, rfl, Carries.onOverlay fun _ hv => Overlay.zebraSet_judge hv⟩
  case paletteSet =>
    obtain ⟨rfl, rfl⟩ := Prod.mk.inj (Option.some.inj h)
    rw [slotWords_kind (by decide)]
    exact ⟨true, 0, _, rfl, Carries.onOverlay fun _ hv => Overlay.paletteSet_judge hv⟩
  all_goals exact absurd h.symm (Option.some_ne_none _)

/-! ### Offers that are not carried out, and the answer of every take (R20 to R22) -/

theorem Part.take_notReady {slot : CmdSlot} {kind : Byte} {selOk : Bool} {ack : Word} {carry : Part → Part × Verdict} {p : Part}
    (h : p.bus.cmd.restart ≠ none ∨ (p.map.conflict = true ∧ kind ≠ 0x01)) :
    p.take slot kind selOk ack carry = p.takenOnly slot kind (.refuse .notReady) := by
  have busy : ((p.map.conflict && decide (kind ≠ 0x01)) || p.bus.cmd.restart.isSome) = true := by
    rw [Bool.or_eq_true, Bool.and_eq_true, decide_eq_true_eq, Option.isSome_iff_ne_none]
    exact h.symm
  unfold Part.take
  dsimp only
  rw [if_pos (by exact busy)]
  rfl

/-- RESTART alone has kind 0x02 (12.1). -/
theorem eq_restart_of_kind {c : Instr} {slot : CmdSlot} {w : SlotWords} (h : encodeSlot c = some (slot, w))
    (hk : w.kind = 0x02) : c = .restart slot := by
  have spelled := (decodeSlot_of_encodeSlot h).1
  unfold decodeSlot at spelled
  rw [hk] at spelled
  exact (Option.some.inj spelled).symm

/-- The record of a slot after its answer (R23). -/
theorem Bus.answer_slot (slot : CmdSlot) (v : Verdict) (ack : Word) (b : Bus) :
    (b.answer slot v ack).cmd.slots[slot] = { b.cmd.slots[slot] with last := v.code } := by
  simp [Bus.answer, Bus.request]

theorem Part.takeCommand_notReady {c : Instr} {slot : CmdSlot} {w : SlotWords} {p : Part} (h : encodeSlot c = some (slot, w))
    (hn : p.bus.cmd.restart ≠ none ∨ (p.map.conflict = true ∧ w.kind ≠ 0x01)) :
    p.takeCommand c = p.takenOnly slot w.kind (.refuse .notReady) := by
  by_cases hk : w.kind = 0x02
  · obtain rfl := eq_restart_of_kind h hk
    rw [hk] at hn ⊢
    show p.takeRestart slot = _
    unfold Part.takeRestart
    rw [Part.take_notReady hn]
    have answered : (p.takenOnly slot 0x02 (.refuse .notReady)).bus.cmd.slots[slot].last = .notReady :=
      congrArg SlotRecord.last (Bus.answer_slot slot (.refuse .notReady) 0 _)
    exact if_neg (by rw [answered]; exact nofun)
  · obtain ⟨selOk, ack, carry, taken, -⟩ := Part.takeCommand_eq h hk
    rw [taken]
    exact Part.take_notReady hn

/-- Settles O20: the three cases of an offer, and the command unit's own refusal. -/
theorem commandsOfferedTooSoonAreNotCarriedOut : Obligations.CommandsOfferedTooSoonAreNotCarriedOut := by
  intro c slot w s h
  have offered := exec_offers h s
  refine ⟨fun hphase => ?_, fun hphase hlast => ?_, fun hphase hlast hn => ?_⟩
  · have same : s.part.offer slot (Part.takeCommand c) = s.part := if_pos hphase
    exact offered.trans (congrArg _ (congrArg (fun p => { s with part := p }) same))
  · refine offered.trans (congrArg _ (State.onPart_congr ?_))
    unfold Part.offer
    rw [if_neg (not_not_intro hphase), if_pos hlast]
  · refine offered.trans (congrArg _ (State.onPart_congr ?_))
    unfold Part.offer
    rw [if_neg (not_not_intro hphase), if_neg hlast]
    exact Part.takeCommand_notReady h hn

/-- Settles O21: a take is a judgement carried out (`Part.takeCommand_eq`), and its answer comes last. -/
theorem takesAreAnsweredAndRefusalsChangeNothing : Obligations.TakesAreAnsweredAndRefusalsChangeNothing := by
  intro c slot w s h ready hk
  obtain ⟨selOk, ack, carry, taken, carries⟩ := Part.takeCommand_eq h hk
  obtain ⟨⟨hphase, hlast, hrestart⟩, hconflict⟩ := ready
  let q : Part := { s.part with bus := s.part.bus.beginTake slot w.kind }
  let r : Part × Verdict := if !selOk then (q, .badValue 0) else carry q
  have result : s.part.takeCommand c =
      { r.1 with bus := r.1.bus.answer slot r.2 (if r.2.code = .done then ack else 0) } := by
    have accepts : (q.map.conflict && decide (w.kind ≠ 0x01) || q.bus.cmd.restart.isSome) = false := by
      simp [q, hconflict, hrestart]
    rw [taken]
    unfold Part.take
    dsimp only
    rw [if_neg (by rw [accepts]; exact Bool.false_ne_true)]
  have takes : q.bus.SameTakes r.1.bus := by
    unfold r
    split
    · exact .refl _
    · exact carries.takes q
  have refuses (hv : r.2.code.refused = true) : r.1 = q := by
    unfold r at hv ⊢
    split
    · rfl
    · next hsel => rw [if_neg hsel] at hv; exact carries.refuses q hv
  have begun := Bus.beginTake_slot slot w.kind s.part.bus
  have uses : r.1.bus.cmd.slots[slot].uses = s.part.bus.cmd.slots[slot].uses + 1 := (takes.uses slot).trans (by rw [begun])
  have kind : r.1.bus.cmd.slots[slot].kind = w.kind := (takes.kind slot).trans (by rw [begun])
  have stepped : exec c s = .next (s.onPart fun _ =>
      { r.1 with bus := r.1.bus.answer slot r.2 (if r.2.code = .done then ack else 0) }) :=
    (exec_offers h s).trans (congrArg _ (State.onPart_congr
      ((Part.offer_accepts ⟨hphase, hlast, hrestart⟩ _).trans result)))
  refine ⟨_, r.2, if r.2.code = .done then ack else 0, stepped, rfl, rfl, ?_, ⟨r.1.bus.partQ, ?_⟩, takes.shadow, fun hv => ?_⟩
  · exact (Bus.answer_slot ..).trans (by dsimp only; rw [uses, kind])
  · exact (Bus.answer_partQ ..).trans (by rw [uses, kind])
  · have refused : r.2.code.refused = true := decide_eq_true hv
    have notDone : r.2.code ≠ .done := fun hd => by rw [hd] at hv; exact absurd hv (by decide)
    refine State.onPart_congr ?_
    rw [refuses refused, if_neg notDone]
    rfl

end Sys2Proof.Machine

end

section
/-! PROOFS. Grants of LINK requests and the check of a slot (01 section 1.4, 02 sections 2.1, 2.2 and 2.5, 12.1): the beats of the
command area, what a check reads, and the checks at INIT_DONE. -/

namespace Sys2Proof.Machine

/-! ### The grant of a LINK request (R9, R17) -/

/-- The LINK request that is next is granted (R16). -/
theorem exec_linkRequestGrant {s : State} {r : LinkReq} (h : LinkIsNext s.part r) :
    exec .linkRequestGrant s =
      .next { s with part := (s.part.linkGrant s.mem).1, mem := (s.part.linkGrant s.mem).2 } :=
  congrArg _ (if_pos (Part.nextGrant_link h))

/-- The part at the grant of its LINK request, before the beat has its effect. -/
def Part.linkGranted (p : Part) : Part := { p with link := { p.link with request := none }, lastGrant := .link }

theorem Part.linkGrant_write {p : Part} {a : Nat} {data : List Byte} {enables : List Bool} {w : WriteWatch}
    (h : p.link.request = some (.write a data enables w)) (mem : Memory) :
    p.linkGrant mem = ((p.linkGranted.watch w data enables).endBeat none false, mem.writeMasked a data enables) := by
  unfold Part.linkGrant
  rw [h]
  rfl

theorem exec_linkGrant_write {s : State} {a : Nat} {data : List Byte} {enables : List Bool} {w : WriteWatch}
    (h : LinkIsNext s.part (.write a data enables w)) :
    exec .linkRequestGrant s =
      .next { s with
        part := (s.part.linkGranted.watch w data enables).endBeat none false
        mem := s.mem.writeMasked a data enables } := by
  rw [exec_linkRequestGrant h, Part.linkGrant_write h.1]

/-! ### The beats of the command area (R19, R20) -/

theorem leNat_lt (bs : List Byte) : leNat bs < 256 ^ bs.length := by
  induction bs with
  | nil => simp [leNat]
  | cons b bs ih =>
    have hb := b.isLt
    rw [leNat, List.length_cons, Nat.pow_succ]
    omega

/-- A word of a slot is the number of its four bytes in the shadow (12.1). -/
theorem CommandUnit.word_toNat (c : CommandUnit) (slot : CmdSlot) (i : Nat) :
    (c.word slot i).toNat = leNat ((List.range 4).map fun j => c.shadow.read (64 * slot.val + (4 * i + j))) := by
  have small : c.shadow.readNat (0x40 * slot.val + 4 * i) 4 < 2 ^ 32 := by
    refine (leNat_lt _).trans_le ?_
    simp [Memory.readBytes]
  rw [CommandUnit.word, BitVec.toNat_ofNat, Nat.mod_eq_of_lt small, Memory.readNat, Memory.readBytes]
  simp only [Nat.add_assoc]

theorem CommandUnit.words_getElem (c : CommandUnit) (slot : CmdSlot) (i : Fin 16) : (c.words slot)[i] = c.word slot i.val := by
  fin_cases i <;> rfl

/-- The part once a beat of the command area is copied, with the offer that the oldest transaction carries on (R19, R20). -/
def Part.copied (offset : Nat) (data : List Byte) (enables : List Bool) (x : LinkTxn) (xs : List LinkTxn) (offered : Bool)
    (p : Part) : Part :=
  { p with
    bus := { p.bus with cmd := { p.bus.cmd with shadow := p.bus.cmd.shadow.writeMasked offset data enables } }
    link := { p.link with held := { x with offered := offered } :: xs } }

/-- The first beat of a slot offers a command where it covers word 0 with a kind, and is the last where its transaction ends. -/
theorem Part.commandBeat_first {p : Part} {x : LinkTxn} {xs : List LinkTxn} (hheld : p.link.held = x :: xs) {k : Nat}
    (hk : k < 16) (data : List Byte) (enables : List Bool) :
    p.commandBeat (64 * k) data enables =
      if coversAt enables 0 4 = true ∧ (p.bus.cmd.shadow.writeMasked (64 * k) data enables).read (64 * k) ≠ 0 then
        if x.count ≤ x.next + 1 then (p.copied (64 * k) data enables x xs false).checkSlot (Fin.ofNat 16 k)
        else p.copied (64 * k) data enables x xs true
      else p.copied (64 * k) data enables x xs false := by
  have slot : 64 * k / 64 = k := by omega
  have start : 64 * k % 64 = 0 := by omega
  have kind : 0x40 * (Fin.ofNat 16 k).val = 64 * k := by simp only [Fin.ofNat]; omega
  unfold Part.commandBeat
  dsimp only
  rw [hheld]
  dsimp only
  rw [slot, start]
  simp only [CommandUnit.kind, kind, decide_true, if_true, Bool.not_true, Bool.false_or]
  have offers : (coversAt enables 0 4 && decide ((p.bus.cmd.shadow.writeMasked (64 * k) data enables).read (64 * k) ≠ 0)) =
      decide (coversAt enables 0 4 = true ∧ (p.bus.cmd.shadow.writeMasked (64 * k) data enables).read (64 * k) ≠ 0) := by
    rw [Bool.decide_and, Bool.decide_coe]
  rw [offers]
  by_cases hc : coversAt enables 0 4 = true ∧ (p.bus.cmd.shadow.writeMasked (64 * k) data enables).read (64 * k) ≠ 0
  · rw [decide_eq_true hc, if_pos hc]
    by_cases hl : x.count ≤ x.next + 1
    · rw [decide_eq_true hl, if_pos hl]
      rfl
    · rw [decide_eq_false hl, if_neg hl]
      rfl
  · rw [decide_eq_false hc, if_neg hc, Bool.and_false, if_neg Bool.false_ne_true]
    rfl

/-- The second beat of a slot is its last. -/
theorem Part.commandBeat_second {p : Part} {x : LinkTxn} {xs : List LinkTxn} (hheld : p.link.held = x :: xs) {k : Nat}
    (data : List Byte) (enables : List Bool) :
    p.commandBeat (64 * k + 32) data enables =
      if x.offered then (p.copied (64 * k + 32) data enables x xs false).checkSlot (Fin.ofNat 16 k)
      else p.copied (64 * k + 32) data enables x xs false := by
  have slot : (64 * k + 32) / 64 = k := by omega
  have start : ¬(64 * k + 32) % 64 = 0 := by omega
  unfold Part.commandBeat
  dsimp only
  rw [hheld]
  dsimp only
  rw [slot]
  simp only [start, decide_false, Bool.not_false, Bool.true_or, Bool.true_and, Bool.false_eq_true, if_false, Bool.not_true,
    Bool.and_false]
  rfl

/-- The check of a slot is the offer of the command that its words spell (R20, R21). -/
theorem Part.checkSlot_of_decode {slot : CmdSlot} {p : Part} {c : Instr}
    (h : decodeSlot slot (p.bus.cmd.words slot) = some c) :
    p.checkSlot slot = p.offer slot (Part.takeCommand c) := by
  have taken : p.takeSlot slot = p.takeCommand c := by
    unfold Part.takeSlot
    rw [h]
  unfold Part.checkSlot Part.offer
  rw [taken]

theorem Part.takeSlot_unknown {slot : CmdSlot} {p : Part} (h : decodeSlot slot (p.bus.cmd.words slot) = none) :
    p.takeSlot slot = { p with
      bus := { p.bus with
        cmd := { p.bus.cmd with
          slots := p.bus.cmd.slots.set slot ⟨.unknownKind, p.bus.cmd.slots[slot].uses + 1, p.bus.cmd.kind slot⟩ }
        partQ := p.bus.partQ ++
          [.outcome slot .unknownKind 0 (p.bus.cmd.slots[slot].uses + 1) (p.bus.cmd.kind slot) 0] } } := by
  unfold Part.takeSlot
  rw [h]
  simp [Part.takeUnknown, Bus.answer, Bus.beginTake, Bus.request, Verdict.refuse]

/-- Settles O15: a granted beat of the command area reaches the shadow, and its slot is checked at its last beat. -/
theorem commandBeatsOfferAndCheck : Obligations.CommandBeatsOfferAndCheck := by
  refine ⟨?_, fun s slot => ?_⟩
  · intro s a k half data enables x xs hk hhalf h hheld slot shadow copied done covers
    have granted := exec_linkGrant_write h
    have heldNow : s.part.linkGranted.link.held = x :: xs := hheld
    obtain rfl | rfl : half = 0 ∨ half = 1 := by omega
    · have beat := Part.commandBeat_first heldNow hk data enables
      have result {q : Part} (hq : s.part.linkGranted.commandBeat (64 * k) data enables = q) :
          exec .linkRequestGrant s = done q := by
        rw [← hq]
        exact granted
      refine ⟨fun _ hc hl => result (beat.trans ((if_pos hc).trans (if_pos hl))),
        fun _ hc hl => result (beat.trans ((if_pos hc).trans (if_neg (by omega)))),
        fun _ hc => result (beat.trans (if_neg hc)), nofun, nofun⟩
    · have beat := Part.commandBeat_second heldNow (k := k) data enables
      have result {q : Part} (hq : s.part.linkGranted.commandBeat (64 * k + 32) data enables = q) :
          exec .linkRequestGrant s = done q := by
        rw [← hq]
        exact granted
      refine ⟨nofun, nofun, nofun, fun _ ho => result (beat.trans (if_pos ho)), fun _ ho => result (beat.trans (if_neg ?_))⟩
      rw [ho]
      exact Bool.false_ne_true
  · intro w byte r
    refine ⟨fun i => ?_, fun c hc => ?_, fun hnone => ⟨fun hphase => if_pos hphase, fun hphase hlast => ?_,
      fun hphase hlast => ?_⟩⟩
    · rw [CommandUnit.words_getElem, CommandUnit.word_toNat]
    · obtain ⟨w', hw, -⟩ := encodeSlot_of_decodeSlot hc
      exact (exec_offers hw s).trans (congrArg _ (State.onPart_congr (Part.checkSlot_of_decode hc).symm))
    · unfold Part.checkSlot Part.offer
      rw [if_neg (not_not_intro hphase), if_pos hlast]
    · unfold Part.checkSlot Part.offer
      rw [if_neg (not_not_intro hphase), if_neg hlast]
      exact Part.takeSlot_unknown hnone

/-! ### The checks at INIT_DONE (R33, R34) -/

theorem Bus.abortOthers_shadow (slot : CmdSlot) (b : Bus) : (b.abortOthers slot).cmd.shadow = b.cmd.shadow := by
  unfold Bus.abortOthers
  generalize allSlots = slots
  induction slots generalizing b with
  | nil => rfl
  | cons n slots ih =>
    rw [List.foldl_cons, ih]
    split <;> rfl

theorem Bus.restart_shadow (slot : CmdSlot) (b : Bus) : (b.restart slot).cmd.shadow = b.cmd.shadow := by
  unfold Bus.restart
  dsimp only
  rw [Bus.requestStatus_cmd, Bus.requestFactor_cmd]
  exact Bus.abortOthers_shadow slot b

theorem Part.take_shadow {carry : Part → Part × Verdict} (h : Carries carry) (slot : CmdSlot) (kind : Byte) (selOk : Bool)
    (ack : Word) (p : Part) : (p.take slot kind selOk ack carry).bus.cmd.shadow = p.bus.cmd.shadow := by
  unfold Part.take
  dsimp only
  rw [Bus.answer_shadow]
  split
  · rfl
  · split
    · rfl
    · exact (h.takes _).shadow

theorem Part.takeRestart_shadow (slot : CmdSlot) (p : Part) : (p.takeRestart slot).bus.cmd.shadow = p.bus.cmd.shadow := by
  have taken : (p.take slot 0x02 true 0 fun p => (p, .pending)).bus.cmd.shadow = p.bus.cmd.shadow :=
    Part.take_shadow (Carries.answered .pending) ..
  unfold Part.takeRestart
  dsimp only
  split
  · unfold Part.restartPoint
    dsimp only
    exact ((Part.onRecorder_sameTakes _ _).shadow.trans (Bus.restart_shadow ..)).trans taken
  · exact taken

/-- The check of a slot leaves the shadow alone. -/
theorem Part.checkSlot_shadow (slot : CmdSlot) (p : Part) : (p.checkSlot slot).bus.cmd.shadow = p.bus.cmd.shadow := by
  unfold Part.checkSlot
  obtain ⟨-, heq⟩ | ⟨-, -, heq⟩ | ⟨-, -, heq⟩ := Part.offer_cases slot (Part.takeSlot slot) p <;> rw [heq]
  · rw [Part.raise]
    exact congrArg CommandUnit.shadow (Bus.raise_cmd ..)
  · cases hd : decodeSlot slot (p.bus.cmd.words slot) with
    | none => rw [Part.takeSlot_unknown hd]
    | some c =>
      have taken : p.takeSlot slot = p.takeCommand c := by unfold Part.takeSlot; rw [hd]
      obtain ⟨w, hw, -⟩ := encodeSlot_of_decodeSlot hd
      rw [taken]
      by_cases hk : w.kind = 0x02
      · obtain rfl := eq_restart_of_kind hw hk
        exact Part.takeRestart_shadow ..
      · obtain ⟨selOk, ack, carry, heq, carries⟩ := Part.takeCommand_eq hw hk
        rw [heq]
        exact Part.take_shadow carries ..

/-- The checks of slots whose shadow shows a kind, for the shadow as it was at their beginning (R34). -/
def Part.checkShown (c : CommandUnit) (p : Part) : Part :=
  allSlots.foldl (fun p k => if c.kind k = 0 then p else p.checkSlot k) p

/-- No check changes which slots show a kind. -/
theorem Part.checkAll_eq {c : CommandUnit} {p : Part} (h : p.bus.cmd.shadow = c.shadow) : p.checkAll = p.checkShown c := by
  unfold Part.checkAll Part.checkShown
  generalize allSlots = slots
  induction slots generalizing p with
  | nil => rfl
  | cons k slots ih =>
    have shows : p.bus.cmd.kind k = c.kind k := by unfold CommandUnit.kind; rw [h]
    rw [List.foldl_cons, List.foldl_cons, shows]
    split
    · exact ih h
    · exact ih ((Part.checkSlot_shadow ..).trans h)

theorem Part.checkShown_none {c : CommandUnit} (h : ∀ k : CmdSlot, c.kind k = 0) (p : Part) : p.checkShown c = p := by
  unfold Part.checkShown
  generalize allSlots = slots
  induction slots with
  | nil => rfl
  | cons k slots ih => rw [List.foldl_cons, if_pos (h k), ih]

/-- A single slot that shows a kind is checked once. -/
theorem Part.checkShown_one {c : CommandUnit} {k : CmdSlot} (hk : c.kind k ≠ 0) (h : ∀ j : CmdSlot, j ≠ k → c.kind j = 0)
    (p : Part) : p.checkShown c = p.checkSlot k := by
  have others (slots : List CmdSlot) (hs : k ∉ slots) (p : Part) :
      slots.foldl (fun p k => if c.kind k = 0 then p else p.checkSlot k) p = p := by
    induction slots generalizing p with
    | nil => rfl
    | cons j slots ih =>
      have hj : j ≠ k := fun hj => hs (hj ▸ List.mem_cons_self)
      rw [List.foldl_cons, if_pos (h j hj)]
      exact ih (fun hm => hs (List.mem_cons_of_mem _ hm)) p
  obtain ⟨before, after, hsplit⟩ := List.append_of_mem ((by decide : ∀ j : CmdSlot, j ∈ allSlots) k)
  have once : (before ++ k :: after).Nodup := hsplit ▸ (by decide : allSlots.Nodup)
  obtain ⟨-, hafter, hdisjoint⟩ := List.nodup_append.1 once
  unfold Part.checkShown
  rw [hsplit, List.foldl_append, List.foldl_cons, others before (fun hm => hdisjoint k hm k List.mem_cons_self rfl),
    if_neg hk, others after (List.nodup_cons.1 hafter).1]

theorem Part.beginHeldMount_shadow (p : Part) : p.beginHeldMount.bus.cmd.shadow = p.bus.cmd.shadow := by
  unfold Part.beginHeldMount
  split
  · rfl
  · exact (Part.heldMount_sameTakes p).shadow

/-- The part with INIT_DONE raised, before the mount and the checks (R33, R34). -/
def Part.initDone (p : Part) : Part := { p with phase := .running, bus := (p.bus.raise .initDone).requestStatus }

/-- INIT_DONE raised (R33, R34): the mount and the checks in one of the two orders. -/
theorem Part.raiseInitDone_eq (p : Part) :
    p.raiseInitDone = p.initDone.beginHeldMount.checkAll ∨ p.raiseInitDone = p.initDone.checkAll.beginHeldMount := by
  have begun : Part.status (Part.raise .initDone { p with phase := .running }) = p.initDone := rfl
  unfold Part.raiseInitDone
  dsimp only
  rw [begun]
  split
  · exact .inl rfl
  · exact .inr rfl

/-- Settles O4: INIT_DONE is raised, and the mount and the checks follow in one of the two orders. -/
theorem initDoneRaisesTheFactorAndChecksTheSlots : Obligations.InitDoneRaisesTheFactorAndChecksTheSlots := by
  intro s hphase q mount
  have shadow : q.bus.cmd.shadow = s.part.bus.cmd.shadow :=
    congrArg CommandUnit.shadow ((Bus.requestStatus_cmd _).trans (Bus.raise_cmd ..))
  have mountShadow : q.beginHeldMount.bus.cmd.shadow = q.bus.cmd.shadow := Part.beginHeldMount_shadow q
  have stepped : exec .initDone s = .next { s with part := s.part.raiseInitDone } := congrArg _ (if_pos hphase)
  have raised : s.part.raiseInitDone = q.beginHeldMount.checkShown s.part.bus.cmd ∨
      s.part.raiseInitDone = (q.checkShown s.part.bus.cmd).beginHeldMount := by
    rw [← Part.checkAll_eq (p := q.beginHeldMount) (mountShadow.trans shadow), ← Part.checkAll_eq (p := q) shadow]
    exact Part.raiseInitDone_eq s.part
  refine ⟨fun hnone => ?_, fun k hk hothers => ⟨_, stepped, ?_⟩, _, stepped, raised⟩
  · rw [Part.checkShown_none hnone, Part.checkShown_none hnone, or_self] at raised
    rw [stepped, raised]
    rfl
  · rw [Part.checkShown_one hk hothers, Part.checkShown_one hk hothers] at raised
    exact raised

end Sys2Proof.Machine

end

section
/-! PROOFS. WRITE beats in the audio ring (10 sections 10.2 to 10.4): one sample, then the words of a beat in address order. -/

namespace Sys2Proof.Machine

/-! ### Bytes of a sample (R165) -/

theorem leBytes_length (k n : Nat) : (leBytes k n).length = k := by
  induction k generalizing n with
  | zero => rfl
  | succ k ih => rw [leBytes, List.length_cons, ih]

theorem leNat_leBytes (k n : Nat) : leNat (leBytes k n) = n % 256 ^ k := by
  induction k generalizing n with
  | zero => simp [leBytes, leNat, Nat.mod_one]
  | succ k ih =>
    have split : n % 256 ^ (k + 1) = n % 256 + 256 * (n / 256 % 256 ^ k) := by rw [Nat.pow_succ', Nat.mod_mul]
    rw [leBytes, leNat, ih, BitVec.toNat_ofNat, split]

theorem leBytes_leNat (bs : List Byte) : leBytes bs.length (leNat bs) = bs := by
  induction bs with
  | nil => rfl
  | cons b bs ih =>
    have hb := b.isLt
    have low : BitVec.ofNat 8 (b.toNat + 256 * leNat bs) = b := by
      refine BitVec.eq_of_toNat_eq ?_
      rw [BitVec.toNat_ofNat]
      omega
    have high : (b.toNat + 256 * leNat bs) / 256 = leNat bs := by omega
    rw [List.length_cons, leNat, leBytes, low, high, ih]

theorem signedBytes_length (k : Nat) (v : Int) : (signedBytes k v).length = k := leBytes_length ..

/-- The samples that three bytes can hold. -/
def IsSample (y : Int) : Prop := -8388608 ≤ y ∧ y < 8388608

/-- A sample written is the sample read back. -/
theorem sampleOf_sampleWord {y : Int} (h : IsSample y) : sampleOf (sampleWord y) = y := by
  obtain ⟨hlo, hhi⟩ := h
  have three : (signedBytes 3 y).length = 3 := signedBytes_length 3 y
  have bytes : bytesAt (sampleWord y) 1 3 = signedBytes 3 y := by
    unfold sampleWord
    match hs : signedBytes 3 y, three with
    | [a, b, c], _ => rfl
  have field : fieldAt (sampleWord y) 1 3 = (y % 16777216).toNat := by
    unfold fieldAt
    rw [bytes, signedBytes, leNat_leBytes]
    have : ((256 ^ 3 : Nat) : Int) = 16777216 := by norm_num
    rw [this]
    omega
  unfold sampleOf
  dsimp only
  rw [field]
  split <;> omega

/-- The bytes of an unchanged sample are those read. -/
theorem signedBytes_sampleOf (word : List Byte) : signedBytes 3 (sampleOf word) = bytesAt word 1 3 := by
  have three : (bytesAt word 1 3).length = 3 := by simp [bytesAt]
  have small : fieldAt word 1 3 < 16777216 := by
    refine (leNat_lt _).trans_le ?_
    simp [bytesAt]
  have number : (sampleOf word % ((256 ^ 3 : Nat) : Int)).toNat = fieldAt word 1 3 := by
    have : ((256 ^ 3 : Nat) : Int) = 16777216 := by norm_num
    rw [this]
    unfold sampleOf
    dsimp only
    split <;> omega
  have back := leBytes_leNat (bytesAt word 1 3)
  rw [three] at back
  rw [signedBytes, number]
  exact back

/-! ### One sample through its channel (R166 to R170) -/

theorem Channel.track_keeps (block : Nat) (c : Channel) :
    (c.track block).enable = c.enable ∧ (c.track block).threshold = c.threshold ∧ (c.track block).overSet = c.overSet := by
  unfold Channel.track
  split
  · exact ⟨rfl, rfl, rfl⟩
  · split <;> exact ⟨rfl, rfl, rfl⟩

theorem clipTo_natAbs_le (t : Nat) (y : Int) : (clipTo t y).natAbs ≤ t := by
  unfold clipTo clampInt; omega

theorem clipTo_natAbs_le_natAbs (t : Nat) (y : Int) : (clipTo t y).natAbs ≤ y.natAbs := by
  unfold clipTo clampInt; omega

theorem Channel.limit_off {c : Channel} (h : c.enable = false) (x : Int) : c.limit x = (c.gain, x) := by
  unfold Channel.limit; simp [h]

/-- A limited sample does not exceed its threshold (R167). -/
theorem Channel.limit_natAbs_le {c : Channel} (h : c.enable = true) (x : Int) :
    (c.limit x).2.natAbs ≤ c.threshold ∧ (c.limit x).2.natAbs ≤ fullScale := by
  unfold Channel.limit
  rw [if_neg (by rw [h]; exact Bool.false_ne_true)]
  dsimp only
  split
  · next hy => exact ⟨(clipTo_natAbs_le_natAbs ..).trans hy, clipTo_natAbs_le ..⟩
  · exact ⟨(clipTo_natAbs_le_natAbs ..).trans (clipTo_natAbs_le ..), clipTo_natAbs_le ..⟩

/-- What a sample leaves of its channel's settings, and its OVER flag (R166 to R169). -/
theorem Channel.sample_keeps (block : Nat) (x : Int) (c : Channel) :
    (c.sample block x).1.enable = c.enable ∧ (c.sample block x).1.threshold = c.threshold ∧
      (c.sample block x).1.overSet = (c.overSet || overloaded x) := by
  obtain ⟨enable, threshold, overSet⟩ := Channel.track_keeps block c
  exact ⟨enable, threshold, congrArg (· || overloaded x) overSet⟩

theorem Channel.sample_value (block : Nat) (x : Int) (c : Channel) : (c.sample block x).2 = ((c.track block).limit x).2 := rfl

/-! ### The words of a beat (R165) -/

/-- What one covered word's sample becomes, for the channel's settings before the beat (R165 to R169). -/
structure WordLimited (c : Channel) (word written : List Byte) : Prop where
  zero : written[0]? = some 0
  limited : c.enable = true → c.threshold ≤ 8388607 → (sampleOf written).natAbs ≤ c.threshold
  passed : c.enable = false → ∀ j < 3, written[1 + j]? = some (word.getD (1 + j) 0)

theorem Channel.sample_limited {c d : Channel} (he : d.enable = c.enable) (ht : d.threshold = c.threshold) (block : Nat)
    (word : List Byte) : WordLimited c word (sampleWord (d.sample block (sampleOf word)).2) := by
  obtain ⟨enable, threshold, -⟩ := Channel.track_keeps block d
  refine ⟨rfl, fun hon hmax => ?_, fun hoff j hj => ?_⟩
  · obtain ⟨below, full⟩ := Channel.limit_natAbs_le (enable.trans (he.trans hon)) (sampleOf word)
    rw [threshold, ht] at below
    rw [Channel.sample_value, sampleOf_sampleWord]
    · exact below
    · unfold IsSample
      unfold fullScale at full
      omega
  · have bytes := signedBytes_sampleOf word
    rw [Channel.sample_value, Channel.limit_off (enable.trans (he.trans hoff)), sampleWord, Nat.add_comm 1 j,
      List.getElem?_cons_succ]
    dsimp only
    rw [bytes, bytesAt, List.getElem?_map, List.getElem?_range hj]
    simp [Nat.add_comm]

/-- What the words of a beat leave behind: `c` is a channel's record before them, `d` after. -/
structure AudioKept (c d : Channel) : Prop where
  enable : d.enable = c.enable
  threshold : d.threshold = c.threshold
  overSet : c.overSet = true → d.overSet = true

theorem AudioKept.refl (c : Channel) : AudioKept c c := ⟨rfl, rfl, id⟩

theorem AudioKept.trans {c d e : Channel} (h : AudioKept c d) (h' : AudioKept d e) : AudioKept c e :=
  ⟨h'.enable.trans h.enable, h'.threshold.trans h.threshold, h'.overSet ∘ h.overSet⟩

theorem getElem_set_channel (v : Vector Channel 4) (i j : ChannelNo) (c : Channel) :
    (v.set i c)[j] = if i = j then c else v[j] := by
  simp only [Fin.getElem_fin, Vector.getElem_set, Fin.ext_iff]

/-- One word's step of the audio path (R165). -/
def AudioPass.word (data : List Byte) (en : List Bool) (o : Nat) (p : AudioPass) : AudioPass :=
  if coversAt en 0 4 then
    let r := p.channels[channelAt o].sample (o / 4096) (sampleOf (data.take 4))
    ⟨p.channels.set (channelAt o) r.1, p.bytes ++ sampleWord r.2, p.overload || overloaded (sampleOf (data.take 4))⟩
  else { p with bytes := p.bytes ++ data.take 4 }

theorem AudioPass.words_succ (n : Nat) (data : List Byte) (en : List Bool) (o : Nat) (p : AudioPass) :
    AudioPass.words (n + 1) data en o p = AudioPass.words n (data.drop 4) (en.drop 4) (o + 4) (p.word data en o) := rfl

theorem AudioPass.word_kept (data : List Byte) (en : List Bool) (o : Nat) (p : AudioPass) (i : ChannelNo) :
    AudioKept p.channels[i] (p.word data en o).channels[i] := by
  unfold AudioPass.word
  split
  · dsimp only
    by_cases hi : channelAt o = i
    · subst hi
      obtain ⟨enable, threshold, hover⟩ := Channel.sample_keeps (o / 4096) (sampleOf (data.take 4)) p.channels[channelAt o]
      rw [getElem_set_channel, if_pos rfl]
      exact ⟨enable, threshold, fun h => by rw [hover, h, Bool.true_or]⟩
    · rw [getElem_set_channel, if_neg hi]
      exact .refl _
  · exact .refl _

theorem AudioPass.word_bytes {data : List Byte} (hdata : 4 ≤ data.length) (en : List Bool) (o : Nat) (p : AudioPass) :
    ∃ w : List Byte, (p.word data en o).bytes = p.bytes ++ w ∧ w.length = 4 ∧
      (coversAt en 0 4 = false → w = data.take 4) ∧
      (coversAt en 0 4 = true → WordLimited p.channels[channelAt o] (data.take 4) w) := by
  unfold AudioPass.word
  split
  · next h => exact ⟨_, rfl, by simp [sampleWord, signedBytes_length], fun h' => absurd (h.symm.trans h') nofun,
      fun _ => Channel.sample_limited rfl rfl ..⟩
  · next h => exact ⟨_, rfl, by simp [hdata], fun _ => rfl, fun h' => absurd h' h⟩

/-- An overload sets its channel's flag and the beat's (R169). -/
theorem AudioPass.word_overload {data : List Byte} {en : List Bool} {o : Nat} {p : AudioPass}
    (hc : coversAt en 0 4 = true) (hx : overloaded (sampleOf (data.take 4)) = true) :
    (p.word data en o).overload = true ∧ (p.word data en o).channels[channelAt o].overSet = true := by
  unfold AudioPass.word
  rw [if_pos hc]
  refine ⟨by simp [hx], ?_⟩
  rw [getElem_set_channel, if_pos rfl, (Channel.sample_keeps ..).2.2, hx, Bool.or_true]

theorem AudioPass.word_overload_mono {data : List Byte} {en : List Bool} {o : Nat} {p : AudioPass} (h : p.overload = true) :
    (p.word data en o).overload = true := by
  unfold AudioPass.word
  split
  · simp [h]
  · exact h

theorem coversAt_drop (en : List Bool) (d i k : Nat) : coversAt (en.drop d) i k = coversAt en (d + i) k := by
  unfold coversAt
  refine congrArg _ (funext fun j => ?_)
  simp [List.getD_eq_getElem?_getD, List.getElem?_drop, Nat.add_assoc]

theorem AudioPass.words_kept (n : Nat) (data : List Byte) (en : List Bool) (o : Nat) (p : AudioPass) (i : ChannelNo) :
    AudioKept p.channels[i] (AudioPass.words n data en o p).channels[i] ∧
      (p.overload = true → (AudioPass.words n data en o p).overload = true) := by
  induction n generalizing data en o p with
  | zero => exact ⟨.refl _, id⟩
  | succ n ih =>
    rw [AudioPass.words_succ]
    obtain ⟨kept, hover⟩ := ih (data.drop 4) (en.drop 4) (o + 4) (p.word data en o)
    exact ⟨(AudioPass.word_kept ..).trans kept, fun h => hover (AudioPass.word_overload_mono h)⟩

/-- The bytes that the words of a beat leave, word by word (R165). -/
theorem AudioPass.words_spec {n : Nat} {data : List Byte} (hdata : 4 * n ≤ data.length) (en : List Bool) (o : Nat)
    (p : AudioPass) :
    ∃ t : List Byte, (AudioPass.words n data en o p).bytes = p.bytes ++ t ∧ t.length = 4 * n ∧
      ∀ w < n,
        (coversAt en (4 * w) 4 = false → (t.drop (4 * w)).take 4 = (data.drop (4 * w)).take 4) ∧
        (coversAt en (4 * w) 4 = true →
          WordLimited p.channels[channelAt (o + 4 * w)] ((data.drop (4 * w)).take 4) ((t.drop (4 * w)).take 4) ∧
          (overloaded (sampleOf ((data.drop (4 * w)).take 4)) = true →
            (AudioPass.words n data en o p).overload = true ∧
            (AudioPass.words n data en o p).channels[channelAt (o + 4 * w)].overSet = true)) := by
  induction n generalizing data en o p with
  | zero => exact ⟨[], by simp [AudioPass.words], rfl, nofun⟩
  | succ n ih =>
    obtain ⟨x, hx, hlen, uncovered, covered⟩ := AudioPass.word_bytes (show 4 ≤ data.length by omega) en o p
    obtain ⟨t, ht, htlen, rest⟩ := ih (data := data.drop 4) (by simp; omega) (en.drop 4) (o + 4) (p.word data en o)
    rw [AudioPass.words_succ]
    refine ⟨x ++ t, by rw [ht, hx, List.append_assoc], by simp [hlen, htlen]; omega, fun w hw => ?_⟩
    cases w with
    | zero =>
      have front : ((x ++ t).drop (4 * 0)).take 4 = x := by
        rw [Nat.mul_zero, List.drop_zero, List.take_append_of_le_length (by omega), List.take_of_length_le (by omega)]
      rw [front]
      refine ⟨uncovered, fun hc => ⟨covered hc, fun hov => ?_⟩⟩
      obtain ⟨hover, set⟩ := AudioPass.word_overload (o := o) (p := p) hc hov
      obtain ⟨kept, mono⟩ := AudioPass.words_kept n (data.drop 4) (en.drop 4) (o + 4) (p.word data en o) (channelAt o)
      exact ⟨mono hover, kept.overSet set⟩
    | succ w =>
      have shift : 4 * (w + 1) = 4 + 4 * w := by omega
      have back : ((x ++ t).drop (4 * (w + 1))).take 4 = (t.drop (4 * w)).take 4 := by
        rw [shift, List.drop_append, List.drop_of_length_le (by omega), List.nil_append, hlen, Nat.add_sub_cancel_left]
      have word : (data.drop (4 * (w + 1))).take 4 = ((data.drop 4).drop (4 * w)).take 4 := by
        rw [List.drop_drop, shift]
      have covers : coversAt en (4 * (w + 1)) 4 = coversAt (en.drop 4) (4 * w) 4 := by rw [coversAt_drop, shift]
      have offset : o + 4 * (w + 1) = o + 4 + 4 * w := by omega
      obtain ⟨hun, hcov⟩ := rest w (by omega)
      rw [back, word, covers]
      simp only [offset]
      refine ⟨hun, fun hc => ?_⟩
      obtain ⟨limited, hover⟩ := hcov hc
      obtain ⟨enable, threshold, -⟩ := AudioPass.word_kept data en o p (channelAt (o + 4 + 4 * w))
      refine ⟨⟨limited.zero, fun hon hmax => ?_, fun hoff => ?_⟩, hover⟩
      · exact (limited.limited (enable.trans hon) (threshold.le.trans hmax)).trans threshold.le
      · exact limited.passed (enable.trans hoff)

/-- Settles O8: the beat's request carries what its words leave (`AudioPass.words_spec`). -/
theorem audioBeatsCarryTheLimitedSamples : Obligations.AudioBeatsCarryTheLimitedSamples := by
  intro s a b h hwindow m hc hp hlo hhi r q q'
  have row : m.beatRow a (some b).isSome = .audioRingWrite :=
    (RegionMap.beatRow_window hwindow true).2.1.2 ⟨rfl, RegionMap.physRegion_eq_audio_iff.2 ⟨hc, hp, hlo, hhi⟩⟩
  have data : b.data.toList.length = 32 := by simp
  obtain ⟨t, ht, hlen, words⟩ := AudioPass.words_spec (n := 8) (data := b.data.toList) (by omega) b.enables.toList
    (a - m.audioBase) ⟨s.part.audio, [], false⟩
  rw [List.nil_append] at ht
  have bytes : r.bytes = t := ht
  refine ⟨congrArg _ (State.onBeat_of_handsOn h row _), by rw [bytes, hlen], fun w hw => ?_⟩
  obtain ⟨uncovered, covered⟩ := words w hw
  have byteOf (bs : List Byte) (j : Nat) (hj : j < 4) : bs[4 * w + j]? = ((bs.drop (4 * w)).take 4)[j]? := by
    rw [List.getElem?_take_of_lt hj, List.getElem?_drop]
  rw [bytes]
  refine ⟨fun hn j hj => ?_, fun hcov => ?_⟩
  · rw [byteOf t j hj, byteOf b.data.toList j hj, uncovered hn]
  · obtain ⟨limited, hover⟩ := covered hcov
    refine ⟨(byteOf t 0 (by omega)).trans limited.zero, limited.limited, fun hoff j hj => ?_, hover⟩
    rw [Nat.add_assoc, byteOf t (1 + j) (by omega), limited.passed hoff j hj, byteOf b.data.toList (1 + j) (by omega)]
    have inside : 1 + j < ((b.data.toList.drop (4 * w)).take 4).length := by simp; omega
    rw [List.getD_eq_getElem?_getD, List.getElem?_eq_getElem inside, Option.getD_some]

end Sys2Proof.Machine

end

section
/-! PROOFS. Grants of LINK requests and what they leave alone (01 sections 1.1 and 1.5, 02 sections 2.3 and 2.4, 07 section 7.3):
reads of the records, and the writes that reach memory with no further effect. -/

namespace Sys2Proof.Machine

/-! ### Reads (R17, R27, R31) -/

theorem Part.linkGrant_read {p : Part} {a : Nat} {report : Option Nat} (h : p.link.request = some (.read a report)) (mem : Memory) :
    p.linkGrant mem =
      ((match report with
        | some o => { p.linkGranted with bus := p.bus.reportRead o (mem.readBytes a 32) }
        | none => p.linkGranted).endBeat (some (mem.readBytes a 32)) false, mem) := by
  unfold Part.linkGrant
  rw [h]
  cases report <;> rfl

theorem exec_linkGrant_plainRead {s : State} {a : Nat} (h : LinkIsNext s.part (.read a none)) :
    exec .linkRequestGrant s =
      .next (s.onPart fun p => p.linkGranted.endBeat (some (s.mem.readBytes a 32)) false) := by
  rw [exec_linkRequestGrant h, Part.linkGrant_read h.1]
  rfl

theorem exec_linkGrant_reportRead {s : State} {a o : Nat} (h : LinkIsNext s.part (.read a (some o))) :
    exec .linkRequestGrant s =
      .next (s.onPart fun p =>
        { p.linkGranted with bus := s.part.bus.reportRead o (s.mem.readBytes a 32) }.endBeat (some (s.mem.readBytes a 32)) false) := by
  rw [exec_linkRequestGrant h, Part.linkGrant_read h.1]
  rfl

/-- A field of the bytes read is the number that memory holds there. -/
theorem Memory.fieldAt_readBytes (m : Memory) (a : Nat) {n i k : Nat} (h : i + k ≤ n) :
    fieldAt (m.readBytes a n) i k = leNat ((List.range k).map fun j => m.read (a + i + j)) := by
  unfold fieldAt bytesAt
  congr 1
  refine List.map_congr_left fun j hj => ?_
  have hj' := List.mem_range.1 hj
  have inside : i + j < n := by omega
  simp [Memory.readBytes, List.getD_eq_getElem?_getD, List.getElem?_range inside, Nat.add_assoc]

/-- Settles O14: a READ of a record returns it and clears what it returned (R27, R31). -/
theorem readsOfTheRecordsClearWhatTheyReturned : Obligations.ReadsOfTheRecordsClearWhatTheyReturned := by
  intro s a word done r
  have field (i k : Nat) (h : i + k ≤ 32) : fieldAt (s.mem.readBytes a 32) i k = word i k := Memory.fieldAt_readBytes _ _ h
  have result {o : Nat} {b : Bus} (h : LinkIsNext s.part (.read a (some o)))
      (hb : s.part.bus.reportRead o (s.mem.readBytes a 32) = b) : exec .linkRequestGrant s = done b := by
    rw [← hb, exec_linkGrant_reportRead h]
    rfl
  refine ⟨?_, fun h => ?_⟩
  · intro h left
    have groups : r.groups.clear (fieldAt (s.mem.readBytes a 32) 8 4) = left := by rw [field 8 4 (by omega)]
    refine ⟨fun same => result h ?_, fun changed => result h ?_⟩
    · unfold Bus.reportRead
      rw [if_pos rfl]
      exact if_pos (groups.trans same)
    · unfold Bus.reportRead
      rw [if_pos rfl]
      dsimp only
      rw [groups]
      exact if_neg changed
  · refine ⟨fun mode => result h ?_, fun mode => result h ?_⟩
    · simp [Bus.reportRead, show s.part.bus.report.clearMode = .onAck from mode]
    · unfold Bus.reportRead
      rw [field 0 4 (by omega)]
      simp [r, show s.part.bus.report.clearMode = .onRead from mode]

/-! ### Transactions (R1, R2) -/

theorem LinkPort.endBeat_cons {l : LinkPort} {x : LinkTxn} {xs : List LinkTxn} (h : l.held = x :: xs)
    (data : Option (List Byte)) (error : Bool) :
    l.endBeat data error =
      if x.count ≤ x.next + 1 then
        { l with
          held := xs ++ l.waiting.take (16 - xs.length)
          waiting := l.waiting.drop (16 - xs.length)
          response := some ⟨x.isWrite, x.results ++ data.toList, x.error || error⟩ }
      else
        { l with held := { x with
            next := x.next + 1
            results := x.results ++ data.toList
            error := x.error || error } :: xs } := by
  unfold LinkPort.endBeat
  rw [h]
  rfl

/-! ### The ring monitor at a granted beat (R117, R123) -/

/-- An event at the recording side that hands nothing over and leaves the card engine alone, at rest. -/
theorem Part.onRecorder_ring {p : Part} {f : Recorder → RecWork} {q : RingMonitor}
    (hf : f p.recd = .start { p.recd with ring := q }) (h : p.recd.card.Rests) :
    p.onRecorder f = { p with recd := { p.recd with ring := q } } := by
  have rests : (f p.recd).st.card.Rests := by rw [hf]; exact h
  unfold Part.onRecorder
  rw [Job.pump_rests rests, hf]
  rfl

/-- A beat of the record ring that only changes the ring monitor, the card engine at rest. -/
theorem Part.watch_ring {p : Part} {offset : Nat} {data : List Byte} {enables : List Bool} {q : RingMonitor}
    (hq : (Job.start p.recd).ringBeat p.map offset data enables = .start { p.recd with ring := q }) (h : p.recd.card.Rests) :
    p.watch (.ring offset) data enables = { p with recd := { p.recd with ring := q } } :=
  Part.onRecorder_ring (f := fun r => (Job.start r).ringBeat p.map offset data enables) hq h

theorem QueueEntry.any_touched_eq_false {q : List QueueEntry} {hit : QueueEntry → Bool} (h : ∀ e ∈ q, ¬hit e = true) :
    q.any hit = false := by
  rw [List.any_eq_false]
  exact h

/-- A beat away from the write front that touches no entry is no concern of the ring monitor. -/
theorem Job.ringBeat_elsewhere {r : Recorder} {map : RegionMap} {offset : Nat} {enables : List Bool}
    (h : ∀ e ∈ r.ring.queue, ¬e.touched map.ringSize offset enables = true) (hoff : offset ≠ r.ring.writeFront) (data : List Byte) :
    (Job.start r).ringBeat map offset data enables = .start r := by
  unfold Job.ringBeat
  rw [if_neg (by rw [show (Job.start r : RecWork).st.ring.queue = r.ring.queue from rfl, QueueEntry.any_touched_eq_false h]; nofun)]
  exact if_neg hoff

/-- An overrun of entries that are OVERWRITTEN already changes nothing (R124). -/
theorem Job.ringBeat_overwritten {r : Recorder} {map : RegionMap} {offset : Nat} {enables : List Bool}
    (hit : ∃ e ∈ r.ring.queue, e.touched map.ringSize offset enables = true)
    (retained : ∀ e ∈ r.ring.retainedRun, ¬e.touched map.ringSize offset enables = true)
    (marked : ∀ e ∈ r.ring.queue, e.touched map.ringSize offset enables = true → e.overwritten = true) (data : List Byte) :
    (Job.start r).ringBeat map offset data enables = .start r := by
  have touched : r.ring.queue.any (QueueEntry.touched map.ringSize offset enables) = true := List.any_eq_true.2 hit
  have fresh : (r.ring.queue.filter fun e =>
      e.isJoined && e.touched map.ringSize offset enables && !e.overwritten) = [] := by
    rw [List.filter_eq_nil_iff]
    intro e he h
    simp only [Bool.and_eq_true, Bool.not_eq_true'] at h
    exact absurd (marked e he h.1.2) (by rw [h.2]; nofun)
  unfold Job.ringBeat
  rw [show (Job.start r : RecWork).st.ring.queue = r.ring.queue from rfl, if_pos touched]
  unfold Job.overrun
  dsimp only
  rw [show (Job.start r : RecWork).st.ring.queue = r.ring.queue from rfl, fresh, List.foldl_nil]
  unfold Job.ring Job.change
  dsimp only [Job.start]
  rw [QueueEntry.any_touched_eq_false retained]
  rfl

/-- The front shadow with the enabled bytes of a beat, byte for byte. -/
theorem mergeBytes_eq {old new front : List Byte} {enables : List Bool} (ho : old.length = front.length)
    (hn : new.length = front.length) (he : enables.length = front.length)
    (h : ∀ i < front.length, front.getD i 0 = if enables.getD i false = true then new.getD i 0 else old.getD i 0) :
    mergeBytes old new enables = front := by
  induction old generalizing new front enables with
  | nil => cases front with
    | nil => rfl
    | cons f fs => cases ho
  | cons o os ih =>
    match front, new, enables, ho, hn, he with
    | f :: fs, n :: ns, e :: es, ho, hn, he =>
      have head := h 0 (by simp)
      rw [mergeBytes, ih (by simpa using ho) (by simpa using hn) (by simpa using he) fun i hi => by
        simpa using h (i + 1) (by simpa using hi)]
      simp only [List.getD_cons_zero] at head
      rw [head]

theorem bytesAt_eq_drop_take {bs : List Byte} {i k : Nat} (h : i + k ≤ bs.length) : bytesAt bs i k = (bs.drop i).take k := by
  refine List.ext_getElem? fun j => ?_
  unfold bytesAt
  by_cases hj : j < k
  · rw [List.getElem?_map, List.getElem?_range hj, List.getElem?_take_of_lt hj, List.getElem?_drop, Option.map_some,
      List.getD_eq_getElem?_getD, List.getElem?_eq_getElem (by omega), Option.getD_some]
  · rw [List.getElem?_eq_none (by simp; omega), List.getElem?_eq_none (by simp; omega)]

/-- A front beat without a length is only copied (R117). -/
theorem Job.ringBeat_front {r : Recorder} {map : RegionMap} {data front : List Byte} {enables : List Bool}
    (h : ∀ e ∈ r.ring.queue, ¬e.touched map.ringSize r.ring.writeFront enables = true)
    (hfront : mergeBytes r.ring.shadow data enables = front)
    (hlen : coversAt enables 8 4 = false ∨ fieldAt front 8 4 = 0) :
    (Job.start r).ringBeat map r.ring.writeFront data enables = .start { r with ring := { r.ring with shadow := front } } := by
  have waits : ¬(coversAt enables 8 4 && decide (fieldAt front 8 4 ≠ 0)) = true := by
    obtain hc | hz := hlen
    · rw [hc]; nofun
    · simp [hz]
  unfold Job.ringBeat
  rw [if_neg (by rw [show (Job.start r : RecWork).st.ring.queue = r.ring.queue from rfl, QueueEntry.any_touched_eq_false h]; nofun),
    if_pos (show r.ring.writeFront = (Job.start r : RecWork).st.ring.writeFront from rfl)]
  unfold Job.ring Job.change
  dsimp only [Job.start]
  rw [hfront]
  exact if_neg waits

theorem coversAt_eight {enables : List Bool} (h : ∃ i ∈ [8, 9, 10, 11], enables.getD i false = false) :
    coversAt enables 8 4 = false := by
  obtain ⟨i, hi, hf⟩ := h
  unfold coversAt
  rw [List.all_eq_false]
  refine ⟨i - 8, ?_, ?_⟩
  · simp only [List.mem_cons, List.not_mem_nil, or_false] at hi
    rw [List.mem_range]
    omega
  · simp only [List.mem_cons, List.not_mem_nil, or_false] at hi
    rw [show 8 + (i - 8) = i by omega, hf]
    nofun

/-! ### The last byte of a frame (R42) -/

theorem completes_eq_true {m : RegionMap} {o : Nat} {enables : List Bool} (hsize : 0 < m.cw * m.ch)
    (h : completes m o enables = true) : ∃ i, o + i + 1 = m.cw * m.ch * 2 ∧ enables[i]? = some true := by
  unfold completes at h
  rw [Bool.and_eq_true, decide_eq_true_iff] at h
  obtain ⟨hle, he⟩ := h
  unfold RegionMap.frameBytes at hle he
  refine ⟨m.cw * m.ch * 2 - 1 - o, by omega, ?_⟩
  rw [List.getD_eq_getElem?_getD] at he
  exact (Option.getD_eq_iff.1 he).resolve_right (by simp)

/-- Settles O13: what a granted LINK request does at memory, and which writes have no further effect. -/
theorem linkGrantsReadAndWriteMemory : Obligations.LinkGrantsReadAndWriteMemory := by
  refine ⟨?_, fun s a h => ?_, fun l x xs data error h => ?_⟩
  · intro s a data enables w h m written
    have result (q : RingMonitor)
        (hq : s.part.linkGranted.watch w data enables = { s.part.linkGranted with recd := { s.part.recd with ring := q } }) :
        written q := by
      refine ⟨_, exec_linkGrant_write h, rfl, ?_, fun hwf he x => Memory.read_writeMasked hwf a data enables he x⟩
      rw [hq]
      rfl
    refine ⟨fun hw => ?_, fun k offset hw hsize hnot => ?_, ?_⟩
    · subst hw
      exact result m rfl
    · subst hw
      refine result m (if_neg fun hc => hnot ?_)
      rw [Bool.and_eq_true] at hc
      obtain ⟨n, hk⟩ := SlotManager.isFilling_iff.1 hc.1
      exact ⟨⟨n, hk⟩, completes_eq_true hsize hc.2⟩
    · intro offset hw rests hit
      subst hw
      have ring {q : RingMonitor} (hq : (Job.start s.part.recd).ringBeat s.part.map offset data enables =
          .start { s.part.recd with ring := q }) : written q :=
        result q (Part.watch_ring (p := s.part.linkGranted) hq rests)
      refine ⟨fun none elsewhere => ring (Job.ringBeat_elsewhere none elsewhere data),
        fun touched retained marked => ring (Job.ringBeat_overwritten touched retained marked data), ?_⟩
      intro none atFront hdata henables hshadow front hfront bytes noLength
      subst atFront
      have merged : mergeBytes s.part.recd.ring.shadow data enables = front :=
        mergeBytes_eq (hshadow.trans hfront.symm) (hdata.trans hfront.symm) (henables.trans hfront.symm)
          fun i hi => bytes i (hi.trans_eq hfront)
      have field : fieldAt front 8 4 = leNat ((front.drop 8).take 4) :=
        congrArg leNat (bytesAt_eq_drop_take (by omega))
      exact ring (Job.ringBeat_front none merged (noLength.imp coversAt_eight field.trans))
  · exact exec_linkGrant_plainRead h
  · rw [LinkPort.endBeat_cons h]
    exact ⟨fun hmore => if_neg (by omega), fun hlast => if_pos hlast⟩

end Sys2Proof.Machine

end

section
/-! PROOFS. Trims of the pre-record (07 sections 7.2 and 7.4): what a trim keeps and removes, and PREREC_SET. -/

namespace Sys2Proof.Machine

/-! ### A trim (R116) -/

theorem RingMonitor.joinedRun_append_retainedRun (m : RingMonitor) : m.joinedRun ++ m.retainedRun = m.queue :=
  List.takeWhile_append_dropWhile

theorem afterGop_suffix (q : List QueueEntry) : afterGop q <:+ q := by
  cases q with
  | nil => exact List.suffix_refl _
  | cons e q => exact (List.dropWhile_suffix _).trans (List.suffix_cons ..)

theorem afterGop_length_lt {q : List QueueEntry} (h : q ≠ []) : (afterGop q).length < q.length := by
  cases q with
  | nil => exact absurd rfl h
  | cons e q => exact Nat.lt_succ_of_le (List.dropWhile_suffix _).length_le

theorem RingMonitor.trim_queue (R : Nat) (m : RingMonitor) : (m.trim R).queue = m.joinedRun ++ afterGop m.retainedRun := rfl

theorem RingMonitor.trim_sublist (R : Nat) (m : RingMonitor) : (m.trim R).queue.Sublist m.queue := by
  rw [RingMonitor.trim_queue]
  conv_rhs => rw [← m.joinedRun_append_retainedRun]
  exact (afterGop_suffix _).sublist.append_left _

/-- A trim keeps the joined run at the front. -/
theorem RingMonitor.joinedRun_prefix_trim (R : Nat) (m : RingMonitor) : m.joinedRun <+: (m.trim R).joinedRun := by
  have joined : m.joinedRun.takeWhile QueueEntry.isJoined = m.joinedRun :=
    List.takeWhile_eq_self_iff.2 fun _ he => List.mem_takeWhile_imp he
  unfold RingMonitor.joinedRun at joined ⊢
  rw [RingMonitor.trim_queue, RingMonitor.joinedRun, List.takeWhile_append_of_pos fun _ he => List.mem_takeWhile_imp he]
  exact List.prefix_append ..

theorem RingMonitor.retainedRun_ne_nil {m : RingMonitor} {e : QueueEntry} (he : e ∈ m.queue) (hr : e.isRetained = true) :
    m.retainedRun ≠ [] := by
  intro h
  have joined := List.dropWhile_eq_nil_iff.1 h e he
  rw [QueueEntry.isJoined, hr] at joined
  cases joined

theorem RingMonitor.trim_length_lt {R : Nat} {m : RingMonitor} (h : m.retainedRun ≠ []) :
    (m.trim R).queue.length < m.queue.length := by
  rw [RingMonitor.trim_queue, ← m.joinedRun_append_retainedRun, List.length_append, List.length_append]
  exact Nat.add_lt_add_left (afterGop_length_lt h) _

theorem RingMonitor.retainedRun_of_videoFrames {m : RingMonitor} (h : 0 < m.videoFrames) : m.retainedRun ≠ [] := by
  obtain ⟨e, he, hv⟩ := List.countP_pos_iff.1 h
  rw [Bool.and_eq_true] at hv
  exact RingMonitor.retainedRun_ne_nil he hv.1

/-! ### Trim for depth (R122) -/

/-- What the trims of a ring monitor keep: `m` before them, `m'` after. -/
structure RingMonitor.Trims (m m' : RingMonitor) : Prop where
  depth : m'.depth = m.depth
  writeFront : m'.writeFront = m.writeFront
  shadow : m'.shadow = m.shadow
  queue : m'.queue.Sublist m.queue
  joined : m.joinedRun <+: m'.joinedRun

theorem RingMonitor.Trims.refl (m : RingMonitor) : m.Trims m := ⟨rfl, rfl, rfl, .refl _, List.prefix_refl _⟩

theorem RingMonitor.Trims.trans {a b c : RingMonitor} (h : a.Trims b) (h' : b.Trims c) : a.Trims c :=
  ⟨h'.depth.trans h.depth, h'.writeFront.trans h.writeFront, h'.shadow.trans h.shadow, h'.queue.trans h.queue,
    h.joined.trans h'.joined⟩

theorem RingMonitor.trims_trim (R : Nat) (m : RingMonitor) : m.Trims (m.trim R) :=
  ⟨rfl, rfl, rfl, m.trim_sublist R, m.joinedRun_prefix_trim R⟩

theorem RingMonitor.trimDepthFor_of_le {R : Nat} {m : RingMonitor} (h : m.videoFrames ≤ m.depth) (fuel : Nat) :
    m.trimDepthFor R fuel = m := by
  cases fuel with
  | zero => rfl
  | succ fuel => exact if_neg (by omega)

theorem RingMonitor.trims_trimDepthFor (R fuel : Nat) (m : RingMonitor) : m.Trims (m.trimDepthFor R fuel) := by
  induction fuel generalizing m with
  | zero => exact .refl m
  | succ fuel ih =>
    unfold RingMonitor.trimDepthFor
    split
    · exact (m.trims_trim R).trans (ih _)
    · exact .refl m

/-- The trims end with no more RETAINED VIDEO frames than the depth: each removes an entry. -/
theorem RingMonitor.trimDepthFor_videoFrames {R fuel : Nat} {m : RingMonitor} (h : m.queue.length ≤ fuel) :
    (m.trimDepthFor R fuel).videoFrames ≤ m.depth := by
  induction fuel generalizing m with
  | zero =>
    have empty : m.queue = [] := List.length_eq_zero_iff.1 (Nat.le_zero.1 h)
    simp [RingMonitor.trimDepthFor, RingMonitor.videoFrames, empty]
  | succ fuel ih =>
    unfold RingMonitor.trimDepthFor
    split
    · next hover =>
      have shorter := RingMonitor.trim_length_lt (R := R) (RingMonitor.retainedRun_of_videoFrames (m := m) (by omega))
      exact ih (by omega)
    · next hover => omega

theorem RingMonitor.trimDepth_of_le {R : Nat} {m : RingMonitor} (h : m.videoFrames ≤ m.depth) : m.trimDepth R = m :=
  RingMonitor.trimDepthFor_of_le h _

theorem RingMonitor.trims_trimDepth (R : Nat) (m : RingMonitor) : m.Trims (m.trimDepth R) := RingMonitor.trims_trimDepthFor ..

theorem RingMonitor.trimDepth_videoFrames (R : Nat) (m : RingMonitor) : (m.trimDepth R).videoFrames ≤ m.depth :=
  RingMonitor.trimDepthFor_videoFrames le_rfl

/-! ### PREREC_SET (R122) -/

theorem Recorder.prerecSet_eq (map : RegionMap) (depth : Nat) (r : Recorder) :
    r.prerecSet map depth =
      if 600 < depth then (r, .badValue 1)
      else ({ r with ring :=
        if r.card.recState = .armed then { r.ring with depth := depth }
        else RingMonitor.trimDepth map.ringSize { r.ring with depth := depth } }, .done) := by
  unfold Recorder.prerecSet
  rw [firstFailure_operandTest decide_le_eq_false_iff]
  by_cases h : 600 < depth
  · rw [if_pos h, if_pos h]
  · rw [if_neg h, if_neg h]
    rfl

theorem exec_prerecSet_of_ready {slot : CmdSlot} {depth : Word} {s : State} {r : Recorder} {v : Verdict}
    (h : Ready slot s.part) (hset : s.part.recd.prerecSet s.part.map depth.toNat = (r, v)) :
    exec (.prerecSet slot depth) s = .next (s.onPart fun p => { p.afterTake slot 0x30 [] v with recd := r }) :=
  (State.offered_take (kind := 0x30) (carry := fun p : Part => p.onRecSetting (Recorder.prerecSet p.map (num depth))) h
    (by simp only [Part.onRecSetting, hset]; rfl)).trans (congrArg _ (State.onPart_congr rfl))

/-- Settles O41: the one test of R122, then the depth with its trims (`RingMonitor.Trims`). -/
theorem prerecSetTrimsForTheDepth : Obligations.PrerecSetTrimsForTheDepth := by
  intro slot depth s h m
  have judged := Recorder.prerecSet_eq s.part.map depth.toNat s.part.recd
  refine ⟨fun hbad => ?_, fun hok => ?_⟩
  · rw [if_pos hbad] at judged
    exact (exec_prerecSet_of_ready h judged).trans (congrArg _ (State.onPart_congr rfl))
  · rw [if_neg (Nat.not_lt.2 hok)] at judged
    refine ⟨_, exec_prerecSet_of_ready h judged, ?_⟩
    have trims := RingMonitor.trims_trimDepth s.part.map.ringSize { m with depth := depth.toNat }
    by_cases armed : s.part.recd.card.recState = .armed
    · rw [if_pos armed]
      exact ⟨rfl, rfl, rfl, fun _ => rfl, fun hnot => absurd armed hnot⟩
    · rw [if_neg armed]
      refine ⟨trims.depth, trims.writeFront, trims.shadow, fun hle => ?_, fun _ => ⟨?_, trims.queue, ?_⟩⟩
      · exact RingMonitor.trimDepth_of_le (m := { m with depth := depth.toNat }) (hle.resolve_left armed)
      · exact RingMonitor.trimDepth_videoFrames s.part.map.ringSize { m with depth := depth.toNat }
      · exact trims.joined.trans (List.takeWhile_prefix _)

end Sys2Proof.Machine

end

section
/-! PROOFS. Gyro samples (04 sections 4.1, 4.4 and 4.8): what a sample does in each mode, and the rows that name one of its cases. -/

namespace Sys2Proof.Machine

variable {st : Stabiliser} {yaw pitch : Int}

/-! ### A sample by mode (R57, R59, R60, R73) -/

theorem Job.sample_off (h : st.mode = .off) (a : GyroAnswer) : (Job.start st).sample a = .start st := by
  cases st
  cases h
  cases a <;> rfl

theorem Job.validSample_active (h : st.mode = .active) :
    (Job.start st).validSample yaw pitch = .start { st with
      yaw := st.yaw.integrate st.rate st.lTrack st.lPan yaw
      pitch := st.pitch.integrate st.rate st.lTrack st.lPan pitch
      missingRun := 0 } := by
  cases st
  cases h
  rfl

theorem Job.validSample_hold (h : st.mode = .hold) :
    (Job.start st).validSample yaw pitch =
      if st.validRun + 1 < 16 then .start { st.both (StabAxis.drain st.lPan) with validRun := st.validRun + 1 }
      else ⟨{ st.both (StabAxis.drain st.lPan) with mode := .active, validRun := 0, missingRun := 0 }, [.raise .gyroBack]⟩ := by
  cases st
  cases h
  rfl

theorem Job.missingSample_active (h : st.mode = .active) :
    (Job.start st).missingSample =
      if st.missingRun + 1 < 8 then .start { st with missingRun := st.missingRun + 1 }
      else ⟨{ st.both (StabAxis.drain st.lPan) with mode := .hold, validRun := 0, missingRun := 0 }, [.raise .gyroLost]⟩ := by
  cases st
  cases h
  rfl

theorem Job.missingSample_hold (h : st.mode = .hold) :
    (Job.start st).missingSample = .start { st.both (StabAxis.drain st.lPan) with validRun := 0 } := by
  cases st
  cases h
  rfl

theorem Job.missingSample_calibrating (h : st.mode = .calibrating) : (Job.start st).missingSample = .start st := by
  cases st
  cases h
  rfl

/-! ### Calibration (R73, R74) -/

/-- A sample within reach of the first one of its calibration, where there is one. -/
def Calibration.steady (yaw pitch : Int) (c : Calibration) : Prop :=
  ∀ y0 p0, c.first = some (y0, p0) → (yaw - y0).natAbs ≤ 640 ∧ (pitch - p0).natAbs ≤ 640

/-- A calibration with one more sample counted and summed. -/
def Calibration.count1 (yaw pitch : Int) (c : Calibration) : Calibration :=
  { c with
    count := c.count + 1
    first := some (c.first.getD (yaw, pitch))
    sumYaw := c.sumYaw + yaw
    sumPitch := c.sumPitch + pitch }

/-- The calibration ended with both biases at the rounded means. -/
def Stabiliser.calibrated (c : Calibration) (st : Stabiliser) : Stabiliser :=
  { st.endCalibration c with
    yaw := { st.yaw with bias := roundDiv c.sumYaw 256 }
    pitch := { st.pitch with bias := roundDiv c.sumPitch 256 } }

theorem still_iff {first raw : Int} : still first raw = true ↔ (raw - first).natAbs ≤ 640 := decide_eq_true_iff

/-- Both readings lie within reach of the first ones. -/
theorem still_and_iff {y0 p0 : Int} :
    (still y0 yaw && still p0 pitch) = true ↔ (yaw - y0).natAbs ≤ 640 ∧ (pitch - p0).natAbs ≤ 640 := by
  rw [Bool.and_eq_true, still_iff, still_iff]

theorem Job.calibrate_steady {c : Calibration} (h : c.steady yaw pitch) :
    (Job.start st).calibrate yaw pitch c =
      if c.count + 1 < 256 then .start { st with cal := some (c.count1 yaw pitch) }
      else ⟨st.calibrated (c.count1 yaw pitch), [.raise .calDone, .finish c.slot .done 0]⟩ := by
  obtain ⟨slot, toActive, n, _ | ⟨y0, p0⟩, sy, sp⟩ := c
  · rfl
  · have near := still_and_iff.2 (h y0 p0 rfl)
    unfold Job.calibrate
    dsimp only
    rw [near]
    rfl

theorem Job.calibrate_moved {c : Calibration} (h : ¬c.steady yaw pitch) :
    (Job.start st).calibrate yaw pitch c = ⟨st.endCalibration c, [.raise .calFailed, .finish c.slot .failed 1]⟩ := by
  obtain ⟨slot, toActive, n, _ | ⟨y0, p0⟩, sy, sp⟩ := c
  · exact absurd nofun h
  · have far : (still y0 yaw && still p0 pitch) = false := by
      refine Bool.eq_false_iff.2 fun near => h fun y p hyp => ?_
      cases hyp
      exact still_and_iff.1 near
    unfold Job.calibrate
    dsimp only
    rw [far]
    rfl

theorem Job.validSample_calibrating {c : Calibration} (h : st.mode = .calibrating) (hc : st.cal = some c) :
    (Job.start st).validSample yaw pitch = (Job.start st).calibrate yaw pitch c := by
  unfold Job.validSample
  dsimp only [Job.start]
  rw [h, hc]

/-! ### The rows -/

/-- A sample that reaches the stabiliser, by what it leaves there and hands over (R53). -/
theorem Part.gyro_of_running {p : Part} {a : GyroAnswer} {t : Stabiliser} {outs : List Out} (h : p.phase = .running)
    (hj : (Job.start p.stab).sample a = ⟨t, outs⟩) : p.gyro a = { p with stab := t, bus := p.bus.meetAll outs } := by
  have reached : p.gyro a = p.onStab fun j => j.sample a := if_pos h
  rw [reached]
  unfold Part.onStab
  dsimp only
  rw [hj]

theorem exec_gyroSample_of_running {s : State} {a : GyroAnswer} {t : Stabiliser} {outs : List Out}
    (h : s.part.phase = .running) (hj : (Job.start s.part.stab).sample a = ⟨t, outs⟩) :
    exec (.gyroSample a) s = .next (s.onPart fun p => { p with stab := t, bus := p.bus.meetAll outs }) :=
  congrArg _ (State.onPart_congr (Part.gyro_of_running h hj))

/-- Settles O50: a sample by the mode it meets. -/
theorem gyroSamplesAreIntegrated : Obligations.GyroSamplesAreIntegrated := by
  intro s yaw pitch hrun st units leak moved limited integrated drained
  have silent {a : GyroAnswer} {t : Stabiliser} (hj : (Job.start s.part.stab).sample a = .start t) :
      exec (.gyroSample a) s = .next (s.onPart fun p => { p with stab := t }) := exec_gyroSample_of_running hrun hj
  refine ⟨silent (a := .overtaken) rfl, fun hoff => ⟨silent (Job.sample_off hoff _), silent (Job.sample_off hoff _)⟩,
    fun hactive => ⟨silent (Job.validSample_active hactive), fun hrun' => silent (a := .missing) ?_⟩,
    fun hhold => ⟨fun hrun' => silent (a := .valid yaw pitch) ?_, silent (Job.missingSample_hold hhold)⟩⟩
  · exact (Job.missingSample_active hactive).trans (if_pos (by omega))
  · exact (Job.validSample_hold hhold).trans (if_pos (by omega))

/-- Settles O51: the eighth missing sample, the sixteenth valid one, and the samples of a calibration. -/
theorem gyroIsLostComesBackAndIsCalibrated : Obligations.GyroIsLostComesBackAndIsCalibrated := by
  refine ⟨?_, ?_⟩
  · intro s hrun st drained
    refine ⟨fun hactive hmissing => ?_, fun hhold hvalid => ?_, ?_⟩
    · have due : s.part.stab.lostNext = true := by simp [Stabiliser.lostNext, show s.part.stab.mode = _ from hactive,
        show s.part.stab.missingRun = _ from hmissing]
      refine congrArg _ ((if_pos due).trans (State.onPart_congr ?_))
      exact Part.gyro_of_running (a := .missing) hrun ((Job.missingSample_active hactive).trans (if_neg (by omega)))
    · have due : s.part.stab.backNext = true := by simp [Stabiliser.backNext, show s.part.stab.mode = _ from hhold,
        show s.part.stab.validRun = _ from hvalid]
      refine congrArg _ ((if_pos due).trans (State.onPart_congr ?_))
      exact Part.gyro_of_running (a := .valid 0 0) hrun ((Job.validSample_hold hhold).trans (if_neg (by omega)))
    · intro yaw pitch slot back y0 p0 sy sp hmode hcal hy hp
      have steady : Calibration.steady yaw.toInt pitch.toInt ⟨slot, back, 255, some (y0, p0), sy, sp⟩ := by
        intro y p hyp
        cases hyp
        exact ⟨hy, hp⟩
      have due : s.part.stab.calNext yaw pitch = true := by
        simp [Stabiliser.calNext, show s.part.stab.mode = _ from hmode, show s.part.stab.cal = _ from hcal, still_iff, gyroRaw,
          hy, hp]
      refine congrArg _ ((if_pos due).trans (State.onPart_congr ?_))
      exact Part.gyro_of_running (a := .valid yaw pitch) hrun ((Job.validSample_calibrating hmode hcal).trans
        ((Job.calibrate_steady steady).trans (if_neg (by dsimp only; omega))))
  · intro s yaw pitch slot back n first sy sp hrun hmode hcal near
    have sample {t : Stabiliser} {outs : List Out}
        (hj : (Job.start s.part.stab).calibrate yaw.toInt pitch.toInt ⟨slot, back, n, first, sy, sp⟩ = ⟨t, outs⟩) :=
      exec_gyroSample_of_running (a := .valid yaw pitch) hrun ((Job.validSample_calibrating hmode hcal).trans hj)
    refine ⟨exec_gyroSample_of_running (a := .missing) hrun (Job.missingSample_calibrating hmode), fun hnear hn => ?_, fun hfar => ?_⟩
    · exact sample ((Job.calibrate_steady (c := ⟨slot, back, n, first, sy, sp⟩) hnear).trans (if_pos (by dsimp only; omega)))
    · exact sample (Job.calibrate_moved (c := ⟨slot, back, n, first, sy, sp⟩) hfar)

end Sys2Proof.Machine

end

section
/-! PROOFS. What the PART class keeps, what the card engine does by itself while it drains nothing, and the beginning of a mount
(01 section 1.5, 08 sections 8.2 and 8.3). -/

namespace Sys2Proof.Machine

/-! ### The PART class (R15) -/

/-- A PART request that no overrun changes. -/
def PartReq.Plain (r : PartReq) : Prop := ∀ n, r.overwrite n = r

theorem Bus.mem_partQ_request {r : PartReq} {b : Bus} (h : r ∈ b.partQ) (x : PartReq) : r ∈ (b.request x).partQ :=
  List.mem_append_left _ h

theorem Bus.mem_partQ_requestStatus {r : PartReq} {b : Bus} (h : r ∈ b.partQ) : r ∈ b.requestStatus.partQ := by
  unfold Bus.requestStatus
  split
  · exact h
  · exact Bus.mem_partQ_request h _

theorem Bus.status_mem_requestStatus (b : Bus) : PartReq.status ∈ b.requestStatus.partQ := by
  unfold Bus.requestStatus
  split
  · assumption
  · exact List.mem_append_right _ (List.mem_singleton.2 rfl)

theorem Bus.mem_partQ_requestFactor {r : PartReq} {b : Bus} (h : r ∈ b.partQ) : r ∈ b.requestFactor.partQ := by
  unfold Bus.requestFactor
  split
  · exact h
  · exact Bus.mem_partQ_request h _

theorem Bus.mem_partQ_setPending {r : PartReq} {b : Bus} (h : r ∈ b.partQ) (w : Word) : r ∈ (b.setPending w).partQ := by
  unfold Bus.setPending
  split
  · exact h
  · exact Bus.mem_partQ_requestFactor h

theorem Bus.mem_partQ_raise {r : PartReq} {b : Bus} (h : r ∈ b.partQ) (f : Factor) : r ∈ (b.raise f).partQ :=
  Bus.mem_partQ_setPending h _

theorem Bus.mem_partQ_answer {r : PartReq} {b : Bus} (h : r ∈ b.partQ) (slot : CmdSlot) (v : Verdict) (ack : Word) :
    r ∈ (b.answer slot v ack).partQ := by
  rw [Bus.answer_partQ]
  exact List.mem_append_left _ h

theorem Bus.mem_partQ_meet {r : PartReq} (hr : r.Plain) {b : Bus} (h : r ∈ b.partQ) (o : Out) : r ∈ (b.meet o).partQ := by
  cases o with
  | raise f => exact Bus.mem_partQ_raise h f
  | finish slot c d => exact Bus.mem_partQ_answer h ..
  | status => exact Bus.mem_partQ_requestStatus h
  | request x => exact Bus.mem_partQ_request h x
  | overwrite n => exact List.mem_map.2 ⟨r, h, hr n⟩

theorem Bus.mem_partQ_meetAll {r : PartReq} (hr : r.Plain) (os : List Out) {b : Bus} (h : r ∈ b.partQ) :
    r ∈ (b.meetAll os).partQ := by
  induction os generalizing b with
  | nil => exact h
  | cons o os ih => exact ih (Bus.mem_partQ_meet hr h o)

theorem Part.mem_partQ_deliverRec {r : PartReq} (hr : r.Plain) {p : Part} (h : r ∈ p.bus.partQ) (o : RecOut) :
    r ∈ (p.deliverRec o).bus.partQ := by
  cases o with
  | bus o => exact Bus.mem_partQ_meet hr h o
  | recState x => exact h
  | recStarted => exact Bus.mem_partQ_meetAll hr _ h

theorem Part.mem_partQ_onRecorder {r : PartReq} (hr : r.Plain) {p : Part} (h : r ∈ p.bus.partQ) (f : Recorder → RecWork) :
    r ∈ (p.onRecorder f).bus.partQ := by
  have delivered (os : List RecOut) {q : Part} (hq : r ∈ q.bus.partQ) : r ∈ (os.foldl Part.deliverRec q).bus.partQ := by
    induction os generalizing q with
    | nil => exact hq
    | cons o os ih => exact ih (Part.mem_partQ_deliverRec hr hq o)
  exact delivered _ (q := { p with recd := ((f p.recd).pump p.map).st }) h

theorem Part.onRecorder_recd (f : Recorder → RecWork) (p : Part) : (p.onRecorder f).recd = ((f p.recd).pump p.map).st := by
  rw [Part.onRecorder_frame]

theorem Part.onRecorder_map (f : Recorder → RecWork) (p : Part) : (p.onRecorder f).map = p.map := by
  rw [Part.onRecorder_frame]

/-! ### The card engine by itself while nothing drains (R133) -/

variable {j : RecWork}

theorem Job.stopProgress_undrained (h : j.st.card.recState.drains = false) (map : RegionMap) : j.stopProgress map = j := by
  have going : decide (j.st.card.recState = .stopping) = false :=
    decide_eq_false fun hs => by rw [hs] at h; cases h
  unfold Job.stopProgress
  split
  · rfl
  · rw [going, Bool.false_and, Bool.false_and, Bool.false_and, if_neg Bool.false_ne_true]

theorem Job.nextUnit_undrained (h : j.st.card.recState.drains = false) (map : RegionMap) : j.nextUnit map = j := by
  unfold Job.nextUnit
  split
  · rw [h, Bool.and_false, if_neg Bool.false_ne_true]
  · rfl

theorem Job.requestChunk_undrained (h : j.st.card.recState.drains = false) (map : RegionMap) : j.requestChunk map = j := by
  unfold Job.requestChunk
  split
  · rw [h, Bool.and_false, if_neg Bool.false_ne_true]
  · rfl

theorem Job.pump_undrained (h : j.st.card.recState.drains = false) (map : RegionMap) : j.pump map = (j.makeRequest map).issue := by
  unfold Job.pump
  rw [Job.stopProgress_undrained h, Job.nextUnit_undrained h]

/-- Nothing drains and no directory WRITE is ready: the card engine makes no request. -/
theorem Job.makeRequest_of_noJobs (h : j.st.card.recState.drains = false) (hd : j.st.card.dirJobs = []) (map : RegionMap) :
    j.makeRequest map = j := by
  unfold Job.makeRequest
  dsimp only
  rw [hd]
  split
  · rfl
  · exact Job.requestChunk_undrained h map

/-- What the card engine changes by itself while it drains nothing. -/
def CardEngine.busied (c : CardEngine) (request : Option CardReq) (mountCmd : Option CardCmd) (inFlight : Option InFlight)
    (bufA bufB : StagingBuffer) : CardEngine :=
  { c with request := request, mountCmd := mountCmd, inFlight := inFlight, bufA := bufA, bufB := bufB }

theorem Job.makeRequest_undrained (h : j.st.card.recState.drains = false) (map : RegionMap) :
    ∃ r, j.makeRequest map = j.card fun c => { c with request := r } := by
  unfold Job.makeRequest
  dsimp only
  rw [Job.requestChunk_undrained h]
  split
  · exact ⟨j.st.card.request, rfl⟩
  · split
    · split
      · split
        · exact ⟨_, rfl⟩
        · exact ⟨j.st.card.request, rfl⟩
      · exact ⟨j.st.card.request, rfl⟩
    · exact ⟨j.st.card.request, rfl⟩

theorem Job.issue_frame (j : RecWork) : ∃ m f a b, j.issue = j.card fun c => c.busied c.request m f a b := by
  unfold Job.issue
  dsimp only
  split
  · exact ⟨j.st.card.mountCmd, j.st.card.inFlight, j.st.card.bufA, j.st.card.bufB, rfl⟩
  · split
    · exact ⟨_, _, _, _, rfl⟩
    · split
      · exact ⟨j.st.card.mountCmd, _, j.st.card.bufA, j.st.card.bufB, rfl⟩
      · split
        · next n _ _ _ => cases n <;> exact ⟨j.st.card.mountCmd, _, _, _, rfl⟩
        · exact ⟨j.st.card.mountCmd, j.st.card.inFlight, j.st.card.bufA, j.st.card.bufB, rfl⟩

theorem Job.pump_undrained_frame (h : j.st.card.recState.drains = false) (map : RegionMap) :
    ∃ r m f a b, j.pump map = j.card fun c => c.busied r m f a b := by
  obtain ⟨r, hr⟩ := Job.makeRequest_undrained h map
  obtain ⟨m, f, a, b, hi⟩ := Job.issue_frame (j.makeRequest map)
  rw [Job.pump_undrained h, hi, hr]
  exact ⟨r, m, f, a, b, rfl⟩

/-! ### Changes of state (R137) -/

theorem Job.setRec_st (j : RecWork) (r : RecState) :
    (j.setRec r).st = { j.st with card := { j.st.card with recState := r } } := by
  unfold Job.setRec
  dsimp only
  split_ifs with h
  · rw [h]
  all_goals rfl

/-- The record state that goes with a change of the card state. -/
def CardEngine.recAfter (s : CardState) (c : CardEngine) : RecState :=
  if s = c.state then c.recState
  else if s = .ready then (if c.recState = .idle then .standby else c.recState)
  else if c.recState = .standby then .idle else c.recState

theorem Job.setCard_st (j : RecWork) (s : CardState) :
    (j.setCard s).st = { j.st with card := { j.st.card with state := s, recState := j.st.card.recAfter s } } := by
  unfold Job.setCard CardEngine.recAfter
  by_cases hs : s = j.st.card.state
  · rw [if_pos hs, if_pos hs, hs]
  · rw [if_neg hs, if_neg hs]
    dsimp only
    by_cases hr : s = .ready
    · rw [if_pos hr, if_pos hr]
      by_cases hi : j.st.card.recState = .idle
      · exact (congrArg Job.st (if_pos hi)).trans ((Job.setRec_st ..).trans (by rw [if_pos hi]; rfl))
      · exact (congrArg Job.st (if_neg hi)).trans (by rw [if_neg hi]; rfl)
    · rw [if_neg hr, if_neg hr]
      by_cases hb : j.st.card.recState = .standby
      · exact (congrArg Job.st (if_pos hb)).trans ((Job.setRec_st ..).trans (by rw [if_pos hb]; rfl))
      · exact (congrArg Job.st (if_neg hb)).trans (by rw [if_neg hb]; rfl)

/-! ### A mount begins (R138) -/

theorem Job.startMount_card (h : j.st.card.recState = .idle) :
    j.startMount.st.card = { j.st.card with
      state := .mounting
      mountCmd := some .ident
      dirJobs := []
      request := none } := by
  have idle : j.st.card.recAfter .mounting = .idle := by simp [CardEngine.recAfter, h]
  have after : j.startMount.st = { (j.setCard .mounting).st with
      card := { (j.setCard .mounting).st.card with mountCmd := some .ident, dirJobs := [], request := none } } := rfl
  rw [after, Job.setCard_st, idle, ← h]

/-- A mount in progress once its IDENT is under way where no other card command is. -/
structure CardEngine.Mounting (old c : CardEngine) : Prop where
  state : c.state = .mounting
  recState : c.recState = .idle
  ident : old.inFlight = none → c.inFlight = some ⟨.ident, false⟩

/-- A mount that has begun has its IDENT issued at once where no command is in flight (R133). -/
theorem Job.pump_startMount (h : j.st.card.recState = .idle) (map : RegionMap) :
    j.st.card.Mounting (j.startMount.pump map).st.card ∧ (j.startMount.pump map).st.card.mirror = j.st.card.mirror ∧
      (j.startMount.pump map).st.card.freeUnits = j.st.card.freeUnits := by
  have card := Job.startMount_card h
  have undrained : j.startMount.st.card.recState.drains = false := by rw [card]; simp [h, RecState.drains]
  have pumped : j.startMount.pump map = j.startMount.issue := by
    rw [Job.pump_undrained undrained, Job.makeRequest_of_noJobs undrained (by rw [card])]
  have flight : j.startMount.st.card.inFlight = j.st.card.inFlight := by rw [card]
  obtain ⟨m, f, a, b, frame⟩ := Job.issue_frame j.startMount
  have fields : j.startMount.issue.st.card = j.startMount.st.card.busied j.startMount.st.card.request m f a b := by
    rw [frame]
    rfl
  rw [pumped]
  refine ⟨⟨by rw [fields, card]; rfl, by rw [fields, card]; exact h, fun hn => ?_⟩, by rw [fields, card]; rfl,
    by rw [fields, card]; rfl⟩
  unfold Job.issue
  dsimp only
  rw [if_neg (by rw [flight, hn]; nofun), show j.startMount.st.card.mountCmd = some .ident by rw [card]]
  rfl

/-- The mirrors dropped, and a card in place mounted again (R8). -/
theorem Job.privateMoved_mounts (hp : j.st.card.present = true) (he : j.st.card.ejected = false) (map : RegionMap) :
    j.st.card.Mounting (j.privateMoved.pump map).st.card ∧ (j.privateMoved.pump map).st.card.mirror = none ∧
      (j.privateMoved.pump map).st.card.freeUnits = 0 := by
  have due : (j.st.card.present && !j.st.card.ejected) = true := by rw [hp, he]; rfl
  have moved : j.privateMoved = ((j.card CardEngine.dropMirrors).setRec .idle).startMount := if_pos due
  have before : ((j.card CardEngine.dropMirrors).setRec .idle).st.card =
      { j.st.card with mirror := none, freeUnits := 0, recState := .idle } := Job.setRec_card ..
  rw [moved]
  obtain ⟨mounting, mirror, free⟩ := Job.pump_startMount (j := (j.card CardEngine.dropMirrors).setRec .idle)
    (by rw [before]) map
  rw [before] at mounting mirror free
  exact ⟨⟨mounting.state, mounting.recState, mounting.ident⟩, mirror, free⟩

/-- The mirrors dropped where no card is in place to be mounted (R8). -/
theorem Job.privateMoved_rests (h : j.st.card.present = false ∨ j.st.card.ejected = true)
    (hd : j.st.card.recState.drains = false) (map : RegionMap) :
    (j.privateMoved.pump map).st.card.state = j.st.card.state ∧
      (j.privateMoved.pump map).st.card.recState = j.st.card.recState ∧
      (j.privateMoved.pump map).st.card.mirror = none ∧ (j.privateMoved.pump map).st.card.freeUnits = 0 := by
  have notDue : ¬(j.st.card.present && !j.st.card.ejected) = true := by
    obtain hp | he := h
    · rw [hp]; nofun
    · rw [he, Bool.not_true, Bool.and_false]; nofun
  have moved : j.privateMoved = j.card CardEngine.dropMirrors := if_neg notDue
  obtain ⟨r, m, f, a, b, frame⟩ := Job.pump_undrained_frame (j := j.card CardEngine.dropMirrors) hd map
  rw [moved, frame]
  exact ⟨rfl, rfl, rfl, rfl⟩

end Sys2Proof.Machine

end

section
/-! PROOFS. REGION (01 section 1.3): its judgement in order, and what an accepted one does to the blocks that follow the map. -/

namespace Sys2Proof.Machine

/-! ### The judgement (R7) -/

/-- The operand that an index names has a legal value (section 1.3). -/
def RegionOperands.goodOperand (o : RegionOperands) : Nat → Bool
  | 1 => decide (o.privBase % 4096 = 0)
  | 2 => decide (o.audioBase % 4096 = 0)
  | 3 => decide (o.audioSize % 4096 = 0) && within 0x4000 0x100000 o.audioSize
  | 4 => decide (o.ringBase % 4096 = 0)
  | 5 => decide (o.ringSize % 0x200000 = 0) && within 0x800000 0x8000000 o.ringSize
  | 6 => decide (o.slotBase % 32 = 0)
  | 7 => within 3 8 o.slotCount
  | 8 => decide (o.vw % 16 = 0) && within 64 1920 o.vw
  | 9 => within 16 1080 o.vh
  | 10 => within o.vw 4096 o.cw && decide ((o.cw - o.vw) % 4 = 0)
  | 11 => within o.vh 2304 o.ch && decide ((o.ch - o.vh) % 2 = 0)
  | _ => true

/-- Tests of operands in index order. -/
def indexTests (good : Nat → Bool) (a k : Nat) : List Check := (List.range' a k).map fun n => operandTest n (good n)

theorem RegionOperands.tests_eq (o : RegionOperands) : o.tests = indexTests o.goodOperand 1 11 := rfl

theorem firstFailure_indexTests_all {good : Nat → Bool} (h : ∀ n, good n = true) (a k : Nat) (rest : List Check) :
    firstFailure (indexTests good a k ++ rest) = firstFailure rest := by
  induction k generalizing a with
  | zero => rfl
  | succ k ih =>
    change firstFailure (operandTest a (good a) :: (indexTests good (a + 1) k ++ rest)) = _
    rw [h a]
    exact ih (a + 1)

theorem firstFailure_indexTests_some {good : Nat → Bool} {n : Nat} (hbad : good n = false) {a k : Nat}
    (hbefore : ∀ x < n, good x = true) (hlo : a ≤ n) (hhi : n < a + k) (rest : List Check) :
    firstFailure (indexTests good a k ++ rest) = some (.badValue n) := by
  induction k generalizing a with
  | zero => omega
  | succ k ih =>
    change firstFailure (operandTest a (good a) :: (indexTests good (a + 1) k ++ rest)) = _
    obtain rfl | hne := eq_or_ne a n
    · rw [hbad]
      rfl
    · rw [hbefore a (by omega)]
      exact ih (by omega) (by omega)

theorem disjoint_iff {a b : Nat × Nat} : disjoint a b = true ↔ Apart a b := by simp [disjoint, Apart]

/-- The regions share no byte, pair by pair. -/
def RegionMap.RegionsApart (m : RegionMap) : Prop :=
  let priv := (m.privBase, 0x40000)
  let audio := (m.audioBase, m.audioSize)
  let ring := (m.ringBase, m.ringSize)
  let area := (m.slotBase, m.slotCount * m.pitch)
  let control := (m.controlBase, 0x800)
  Apart priv audio ∧ Apart priv ring ∧ Apart priv area ∧ Apart priv control ∧ Apart audio ring ∧ Apart audio area ∧
    Apart audio control ∧ Apart ring area ∧ Apart ring control ∧ Apart area control

theorem RegionMap.allDisjoint_regions_iff {m : RegionMap} : allDisjoint m.regions = true ↔ m.RegionsApart := by
  simp only [RegionMap.regions, allDisjoint, List.all_cons, List.all_nil, Bool.and_true, Bool.and_eq_true, disjoint_iff,
    RegionMap.RegionsApart, RegionMap.slotArea, privSize, controlSize, and_assoc]

theorem RegionOperands.placed_iff {o : RegionOperands} {m : RegionMap} :
    (o.map m).Placed ↔
      (o.privBase + 0x40000 ≤ 0x10000000 ∧ o.audioBase + o.audioSize ≤ 0x10000000 ∧ o.ringBase + o.ringSize ≤ 0x10000000 ∧
        o.slotBase + o.slotCount * (o.map m).pitch ≤ 0x10000000) ∧ (o.map m).RegionsApart := Iff.rfl

theorem Part.regionBusy_eq_false_iff {privBase : Nat} {p : Part} : p.regionBusy privBase = false ↔ p.RegionFree privBase := by
  have unfilled : p.slots.filling = none ↔ p.slots.Unfilled := by
    refine ⟨SlotManager.filling_eq_none, fun h => ?_⟩
    cases hf : p.slots.filling with
    | none => rfl
    | some x => exact absurd (SlotManager.filling_eq_some (k := x.1) (n := x.2) hf) (h _ _)
  simp only [Part.regionBusy, Part.RegionFree, Bool.or_eq_false_iff, Option.isSome_eq_false_iff, Option.isNone_iff_eq_none,
    unfilled, Bool.not_eq_false', List.isEmpty_iff, Bool.or_eq_true, decide_eq_true_eq, Bool.and_eq_false_iff,
    decide_eq_false_iff_not, not_not, and_assoc]

/-- The tests of a REGION behind those of its operands, in order (R7). -/
theorem Part.firstFailure_regionTests {o : RegionOperands} (h : ∀ n, o.goodOperand n = true) (p : Part) :
    firstFailure (p.regionTests o) =
      if 0x10000000 < o.privBase + 0x40000 then some (.badValue 1)
      else if 0x10000000 < o.audioBase + o.audioSize then some (.badValue 2)
      else if 0x10000000 < o.ringBase + o.ringSize then some (.badValue 4)
      else if 0x10000000 < o.slotBase + o.slotCount * (o.map p.map).pitch then some (.badValue 6)
      else if allDisjoint (o.map p.map).regions = false then some (.refuse .overlap)
      else if (!p.regionBusy o.privBase) = false then some (.refuse .busy) else none := by
  unfold Part.regionTests
  dsimp only
  rw [RegionOperands.tests_eq, List.append_assoc, firstFailure_indexTests_all h, RegionMap.extentTests, List.cons_append,
    firstFailure_operandTest decide_le_eq_false_iff, List.cons_append,
    firstFailure_operandTest decide_le_eq_false_iff, List.cons_append,
    firstFailure_operandTest decide_le_eq_false_iff, List.cons_append,
    firstFailure_operandTest decide_le_eq_false_iff, List.nil_append,
    firstFailure_ownerTest Iff.rfl, firstFailure_ownerTest Iff.rfl]
  rfl

theorem RegionOperands.goodOperand_of_legal {o : RegionOperands} (h : o.Legal) (n : Nat) : o.goodOperand n = true := by
  obtain ⟨h1, h2, ⟨h3, h3'⟩, h4, ⟨h5, h5'⟩, h6, h7, ⟨h8, h8'⟩, h9, ⟨h10, h10', h10''⟩, h11, h11', h11''⟩ := h
  unfold RegionOperands.goodOperand
  split <;> simp [within, Nat.mod_eq_zero_of_dvd, *]

/-- A REGION that R7 accepts. -/
theorem Part.region_accepted {o : RegionOperands} {p : Part} (hlegal : o.Legal) (hplaced : (o.map p.map).Placed)
    (hfree : p.RegionFree o.privBase) : p.region o = (p.applyRegion (o.map p.map), .done) := by
  obtain ⟨⟨h1, h2, h3, h4⟩, apart⟩ := RegionOperands.placed_iff.1 hplaced
  have passed : firstFailure (p.regionTests o) = none := by
    rw [Part.firstFailure_regionTests (RegionOperands.goodOperand_of_legal hlegal), if_neg (Nat.not_lt.2 h1),
      if_neg (Nat.not_lt.2 h2), if_neg (Nat.not_lt.2 h3), if_neg (Nat.not_lt.2 h4),
      if_neg (by rw [RegionMap.allDisjoint_regions_iff.2 apart]; nofun),
      if_neg (by rw [Part.regionBusy_eq_false_iff.2 hfree]; nofun)]
  unfold Part.region
  rw [passed]

theorem Part.region_refused {o : RegionOperands} {p : Part} {v : Verdict} (h : firstFailure (p.regionTests o) = some v) :
    p.region o = (p, v) := by
  unfold Part.region
  rw [h]

/-! ### The take -/

/-- REGION in an accepting slot, by its judgement on the part that took it. -/
theorem exec_region_of_accepts {slot : CmdSlot} {a b c d e f g h i j k : Word} {s : State} {q : Part} {v : Verdict}
    (hs : Accepts slot s.part)
    (hq : Part.region ⟨a.toNat, b.toNat, c.toNat, d.toNat, e.toNat, f.toNat, g.toNat, h.toNat, i.toNat, j.toNat, k.toNat⟩
      { s.part with bus := s.part.bus.beginTake slot 0x01 } = (q, v)) :
    exec (.region slot a b c d e f g h i j k) s = .next (s.onPart fun _ => { q with bus := q.bus.answer slot v 0 }) := by
  refine (State.offered_of_accepts hs _).trans (congrArg _ (State.onPart_congr ?_))
  unfold Part.takeRegion
  rw [Part.take_region hs]
  have carried : Part.region ⟨num a, num b, num c, num d, num e, num f, num g, num h, num i, num j, num k⟩
      { s.part with bus := s.part.bus.beginTake slot 0x01 } = (q, v) := hq
  rw [carried]

theorem Bus.answer_last (slot : CmdSlot) (v : Verdict) (ack : Word) (b : Bus) :
    (b.answer slot v ack).cmd.slots[slot].last = v.code := by
  rw [Bus.answer_slot]

/-! ### The effect (R8) -/

theorem RegionMap.sameSlots_iff {a b : RegionMap} :
    a.sameSlots b = true ↔ a.slotBase = b.slotBase ∧ a.slotCount = b.slotCount ∧ a.cw = b.cw ∧ a.ch = b.ch ∧ a.vw = b.vw ∧
      a.vh = b.vh := by
  simp [RegionMap.sameSlots, and_assoc]

theorem channelsMap_getElem (f : Channel → Channel) (v : Vector Channel 4) (n : ChannelNo) : (channelsMap f v)[n] = f v[n] := by
  fin_cases n <;> rfl

theorem Part.remapped_card (m : RegionMap) (p : Part) : (p.remapped m).recd.card = p.recd.card := by
  unfold Part.remapped
  dsimp only
  split <;> rfl

theorem Part.heldMount_map (p : Part) : p.heldMount.map = p.map := by
  unfold Part.heldMount
  split
  · exact Part.onRecorder_map ..
  · rfl

theorem Part.heldMount_partQ {r : PartReq} (hr : r.Plain) {p : Part} (h : r ∈ p.bus.partQ) : r ∈ p.heldMount.bus.partQ := by
  unfold Part.heldMount
  split
  · exact Part.mem_partQ_onRecorder hr h _
  · exact h

theorem Part.heldMount_of_mounting {p : Part} (h : p.recd.card.state = .mounting) : p.heldMount = p := by
  unfold Part.heldMount CardEngine.mountDue
  rw [h, if_neg]
  simp

/-- A held mount that is due begins (R134). -/
theorem Part.heldMount_mounts {p : Part} (hp : p.recd.card.present = true) (he : p.recd.card.ejected = false)
    (hs : p.recd.card.state = .absent) (hr : p.recd.card.recState = .idle) :
    p.recd.card.Mounting p.heldMount.recd.card := by
  have due : p.recd.card.mountDue = true := by simp [CardEngine.mountDue, hp, he, hs]
  have begins : p.heldMount = p.onRecorder fun r => (Job.start r).startMount := if_pos due
  rw [begins, Part.onRecorder_recd]
  exact (Job.pump_startMount (j := .start p.recd) hr p.map).1

section
variable {m : RegionMap} {p q : Part}

theorem Part.privateMove_kept (h : m.privBase = p.map.privBase) : p.privateMove m q = q := if_pos h

theorem Part.privateMove_map : (p.privateMove m q).map = q.map := by
  unfold Part.privateMove
  split
  · rfl
  · exact Part.onRecorder_map ..

theorem Part.privateMove_card (h : m.privBase ≠ p.map.privBase) :
    (p.privateMove m q).recd.card = ((Job.start q.recd).privateMoved.pump q.map).st.card := by
  unfold Part.privateMove
  rw [if_neg h, Part.onRecorder_recd]

/-- The zeroing of the area at a `privBase` that moved is requested (R8). -/
theorem Part.privateMove_zero (h : m.privBase ≠ p.map.privBase) :
    PartReq.zero m.privBase 1024 ∈ (p.privateMove m q).bus.partQ := by
  unfold Part.privateMove
  rw [if_neg h]
  refine Part.mem_partQ_onRecorder (fun _ => rfl) (p := { q with bus := q.bus.request (.zero m.privBase 1024) }) ?_ _
  exact List.mem_append_right _ (List.mem_singleton.2 rfl)

theorem Part.privateMove_mounts (h : m.privBase ≠ p.map.privBase) (hp : q.recd.card.present = true)
    (he : q.recd.card.ejected = false) : q.recd.card.Mounting (p.privateMove m q).recd.card := by
  rw [Part.privateMove_card h]
  exact (Job.privateMoved_mounts (j := .start q.recd) hp he q.map).1

end

/-- The part after a REGION that ends the conflict state, before the answer (R8). -/
def Part.settled (m : RegionMap) (p : Part) : Part := (p.privateMove m (p.remapped m)).status.heldMount

theorem Part.settled_mounts {m : RegionMap} {p : Part} (hp : p.recd.card.present = true) (he : p.recd.card.ejected = false)
    (hs : p.recd.card.state = .absent) (hr : p.recd.card.recState = .idle) :
    p.recd.card.Mounting (p.settled m).recd.card := by
  have card := Part.remapped_card m p
  unfold Part.settled
  by_cases hm : m.privBase = p.map.privBase
  · rw [Part.privateMove_kept hm, ← card]
    rw [← card] at hp he hs hr
    exact Part.heldMount_mounts (p := (p.remapped m).status) hp he hs hr
  · rw [← card] at hp he
    have mounting := Part.privateMove_mounts (q := p.remapped m) hm hp he
    rw [Part.heldMount_of_mounting (p := (p.privateMove m (p.remapped m)).status) mounting.state, ← card]
    exact mounting

/-- Settles O25: the tests of R7 in order, and the effect of R8 on each block that follows the map. -/
theorem regionReplacesTheMap : Obligations.RegionReplacesTheMap := by
  refine ⟨?_, ?_, ?_⟩
  · intro slot a b c d e f g h i j k s hs o m hlegal hplaced hfree hpriv hconflict
    let p1 : Part := { s.part with bus := s.part.bus.beginTake slot 0x01 }
    have effect : p1.applyRegion m = p1.remapped m := by
      rw [Part.applyRegion_eq, if_neg (by rw [show p1.map.conflict = false from hconflict]; nofun), Part.privateMove_kept hpriv]
    have judged : p1.region o = (p1.remapped m, .done) := by
      rw [Part.region_accepted (p := p1) hlegal hplaced hfree, ← effect]
    refine ⟨_, exec_region_of_accepts hs judged, rfl, rfl, rfl, rfl, rfl, ?_, rfl, fun n => ?_, fun hsame => if_pos hsame, ?_,
      rfl, rfl, rfl⟩
    · exact if_congr RegionMap.sameSlots_iff rfl rfl
    · change (if m.audioBase = s.part.map.audioBase ∧ m.audioSize = s.part.map.audioSize then s.part.audio
        else channelsMap Channel.ringMoved s.part.audio)[n] = _
      by_cases hsame : m.audioBase = s.part.map.audioBase ∧ m.audioSize = s.part.map.audioSize
      · rw [if_pos hsame]
        exact (if_pos hsame).symm
      · rw [if_neg hsame, channelsMap_getElem]
        exact (if_neg hsame).symm
    · intro hgrid
      have regrid : (p1.remapped m).overlay = s.part.overlay.regrid m.vw m.vh :=
        if_neg fun hsame => hgrid.elim (· hsame.1) (· hsame.2)
      exact ⟨(congrArg Overlay.columns regrid :), (congrArg Overlay.rows regrid :), (congrArg Overlay.snapshot regrid :),
        (congrArg Overlay.palette regrid :)⟩
  · intro slot a b c d e f g h i j k s hs o m card mounting hlegal hplaced hfree
    let p1 : Part := { s.part with bus := s.part.bus.beginTake slot 0x01 }
    have before : (p1.remapped m).recd.card = card := Part.remapped_card m p1
    have judged : p1.region o = (p1.applyRegion m, .done) := Part.region_accepted (p := p1) hlegal hplaced hfree
    refine ⟨fun hpriv hconflict => ?_, fun hconflict => ?_⟩
    · have hmoved : m.privBase ≠ p1.map.privBase := hpriv
      have effect : p1.applyRegion m = p1.privateMove m (p1.remapped m) := by
        rw [Part.applyRegion_eq, if_neg (by rw [show p1.map.conflict = false from hconflict]; nofun)]
      rw [effect] at judged
      have undrained : (p1.remapped m).recd.card.recState.drains = false := by
        rw [before]
        obtain ⟨-, -, -, -, hidle | hstandby, -⟩ := hfree
        · rw [show card.recState = .idle from hidle]; rfl
        · rw [show card.recState = .standby from hstandby]; rfl
      have moved := Part.privateMove_card (q := p1.remapped m) hmoved
      have place := Job.privateMoved_mounts (j := .start (p1.remapped m).recd) (map := (p1.remapped m).map)
      have rests := Job.privateMoved_rests (j := .start (p1.remapped m).recd) (map := (p1.remapped m).map)
      rw [show (Job.start (p1.remapped m).recd : RecWork).st.card = card from before] at place rests
      have dropped : (p1.privateMove m (p1.remapped m)).recd.card.mirror = none ∧
          (p1.privateMove m (p1.remapped m)).recd.card.freeUnits = 0 := by
        rw [moved]
        by_cases hp : card.present = true ∧ card.ejected = false
        · exact (place hp.1 hp.2).2
        · rw [not_and_or, Bool.not_eq_true, Bool.not_eq_false] at hp
          exact (rests hp (by rw [← before]; exact undrained)).2.2
      refine ⟨_, exec_region_of_accepts hs judged, rfl, Part.privateMove_map, Bus.answer_last _ _ _ _,
        Bus.mem_partQ_answer (Part.privateMove_zero hmoved) .., dropped.1, dropped.2, fun hp he => ?_, fun hnot => ?_⟩
      · have mounts := (place hp he).1
        rw [← moved] at mounts
        exact ⟨mounts.state, mounts.recState, mounts.ident⟩
      · have kept := rests hnot (by rw [← before]; exact undrained)
        rw [← moved] at kept
        exact ⟨kept.1, kept.2.1⟩
    · have effect : p1.applyRegion m = p1.settled m := by
        rw [Part.applyRegion_eq, if_pos (show p1.map.conflict = true from hconflict)]
        rfl
      rw [effect] at judged
      have map : (p1.settled m).map = m := (Part.heldMount_map _).trans Part.privateMove_map
      refine ⟨_, exec_region_of_accepts hs judged, rfl, map, congrArg RegionMap.conflict map, Bus.answer_last _ _ _ _,
        Bus.mem_partQ_answer (Part.heldMount_partQ (fun _ => rfl) (Bus.status_mem_requestStatus _)) .., fun hpriv => ?_,
        fun hp he hstate hrec => ?_⟩
      · exact Bus.mem_partQ_answer (Part.heldMount_partQ (fun _ => rfl)
          (Bus.mem_partQ_requestStatus (Part.privateMove_zero (p := p1) (m := m) hpriv))) ..
      · have mounts := Part.settled_mounts (m := m) (p := p1) hp he hstate hrec
        exact ⟨mounts.state, mounts.recState, mounts.ident⟩
  · intro slot a b c d e f g h i j k s hs o m ok fits refused
    let p1 : Part := { s.part with bus := s.part.bus.beginTake slot 0x01 }
    have refuses {v : Verdict} (hv : firstFailure (p1.regionTests o) = some v) : refused v :=
      (exec_region_of_accepts hs (Part.region_refused hv)).trans (congrArg _ (State.onPart_congr rfl))
    have good (n : Nat) : o.goodOperand n = true ↔ ok n := by
      match n with
      | 1 | 2 | 4 | 6 => simp [RegionOperands.goodOperand, ok, Nat.dvd_iff_mod_eq_zero]
      | 3 | 5 | 7 | 8 | 9 | 10 | 11 => simp [RegionOperands.goodOperand, ok, within, Nat.dvd_iff_mod_eq_zero, and_assoc]
      | 0 => simp [RegionOperands.goodOperand, ok]
      | n + 12 => simp [RegionOperands.goodOperand, ok]
    refine ⟨fun n hbefore hbad => refuses ?_, fun hok => ?_⟩
    · have range : 1 ≤ n ∧ n < 1 + 11 := by
        refine ⟨Nat.pos_of_ne_zero fun h0 => hbad ?_, Nat.lt_of_not_le fun hn => hbad ?_⟩
        · rw [h0]
          exact trivial
        · obtain ⟨x, rfl⟩ : ∃ x, n = x + 12 := ⟨n - 12, by omega⟩
          exact trivial
      unfold Part.regionTests
      dsimp only
      rw [RegionOperands.tests_eq, List.append_assoc]
      exact firstFailure_indexTests_some (Bool.eq_false_iff.2 (hbad ∘ (good n).1)) (fun x hx => (good x).2 (hbefore x hx))
        range.1 range.2 _
    · have judged := Part.firstFailure_regionTests (fun n => (good n).2 (hok n)) p1
      have inside {base size : Nat} (hf : fits base size) : ¬0x10000000 < base + size := Nat.not_lt.2 hf
      have beyond {base size : Nat} (hf : ¬fits base size) : 0x10000000 < base + size := Nat.lt_of_not_le hf
      refine ⟨fun h1 => refuses ?_, fun h1 h2 => refuses ?_, fun h1 h2 h3 => refuses ?_, fun h1 h2 h3 => ⟨fun h4 => refuses ?_,
        fun h4 hplaced => refuses ?_, fun hplaced hbusy => refuses ?_⟩⟩
      · rw [judged, if_pos (beyond h1)]
      · rw [judged, if_neg (inside h1), if_pos (beyond h2)]
      · rw [judged, if_neg (inside h1), if_neg (inside h2), if_pos (beyond h3)]
      · rw [judged, if_neg (inside h1), if_neg (inside h2), if_neg (inside h3), if_pos (beyond h4)]
      · have shared : allDisjoint (o.map p1.map).regions = false :=
          Bool.eq_false_iff.2 fun hd => hplaced ⟨⟨h1, h2, h3, h4⟩, RegionMap.allDisjoint_regions_iff.1 hd⟩
        rw [judged, if_neg (inside h1), if_neg (inside h2), if_neg (inside h3), if_neg (inside h4), if_pos shared]
      · obtain ⟨⟨-, -, -, h4⟩, apart⟩ := RegionOperands.placed_iff.1 hplaced
        have busy : (!p1.regionBusy o.privBase) = false := by
          rw [Bool.not_eq_false', ← Bool.not_eq_false]
          exact hbusy ∘ Part.regionBusy_eq_false_iff.1
        rw [judged, if_neg (inside h1), if_neg (inside h2), if_neg (inside h3), if_neg (Nat.not_lt.2 h4),
          if_neg (by rw [RegionMap.allDisjoint_regions_iff.2 apart]; nofun), if_pos busy]

end Sys2Proof.Machine

end

section
/-! PROOFS. VIEW_READ (01 section 1.4, 03 sections 3.4 and 3.5): the beats that keep their slot, and what a latch changes. -/

namespace Sys2Proof.Machine

/-! ### The readers' records -/

/-- The other view reader. -/
def otherReader : Reader → Reader
  | .enc => .vf
  | .vf => .enc

variable {m : SlotManager} {r : Reader}

@[simp] theorem SlotManager.reader_setReader (r : Reader) (v : ViewReader) (m : SlotManager) :
    (m.setReader r v).reader r = v := by cases r <;> rfl

@[simp] theorem SlotManager.reader_other_setReader (r : Reader) (v : ViewReader) (m : SlotManager) :
    (m.setReader r v).reader (otherReader r) = m.reader (otherReader r) := by cases r <;> rfl

@[simp] theorem SlotManager.setReader_freeOrder (r : Reader) (v : ViewReader) (m : SlotManager) :
    (m.setReader r v).freeOrder = m.freeOrder := by cases r <;> rfl

theorem SlotManager.setReader_self (r : Reader) (m : SlotManager) : m.setReader r (m.reader r) = m := by cases r <;> rfl

theorem SlotManager.frameIn_of_complete {k : Nat} {f : CompleteFrame} (h : m.table[k]? = some (.complete f)) :
    m.frameIn k = some f := by
  unfold SlotManager.frameIn
  rw [h]

theorem SlotManager.attached_iff (r : Reader) {k : Nat} :
    m.attached k = true ↔ (m.reader r).slot = some k ∨ (m.reader (otherReader r)).slot = some k := by
  cases r
  · simp [SlotManager.attached, SlotManager.reader, otherReader]
  · simp [SlotManager.attached, SlotManager.reader, otherReader, or_comm]

/-! ### A view beat (R45 to R48) -/

variable {map : RegionMap} {o : Nat}

/-- The record of a reader's beat: its line (R45). -/
def SlotManager.lined (r : Reader) (y : Nat) (m : SlotManager) : SlotManager :=
  m.setReader r { m.reader r with lastLine := y }

theorem SlotManager.viewBeat_beyond (h : map.vh ≤ map.viewLine o) :
    m.viewBeat r map o = (m.lined r (map.viewLine o), .blankLine, false) := by
  have off : (decide (map.viewLine o < map.vh) && m.latches r (map.viewLine o)) = false := by
    rw [decide_eq_false (Nat.not_lt.2 h), Bool.false_and]
  unfold SlotManager.viewBeat
  dsimp only
  rw [off, if_neg Bool.false_ne_true, if_pos h]
  rfl

theorem SlotManager.viewBeat_stays {k : Nat} {f : CompleteFrame} (h : map.viewLine o < map.vh)
    (hl : m.latches r (map.viewLine o) = false) (hslot : (m.reader r).slot = some k)
    (hk : m.table[k]? = some (.complete f)) :
    m.viewBeat r map o =
      (m.lined r (map.viewLine o), .source (map.sourceAt k (map.viewPixel o) (map.viewLine o) f), false) := by
  have frame : (m.lined r (map.viewLine o)).frameIn k = some f :=
    SlotManager.frameIn_of_complete (by rw [SlotManager.lined, SlotManager.setReader_table, hk])
  unfold SlotManager.lined at frame ⊢
  unfold SlotManager.viewBeat
  dsimp only at frame ⊢
  rw [hl, Bool.and_false, if_neg Bool.false_ne_true, if_neg (Nat.not_le.2 h), SlotManager.reader_setReader]
  dsimp only
  rw [hslot]
  dsimp only
  rw [hslot] at frame
  rw [frame]

theorem SlotManager.latches_eq_false_iff {y : Nat} :
    m.latches r y = false ↔ y ≠ 0 ∨ ((m.reader r).lastLine = 0 ∧ (m.reader r).slot ≠ none) := by
  simp [SlotManager.latches, Option.isSome_iff_ne_none, imp_iff_not_or]

/-! ### The row -/

/-- Where a reader's window begins (1.2). -/
def viewBase : Reader → Nat
  | .enc => 0x14000000
  | .vf => 0x18000000

theorem readerAt_viewBase (h : o < 0x4000000) : readerAt (viewBase r + o) = r ∧ viewOffset (viewBase r + o) = o := by
  unfold readerAt viewOffset viewBase vfBase encBase
  cases r
  · exact ⟨if_pos (by dsimp only; omega), (if_pos (by dsimp only; omega)).trans (Nat.add_sub_cancel_left ..)⟩
  · exact ⟨if_neg (by dsimp only; omega), (if_neg (by dsimp only; omega)).trans (Nat.add_sub_cancel_left ..)⟩

theorem exec_viewRead_of_handsOn {s : State} (h : HandsOn s.part (viewBase r + o) none) (ho : o < 0x4000000) :
    exec .viewRead s = .next (s.onPart (Part.viewBeat (.handed (viewBase r + o) none))) := by
  have inside : captureBase ≤ viewBase r + o ∧ encBase ≤ viewBase r + o ∧ viewBase r + o < holeBase := by
    unfold captureBase encBase holeBase viewBase
    cases r <;> exact ⟨by dsimp only; omega, by dsimp only; omega, by dsimp only; omega⟩
  have row : s.part.map.beatRow (viewBase r + o) (none : Option WriteBeat).isSome = .viewRead :=
    (RegionMap.beatRow_beyond inside.1 false).2.1.2 ⟨inside.2.1, inside.2.2, rfl⟩
  exact congrArg _ (State.onBeat_of_handsOn h row _)

/-- The beat of a view pixel answered (R14). -/
def Part.viewAnswered (r : Reader) (x y : Nat) (q : Part) : ViewAnswer → Part
  | .blankLine => q.endBeat (some zeroBeat) false
  | .noFrame => q.endBeat (some (q.viewData r x y blackBeat)) false
  | .source a => q.linkRequest (.view r a y x)

/-- A view beat by the slot manager's answer (R14). -/
theorem Part.viewBeat_eq {p : Part} {t : SlotManager} {answer : ViewAnswer} {latched : Bool} (ho : o < 0x4000000)
    (h : p.slots.viewBeat r p.map o = (t, answer, latched)) :
    p.viewBeat (.handed (viewBase r + o) none) =
      Part.viewAnswered r (p.map.viewPixel o) (p.map.viewLine o)
        { p with
          slots := t
          overlay := if latched && decide (r = .vf) then p.overlay.takeSnapshot t.vfFrames else p.overlay } answer := by
  obtain ⟨reader, offset⟩ := readerAt_viewBase (r := r) ho
  unfold Part.viewBeat
  simp only [LinkBeat.handed_addr, reader, offset, h]
  cases answer <;> rfl

/-- Settles O11: a beat beyond the view frame, and one that keeps its slot. -/
theorem viewBeatsReadThroughTheCrop : Obligations.ViewBeatsReadThroughTheCrop := by
  intro s r o ho m base y x h
  have hands : HandsOn s.part (viewBase r + o) none := by cases r <;> exact h
  have row := exec_viewRead_of_handsOn hands ho
  refine ⟨fun hbeyond => row.trans (congrArg _ (State.onPart_congr ?_)), ?_⟩
  · exact Part.viewBeat_eq ho (SlotManager.viewBeat_beyond (m := s.part.slots) (r := r) (map := s.part.map) (o := o) hbeyond)
  · intro k f hy hslot hk hstay
    refine row.trans (congrArg _ (State.onPart_congr ?_))
    have keeps : s.part.slots.latches r (s.part.map.viewLine o) = false :=
      SlotManager.latches_eq_false_iff.2 (hstay.imp id fun hl => ⟨hl, by rw [hslot]; nofun⟩)
    exact Part.viewBeat_eq ho (SlotManager.viewBeat_stays (map := s.part.map) hy keeps hslot hk)

/-! ### A latch (R46) -/

theorem SlotManager.detach_stays
    (h : ∀ j, (m.reader r).slot = some j → m.newest = some j ∨ (m.reader (otherReader r)).slot = some j) :
    m.detach r = m.setReader r { m.reader r with slot := none } := by
  unfold SlotManager.detach
  dsimp only
  cases hslot : (m.reader r).slot with
  | none =>
    have same : ({ m.reader r with slot := none } : ViewReader) = m.reader r := by rw [← hslot]
    rw [same, SlotManager.setReader_self]
  | some j =>
    dsimp only
    refine if_pos ?_
    rw [Bool.or_eq_true, decide_eq_true_iff, SlotManager.attached_iff r, SlotManager.reader_other_setReader]
    unfold SlotManager.newest at h ⊢
    rw [SlotManager.setReader_completion]
    exact (h j hslot).symm.imp .inr id

theorem SlotManager.detach_frees {j : Nat} (hslot : (m.reader r).slot = some j) (hn : m.newest ≠ some j)
    (ho : (m.reader (otherReader r)).slot ≠ some j) :
    m.detach r = (m.setReader r { m.reader r with slot := none }).toFree j := by
  unfold SlotManager.detach
  dsimp only
  rw [hslot]
  dsimp only
  refine if_neg ?_
  rw [Bool.or_eq_true, decide_eq_true_iff, SlotManager.attached_iff r, SlotManager.reader_other_setReader,
    SlotManager.reader_setReader]
  unfold SlotManager.newest at hn ⊢
  rw [SlotManager.setReader_completion]
  exact fun h => h.elim (fun h => h.elim nofun ho) hn

theorem SlotManager.attach_none (h : m.newest = none) : m.attach r = m := by
  unfold SlotManager.attach
  rw [h]

theorem SlotManager.attach_some {k : Nat} {f : CompleteFrame} (h : m.newest = some k)
    (hk : m.table[k]? = some (.complete f)) :
    m.attach r = (m.setReader r { m.reader r with slot := some k }).setSlot k (.complete (f.see r)) := by
  unfold SlotManager.attach
  rw [h]
  dsimp only
  rw [SlotManager.frameIn_of_complete (by rw [SlotManager.setReader_table, hk])]

theorem getLast?_filter_ne {l : List Nat} {j : Nat} (h : l.getLast? ≠ some j) : (l.filter (· ≠ j)).getLast? = l.getLast? := by
  rcases List.eq_nil_or_concat l with rfl | ⟨xs, x, rfl⟩
  · rfl
  · rw [List.concat_eq_append] at h ⊢
    rw [List.getLast?_concat] at h ⊢
    have kept : x ≠ j := fun hx => h (by rw [hx])
    have last : [x].filter (· ≠ j) = [x] := List.filter_cons_of_pos (decide_eq_true kept)
    rw [List.filter_append, last, List.getLast?_concat]

/-- What a latch changes (R46): `m` before it, `m'` after. -/
structure SlotManager.Latched (r : Reader) (m m' : SlotManager) : Prop where
  reader : (m'.reader r).slot = m.newest
  other : m'.reader (otherReader r) = m.reader (otherReader r)
  counts : m'.frameCounter = m.frameCounter ∧ m'.torn = m.torn ∧ m'.unshown = m.unshown ∧ m'.skips = m.skips
  freed : ∀ j, (m.reader r).slot = some j → m.newest ≠ some j → (m.reader (otherReader r)).slot ≠ some j →
    m'.table[j]? = some .free ∧ m'.freeOrder = m.freeOrder ++ [j] ∧ m'.completion = m.completion.filter (· ≠ j)
  kept : (∀ j, (m.reader r).slot = some j → m.newest = some j ∨ (m.reader (otherReader r)).slot = some j) →
    m'.freeOrder = m.freeOrder ∧ m'.completion = m.completion ∧ ∀ i, m.newest ≠ some i → m'.table[i]? = m.table[i]?
  elsewhere : ∀ i, m.newest ≠ some i → (m.reader r).slot ≠ some i → m'.table[i]? = m.table[i]?
  none : m.newest = .none → m'.table = m.table
  newest : ∀ k f, m.newest = some k → m.table[k]? = some (.complete f) → m'.table[k]? = some (.complete (f.see r))

/-- What a reader's leaving its slot changes (R46 step 1). -/
structure SlotManager.Detached (r : Reader) (m m' : SlotManager) : Prop where
  reader : (m'.reader r).slot = .none
  other : m'.reader (otherReader r) = m.reader (otherReader r)
  counts : m'.frameCounter = m.frameCounter ∧ m'.torn = m.torn ∧ m'.unshown = m.unshown ∧ m'.skips = m.skips
  vfFrames : m'.vfFrames = m.vfFrames
  newest : m'.newest = m.newest
  freed : ∀ j, (m.reader r).slot = some j → m.newest ≠ some j → (m.reader (otherReader r)).slot ≠ some j →
    m'.table[j]? = some .free ∧ m'.freeOrder = m.freeOrder ++ [j] ∧ m'.completion = m.completion.filter (· ≠ j)
  kept : (∀ j, (m.reader r).slot = some j → m.newest = some j ∨ (m.reader (otherReader r)).slot = some j) →
    m'.freeOrder = m.freeOrder ∧ m'.completion = m.completion ∧ m'.table = m.table
  elsewhere : ∀ i, m.newest = some i ∨ (m.reader r).slot ≠ some i → m'.table[i]? = m.table[i]?

theorem SlotManager.setReader_counts (r : Reader) (v : ViewReader) (m : SlotManager) :
    (m.setReader r v).frameCounter = m.frameCounter ∧ (m.setReader r v).torn = m.torn ∧
      (m.setReader r v).unshown = m.unshown ∧ (m.setReader r v).skips = m.skips ∧
      (m.setReader r v).vfFrames = m.vfFrames := by cases r <;> exact ⟨rfl, rfl, rfl, rfl, rfl⟩

theorem SlotManager.detached (h : m.Laws) (r : Reader) : m.Detached r (m.detach r) := by
  obtain ⟨frames, torn, unshown, skips, vfFrames⟩ :=
    SlotManager.setReader_counts r { m.reader r with slot := none } m
  by_cases stays : ∀ j, (m.reader r).slot = some j → m.newest = some j ∨ (m.reader (otherReader r)).slot = some j
  · rw [SlotManager.detach_stays stays]
    exact {
      reader := by rw [SlotManager.reader_setReader]
      other := SlotManager.reader_other_setReader ..
      counts := ⟨frames, torn, unshown, skips⟩
      vfFrames := vfFrames
      newest := by unfold SlotManager.newest; rw [SlotManager.setReader_completion]
      freed := fun j hj hn ho => ((stays j hj).elim hn ho).elim
      kept := fun _ => ⟨SlotManager.setReader_freeOrder .., SlotManager.setReader_completion .., SlotManager.setReader_table ..⟩
      elsewhere := fun i _ => by rw [SlotManager.setReader_table] }
  · push Not at stays
    obtain ⟨j, hj, hn, ho⟩ := stays
    have size := SlotManager.lt_of_getElem? (h.reader_complete r hj).choose_spec
    have readers (x : Reader) : ((m.setReader r { m.reader r with slot := none }).toFree j).reader x =
        (m.setReader r { m.reader r with slot := none }).reader x := by cases x <;> rfl
    rw [SlotManager.detach_frees hj hn ho]
    exact {
      reader := by rw [readers, SlotManager.reader_setReader]
      other := by rw [readers, SlotManager.reader_other_setReader]
      counts := ⟨frames, torn, unshown, skips⟩
      vfFrames := vfFrames
      newest := by
        unfold SlotManager.newest SlotManager.toFree
        rw [SlotManager.setReader_completion]
        exact getLast?_filter_ne hn
      freed := fun i hi _ _ => by
        obtain rfl := Option.some.inj (hj.symm.trans hi)
        refine ⟨?_, ?_, ?_⟩
        · simp [SlotManager.toFree, size]
        · simp [SlotManager.toFree]
        · simp [SlotManager.toFree]
      kept := fun all => ((all j hj).elim hn ho).elim
      elsewhere := fun i hi => by
        have apart : j ≠ i := fun hji => hi.elim (fun hi => hn (hji ▸ hi)) fun hi => hi (hji ▸ hj)
        simp [SlotManager.toFree, List.getElem?_set_ne apart] }

theorem SlotManager.attached_after (h : m.Laws) (r : Reader) : m.Latched r ((m.detach r).attach r) := by
  have left := SlotManager.detached h r
  cases hn : m.newest with
  | none =>
    have off (j : Nat) : (m.reader r).slot ≠ some j := fun hj => by
      have listed := (h.complete j).2 (h.reader_complete r hj)
      rw [List.getLast?_eq_none_iff.1 hn] at listed
      cases listed
    have table : (m.detach r).table = m.table := (left.kept fun j hj => absurd hj (off j)).2.2
    rw [SlotManager.attach_none (left.newest.trans hn)]
    exact {
      reader := left.reader.trans hn.symm
      other := left.other
      counts := left.counts
      freed := left.freed
      kept := fun all => ⟨(left.kept all).1, (left.kept all).2.1, fun i _ => by rw [table]⟩
      elsewhere := fun i _ _ => by rw [table]
      none := fun _ => table
      newest := fun k f hk => nomatch hn.symm.trans hk }
  | some k =>
    obtain ⟨f, hf⟩ := (h.complete k).1 (SlotManager.newest_mem hn)
    have inside : (m.detach r).table[k]? = some (.complete f) := (left.elsewhere k (.inl hn)).trans hf
    have size := SlotManager.lt_of_getElem? inside
    obtain ⟨frames, torn, unshown, skips, -⟩ :=
      SlotManager.setReader_counts r { (m.detach r).reader r with slot := some k } (m.detach r)
    obtain ⟨frames', torn', unshown', skips'⟩ := left.counts
    have readers (x : Reader) (t : SlotManager) (e : FrameSlot) : (t.setSlot k e).reader x = t.reader x := by
      cases x <;> rfl
    have orders (t : SlotManager) (v : ViewReader) (e : FrameSlot) :
        ((t.setReader r v).setSlot k e).freeOrder = t.freeOrder ∧ ((t.setReader r v).setSlot k e).completion = t.completion ∧
          ((t.setReader r v).setSlot k e).table = t.table.set k e := by
      cases r <;> exact ⟨rfl, rfl, rfl⟩
    obtain ⟨free, complete, table⟩ := orders (m.detach r) { (m.detach r).reader r with slot := some k } (.complete (f.see r))
    have at_ (i : Nat) (hi : m.newest ≠ some i) : ((m.detach r).table.set k (.complete (f.see r)))[i]? = (m.detach r).table[i]? :=
      List.getElem?_set_ne (fun hk : k = i => hi (hn.trans (congrArg some hk)))
    rw [SlotManager.attach_some (left.newest.trans hn) inside]
    exact {
      reader := by rw [readers, SlotManager.reader_setReader, hn]
      other := by rw [readers, SlotManager.reader_other_setReader, left.other]
      counts := ⟨frames.trans frames', torn.trans torn', unshown.trans unshown', skips.trans skips'⟩
      freed := fun j hj hne ho => by
        obtain ⟨freed, order, rest⟩ := left.freed j hj hne ho
        rw [free, complete, table, at_ j hne]
        exact ⟨freed, order, rest⟩
      kept := fun all => by
        obtain ⟨order, rest, same⟩ := left.kept all
        rw [free, complete, table]
        exact ⟨order, rest, fun i hi => by rw [at_ i hi, same]⟩
      elsewhere := fun i hi hr => by rw [table, at_ i hi, left.elsewhere i (.inr hr)]
      none := fun hnone => nomatch hn.symm.trans hnone
      newest := fun i g hi hg => by
        obtain rfl := Option.some.inj (hn.symm.trans hi)
        obtain rfl := FrameSlot.complete.inj (Option.some.inj (hf.symm.trans hg))
        rw [table, List.getElem?_set_self size] }

end Sys2Proof.Machine

end

section
/-! PROOFS. Latches and the overlay unit (03 section 3.4, 11 sections 11.1 to 11.4): the beat that latches, the pixels as drawn,
and the live layer. -/

namespace Sys2Proof.Machine

/-! ### The beat that latches (R46, R177) -/

section
variable {m : SlotManager} {r : Reader} {map : RegionMap} {o : Nat}

/-- What a reader's beat on line 0 returns, with the slot that the reader is on (R45, R47). -/
def SlotManager.answerAt (r : Reader) (map : RegionMap) (o : Nat) (m : SlotManager) : ViewAnswer :=
  match (m.reader r).slot with
  | none => .noFrame
  | some k =>
    match m.frameIn k with
    | some f => .source (map.sourceAt k (map.viewPixel o) 0 f)
    | none => .noFrame

theorem SlotManager.answerAt_none (h : (m.reader r).slot = none) : m.answerAt r map o = .noFrame := by
  unfold SlotManager.answerAt
  rw [h]

theorem SlotManager.answerAt_some {k : Nat} {f : CompleteFrame} (h : (m.reader r).slot = some k)
    (hk : m.table[k]? = some (.complete f)) : m.answerAt r map o = .source (map.sourceAt k (map.viewPixel o) 0 f) := by
  unfold SlotManager.answerAt
  rw [h]
  dsimp only
  rw [SlotManager.frameIn_of_complete hk]

theorem SlotManager.viewBeat_latches (h : map.vh ≠ 0) (hy : map.viewLine o = 0) (hl : m.latches r 0 = true) :
    m.viewBeat r map o = ((m.latch r).lined r 0, ((m.latch r).lined r 0).answerAt r map o, true) := by
  unfold SlotManager.viewBeat
  dsimp only
  rw [hy, hl, decide_eq_true (Nat.pos_of_ne_zero h), Bool.and_true, if_pos rfl, if_neg (Nat.not_le.2 (Nat.pos_of_ne_zero h))]
  rfl

theorem SlotManager.latches_line0 (h : (m.reader r).slot = none ∨ (m.reader r).lastLine ≠ 0) : m.latches r 0 = true := by
  unfold SlotManager.latches
  obtain hs | hl := h
  · simp [hs]
  · simp [hl]

theorem SlotManager.latched (h : m.Laws) (r : Reader) : m.Latched r (m.latch r) := by
  obtain ⟨reader, other, counts, freed, kept, elsewhere, none, newest⟩ := SlotManager.attached_after h r
  cases r <;> exact ⟨reader, other, counts, freed, kept, elsewhere, none, newest⟩

theorem SlotManager.attach_vfFrames (r : Reader) (m : SlotManager) : (m.attach r).vfFrames = m.vfFrames := by
  unfold SlotManager.attach
  split
  · rfl
  · next k _ =>
    have same := (SlotManager.setReader_counts r { m.reader r with slot := some k } m).2.2.2.2
    dsimp only
    split
    · exact same
    · exact same

theorem SlotManager.latch_vfFrames (h : m.Laws) (r : Reader) :
    (m.latch r).vfFrames = match r with
      | .enc => m.vfFrames
      | .vf => (m.vfFrames + 1) % 4294967296 := by
  have same : ((m.detach r).attach r).vfFrames = m.vfFrames :=
    (SlotManager.attach_vfFrames ..).trans (SlotManager.detached h r).vfFrames
  cases r
  · exact same
  · exact congrArg (fun n => (n + 1) % 4294967296) same

theorem SlotManager.Latched.lined {m' : SlotManager} (h : m.Latched r m') (y : Nat) : m.Latched r (m'.lined r y) := by
  obtain ⟨reader, other, counts, freed, kept, elsewhere, none, newest⟩ := h
  obtain ⟨frames, torn, unshown, skips, -⟩ := SlotManager.setReader_counts r { m'.reader r with lastLine := y } m'
  unfold SlotManager.lined
  refine ⟨?_, ?_, ?_, ?_, ?_, ?_, ?_, ?_⟩
  · rwa [SlotManager.reader_setReader]
  · rwa [SlotManager.reader_other_setReader]
  · rwa [frames, torn, unshown, skips]
  all_goals simpa only [SlotManager.setReader_table, SlotManager.setReader_freeOrder, SlotManager.setReader_completion]

end

/-- What a view beat changes (R14, R177). -/
theorem Part.viewBeat_frame {p : Part} {r : Reader} {o : Nat} {t : SlotManager} {answer : ViewAnswer} {latched : Bool}
    (ho : o < 0x4000000) (h : p.slots.viewBeat r p.map o = (t, answer, latched)) :
    p.viewBeat (.handed (viewBase r + o) none) =
      { p with
        slots := (p.viewBeat (.handed (viewBase r + o) none)).slots
        overlay := (p.viewBeat (.handed (viewBase r + o) none)).overlay
        link := (p.viewBeat (.handed (viewBase r + o) none)).link } ∧
    (p.viewBeat (.handed (viewBase r + o) none)).slots = t ∧
    (p.viewBeat (.handed (viewBase r + o) none)).overlay =
      if latched && decide (r = .vf) then p.overlay.takeSnapshot t.vfFrames else p.overlay := by
  rw [Part.viewBeat_eq ho h]
  cases answer <;> exact ⟨rfl, rfl, rfl⟩

/-! ### A granted view beat (R17) -/

theorem exec_linkGrant_view {s : State} {r : Reader} {a y x : Nat} (h : LinkIsNext s.part (.view r a y x)) :
    exec .linkRequestGrant s =
      .next (s.onPart fun p =>
        p.linkGranted.endBeat (some (p.linkGranted.viewData r x y (s.mem.readBytes a 32))) false) := by
  rw [exec_linkRequestGrant h]
  unfold Part.linkGrant
  rw [h.1]
  rfl

/-! ### The pixels as drawn (R178, R179) -/

section
variable {s : Snapshot} {columns rows x y : Nat}

/-- The content that the layers show at a view pixel; an empty cell beyond the grid (R175, R178). -/
def Snapshot.contentShown (s : Snapshot) (columns rows x y : Nat) : CellContent :=
  if x / 40 < columns ∧ y / 40 < rows then s.shown (y / 40) (x / 40) else .blank

/-- The content is drawn there. -/
def Snapshot.Draws (s : Snapshot) (c : CellContent) : Prop := c.glyph ≠ 0 ∧ (c.blink = false ∨ s.vfFrames / 16 % 2 = 0)

theorem Snapshot.drawn_iff {c : CellContent} : s.drawn c = true ↔ s.Draws c := by simp [Snapshot.drawn, Snapshot.Draws]

theorem Snapshot.contentAt_of_drawn (h : s.Draws (s.contentShown columns rows x y)) :
    s.contentAt columns rows x y = some (s.contentShown columns rows x y) := by
  unfold Snapshot.contentShown at h ⊢
  unfold Snapshot.contentAt
  by_cases hin : x / 40 < columns ∧ y / 40 < rows
  · rw [if_pos hin] at h ⊢
    rw [if_pos (by simpa using hin)]
    exact if_pos (Snapshot.drawn_iff.2 h)
  · rw [if_neg hin] at h
    exact absurd rfl h.1

theorem Snapshot.contentAt_of_not_drawn (h : ¬s.Draws (s.contentShown columns rows x y)) :
    s.contentAt columns rows x y = none := by
  unfold Snapshot.contentShown at h
  unfold Snapshot.contentAt
  by_cases hin : x / 40 < columns ∧ y / 40 < rows
  · rw [if_pos hin] at h
    rw [if_pos (by simpa using hin)]
    exact if_neg (h ∘ Snapshot.drawn_iff.1)
  · rw [if_neg (by simpa using hin)]

theorem Snapshot.marks_iff {l : Byte} :
    s.marks x y l = true ↔ s.zebra = true ∧ s.level ≤ l.toNat ∧ ((x + y) / 4 + s.vfFrames / 4) % 2 = 0 := by
  simp [Snapshot.marks, and_assoc]

/-- The luma of a pixel under drawn content, or under none (R178). -/
theorem Snapshot.luma_spec {content : Option CellContent} {c : CellContent} {drawn : Prop} (hd : drawn → content = some c)
    (hn : ¬drawn → content = none) (l : Byte) :
    (drawn → glyphBit c.glyph (y % 40) (x % 40) = true → s.luma content x y l = (s.colour c.palette).y) ∧
    (¬(drawn ∧ glyphBit c.glyph (y % 40) (x % 40) = true) → s.marks x y l = true → s.luma content x y l = 16) ∧
    (drawn → ¬glyphBit c.glyph (y % 40) (x % 40) = true → ¬s.marks x y l = true → c.shade = true →
      s.luma content x y l = BitVec.ofNat 8 (l.toNat / 2)) ∧
    (¬(drawn ∧ glyphBit c.glyph (y % 40) (x % 40) = true) → ¬s.marks x y l = true →
      drawn ∧ c.shade = true ∨ s.luma content x y l = l) := by
  by_cases h : drawn
  · rw [hd h]
    unfold Snapshot.luma
    dsimp only
    refine ⟨fun _ hm => if_pos hm, fun hm hz => ?_, fun _ hm hz hs => ?_, fun hm hz => ?_⟩
    · rw [if_neg fun hg => hm ⟨h, hg⟩, if_pos hz]
    · rw [if_neg hm, if_neg hz, if_pos hs]
    · by_cases hs : c.shade = true
      · exact .inl ⟨h, hs⟩
      · exact .inr (by rw [if_neg fun hg => hm ⟨h, hg⟩, if_neg hz, if_neg hs])
  · rw [hn h]
    exact ⟨fun hd => absurd hd h, fun _ hz => if_pos hz, fun hd => absurd hd h, fun _ hz => .inr (if_neg hz)⟩

/-- Byte `c` of the pixel pair `i` of a beat is that of its pair (R178). -/
theorem Snapshot.pairs_getD {n i : Nat} (hi : i < n) {c : Nat} (hc : c < 4) (x : Nat) (data : List Byte) :
    (s.pairs columns rows y n x data).getD (4 * i + c) 0 =
      (s.pair columns rows (x + 2 * i) y ((data.drop (4 * i)).take 4)).getD c 0 := by
  induction n generalizing i x data with
  | zero => omega
  | succ n ih =>
    have four (x : Nat) (w : List Byte) : (s.pair columns rows x y w).length = 4 := rfl
    rw [Snapshot.pairs]
    cases i with
    | zero =>
      rw [Nat.mul_zero, Nat.zero_add, List.getD_append _ _ _ _ (by rw [four]; exact hc)]
      rfl
    | succ i =>
      rw [List.getD_append_right _ _ _ _ (by rw [four]; omega), four, show 4 * (i + 1) + c - 4 = 4 * i + c by omega,
        ih (by omega), List.drop_drop, show 4 + 4 * i = 4 * (i + 1) by omega, show x + 2 + 2 * i = x + 2 * (i + 1) by omega]

theorem Snapshot.pairs_length (n x : Nat) (data : List Byte) : (s.pairs columns rows y n x data).length = 4 * n := by
  induction n generalizing x data with
  | zero => rfl
  | succ n ih =>
    rw [Snapshot.pairs, List.length_append, ih]
    change 4 + 4 * n = _
    omega

theorem getD_take_drop (data : List Byte) (i : Nat) {c : Nat} (hc : c < 4) :
    ((data.drop (4 * i)).take 4).getD c 0 = data.getD (4 * i + c) 0 := by
  rw [List.getD_eq_getElem?_getD, List.getElem?_take_of_lt hc, List.getElem?_drop, List.getD_eq_getElem?_getD]

/-- The chroma of a pair: the drawn glyph's where its left pixel is set (R178). -/
theorem Snapshot.pair_chroma (w : List Byte) {c : CellContent} (hd : s.contentAt columns rows x y = some c) :
    (glyphBit c.glyph (y % 40) (x % 40) = true →
      (s.pair columns rows x y w).getD 1 0 = (s.colour c.palette).cb ∧
        (s.pair columns rows x y w).getD 3 0 = (s.colour c.palette).cr) ∧
    (¬glyphBit c.glyph (y % 40) (x % 40) = true →
      (s.pair columns rows x y w).getD 1 0 = w.getD 1 0 ∧ (s.pair columns rows x y w).getD 3 0 = w.getD 3 0) := by
  unfold Snapshot.pair
  rw [hd]
  dsimp only
  refine ⟨fun hg => ?_, fun hg => ?_⟩
  · rw [if_pos hg]
    exact ⟨rfl, rfl⟩
  · rw [if_neg hg]
    exact ⟨rfl, rfl⟩

theorem Snapshot.pair_chroma_plain (w : List Byte) (hn : s.contentAt columns rows x y = none) :
    (s.pair columns rows x y w).getD 1 0 = w.getD 1 0 ∧ (s.pair columns rows x y w).getD 3 0 = w.getD 3 0 := by
  unfold Snapshot.pair
  rw [hn]
  exact ⟨rfl, rfl⟩

theorem Snapshot.pair_luma (w : List Byte) :
    (s.pair columns rows x y w).getD 0 0 = s.luma (s.contentAt columns rows x y) x y (w.getD 0 0) ∧
      (s.pair columns rows x y w).getD 2 0 = s.luma (s.contentAt columns rows x y) (x + 1) y (w.getD 2 0) := ⟨rfl, rfl⟩

end

/-! ### The live layer (R180, R181) -/

theorem mem_placeCells_iff {row column : Nat} {cs : List CellContent} {l : LiveCell} :
    l ∈ placeCells row column cs ↔ l.row = row ∧ ∃ j, l.column = column + j ∧ cs[j]? = some l.content := by
  induction cs generalizing column with
  | nil => simp [placeCells]
  | cons c cs ih =>
    rw [placeCells, List.mem_cons, ih]
    constructor
    · rintro (rfl | ⟨hr, j, hc, hj⟩)
      · exact ⟨rfl, 0, rfl, rfl⟩
      · exact ⟨hr, j + 1, by omega, hj⟩
    · rintro ⟨hr, j, hc, hj⟩
      cases j with
      | zero =>
        obtain ⟨row', column', content⟩ := l
        obtain rfl : c = content := Option.some.inj hj
        exact .inl (by rw [show row' = row from hr, show column' = column from hc])
      | succ j => exact .inr ⟨hr, j, by omega, hj⟩

theorem LiveValues.field_length (v : LiveValues) (i : Fin 9) :
    (v.field i.val).length = [11, 4, 12, 12, 12, 12, 12, 4, 2].getD i.val 0 := by
  have recField : v.recField.length = 4 := by
    unfold LiveValues.recField
    split <;> (try split) <;> rfl
  have remain : v.remain.length = 4 := by
    unfold LiveValues.remain
    split <;> rfl
  have stab : v.stab.length = 2 := by
    unfold LiveValues.stab
    split <;> (try split) <;> rfl
  have meter (n : Nat) : (v.meter n).length = 12 := by simp [LiveValues.meter]
  fin_cases i
  · rfl
  · exact recField
  · simp [LiveValues.field, LiveValues.zoomField]
  · exact meter 0
  · exact meter 1
  · exact meter 2
  · exact meter 3
  · exact remain
  · exact stab

theorem Overlay.mem_refresh_iff {v : LiveValues} {o : Overlay} {l : LiveCell} :
    l ∈ (o.refresh v).live ↔
      ∃ i : Fin 9, o.fields[i].enabled = true ∧ l ∈ placeCells o.fields[i].row o.fields[i].column (v.field i.val) := by
  unfold Overlay.refresh
  dsimp only
  rw [List.mem_flatMap]
  constructor
  · rintro ⟨i, hi, hl⟩
    rw [List.mem_range] at hi
    rw [Vector.getElem?_eq_getElem hi] at hl
    dsimp only at hl
    split at hl
    · next he => exact ⟨⟨i, hi⟩, he, hl⟩
    · cases hl
  · rintro ⟨i, he, hl⟩
    refine ⟨i.val, List.mem_range.2 i.isLt, ?_⟩
    rw [Vector.getElem?_eq_getElem i.isLt]
    dsimp only
    exact (if_pos he).symm ▸ hl

/-- Settles O12: what a latch changes (`SlotManager.latched`), the bytes of a granted view beat, the pixels as drawn, and the
cells of a refresh. -/
theorem latchesAttachTheNewestFrame : Obligations.LatchesAttachTheNewestFrame := by
  refine ⟨?_, ?_, ?_, ?_⟩
  · intro s r o ho m base other old newest h hline hvh laws hlatch
    have hands : HandsOn s.part (viewBase r + o) none := by cases r <;> exact h
    have hother : other = otherReader r := by cases r <;> rfl
    have line : m.viewLine o = 0 := Nat.div_eq_of_lt hline
    have pixel : m.viewPixel o = o / 2 := by unfold RegionMap.viewPixel; rw [Nat.mod_eq_of_lt hline]
    have beat := SlotManager.viewBeat_latches (map := m) (Nat.pos_iff_ne_zero.1 hvh) line (SlotManager.latches_line0 hlatch)
    have effect := Part.viewBeat_eq (p := s.part) ho beat
    obtain ⟨same, slots, overlay⟩ := Part.viewBeat_frame (p := s.part) ho beat
    obtain ⟨reader, kept, ⟨frames, torn, unshown, skips⟩, freed, stays, elsewhere, hnone, hnew⟩ :=
      (SlotManager.latched laws r).lined 0
    have last : (((old.latch r).lined r 0).reader r).lastLine = 0 := by
      rw [SlotManager.lined, SlotManager.reader_setReader]
    have counted := (SlotManager.setReader_counts r { (old.latch r).reader r with lastLine := 0 } (old.latch r)).2.2.2.2.trans
      (SlotManager.latch_vfFrames laws r)
    refine ⟨_, exec_viewRead_of_handsOn hands ho, rfl, ?_, ?_, ?_, ?_, ?_, ?_, ?_, ?_, ?_, ?_, ?_, ?_, same, ?_, ?_⟩
    · exact (congrArg (fun t => (SlotManager.reader t r).lastLine) slots).trans last
    · exact (congrArg (fun t => (SlotManager.reader t r).slot) slots).trans reader
    · rw [hother]
      exact (congrArg (fun t => SlotManager.reader t (otherReader r)) slots).trans kept
    · exact (congrArg SlotManager.frameCounter slots).trans frames
    · exact (congrArg SlotManager.torn slots).trans torn
    · exact (congrArg SlotManager.unshown slots).trans unshown
    · exact (congrArg SlotManager.skips slots).trans skips
    · exact (congrArg SlotManager.vfFrames slots).trans counted
    · rw [hother]
      exact slots.symm ▸ freed
    · rw [hother]
      exact slots.symm ▸ stays
    · exact slots.symm ▸ elsewhere
    · refine overlay.trans ?_
      cases r
      · rfl
      · exact congrArg (fun n => s.part.overlay.takeSnapshot n) counted
    · intro hn
      rw [SlotManager.answerAt_none (reader.trans hn)] at effect
      refine ⟨slots.symm ▸ hnone hn, (congrArg Part.link effect).trans ?_⟩
      refine congrArg (fun d => s.part.link.endBeat (some d) false) ?_
      rw [line, pixel]
      cases r
      · rfl
      · exact congrArg (fun v => Overlay.draw v (o / 2) 0 blackBeat) overlay.symm
    · intro k f hn hf
      have shown := hnew k f hn hf
      have place : (f.see r).dx = f.dx ∧ (f.see r).dy = f.dy := by cases r <;> exact ⟨rfl, rfl⟩
      rw [SlotManager.answerAt_some (reader.trans hn) shown] at effect
      refine ⟨?_, (congrArg Part.link effect).trans ?_⟩
      · refine (congrArg (fun t => (SlotManager.table t)[k]?) slots).trans (shown.trans ?_)
        cases r <;> rfl
      · have source : m.sourceAt k (m.viewPixel o) 0 (f.see r) =
            ((m.slotAt k : Int) + ((m.my : Int) + f.dy) * (m.cw * 2) + (((o / 2 : Nat) : Int) + m.mx + f.dx) * 2).toNat := by
          unfold RegionMap.sourceAt
          rw [pixel, place.1, place.2, Nat.cast_zero, zero_add]
        change ({ s.part.link with request := some (.view r (m.sourceAt k (m.viewPixel o) 0 (f.see r)) (m.viewLine o)
          (m.viewPixel o)) } : LinkPort) = _
        rw [source, line, pixel]
  · intro s r a y x h source
    refine (exec_linkGrant_view h).trans (congrArg _ (State.onPart_congr ?_))
    cases r <;> rfl
  · intro o x y i data _ hi hlen w px drawnTo c drawn ink mask
    have content : c = w.contentShown o.columns o.rows px y := by
      unfold Snapshot.contentShown Snapshot.shown
      simp only [c, Bool.decide_and]
      rfl
    have hd : drawn → w.contentAt o.columns o.rows px y = some c := by
      unfold drawn
      rw [content]
      exact Snapshot.contentAt_of_drawn
    have hn : ¬drawn → w.contentAt o.columns o.rows px y = none := by
      unfold drawn
      rw [content]
      exact Snapshot.contentAt_of_not_drawn
    have at_ {k : Nat} (hk : k < 4) : drawnTo.getD (4 * i + k) 0 =
        (w.pair o.columns o.rows px y ((data.drop (4 * i)).take 4)).getD k 0 := Snapshot.pairs_getD hi hk x data
    obtain ⟨left, right⟩ := Snapshot.pair_luma (s := w) (columns := o.columns) (rows := o.rows) (x := px) (y := y)
      ((data.drop (4 * i)).take 4)
    refine ⟨Snapshot.pairs_length 8 x data, fun side hside => ?_, fun ⟨hdrawn, hmask⟩ => ?_, fun hplain => ?_⟩
    · have luma (u : Nat) (l l' : Byte) (hl : l' = w.luma (w.contentAt o.columns o.rows px y) u y l) :=
        hl ▸ Snapshot.luma_spec (s := w) (x := u) (y := y) hd hn l
      simp only [Snapshot.marks_iff] at luma
      obtain rfl | rfl : side = 0 ∨ side = 1 := by omega
      · exact luma px _ _ ((at_ (by omega)).trans (left.trans (by rw [getD_take_drop data i (by omega)])))
      · exact luma (px + 1) _ _ ((at_ (by omega)).trans (right.trans (by rw [getD_take_drop data i (by omega)])))
    · obtain ⟨cb, cr⟩ := (Snapshot.pair_chroma ((data.drop (4 * i)).take 4) (hd hdrawn)).1 hmask
      exact ⟨(at_ (by omega)).trans cb, (at_ (by omega)).trans cr⟩
    · have plain : (w.pair o.columns o.rows px y ((data.drop (4 * i)).take 4)).getD 1 0 =
          ((data.drop (4 * i)).take 4).getD 1 0 ∧
          (w.pair o.columns o.rows px y ((data.drop (4 * i)).take 4)).getD 3 0 = ((data.drop (4 * i)).take 4).getD 3 0 := by
        by_cases hdrawn : drawn
        · exact (Snapshot.pair_chroma _ (hd hdrawn)).2 fun hg => hplain ⟨hdrawn, hg⟩
        · exact Snapshot.pair_chroma_plain _ (hn hdrawn)
      rw [getD_take_drop data i (by omega), getD_take_drop data i (by omega)] at plain
      exact ⟨(at_ (by omega)).trans plain.1, (at_ (by omega)).trans plain.2⟩
  · intro v o l
    rw [Overlay.mem_refresh_iff]
    refine exists_congr fun i => and_congr_right fun _ => ?_
    rw [mem_placeCells_iff]
    refine and_congr_right fun _ => exists_congr fun j => ?_
    refine ⟨fun ⟨hc, hj⟩ => ⟨?_, hc, hj⟩, fun ⟨_, hc, hj⟩ => ⟨hc, hj⟩⟩
    rw [← LiveValues.field_length v i]
    exact (List.getElem?_eq_some_iff.1 hj).1

end Sys2Proof.Machine

end

section
/-! PROOFS. CAPTURE_WRITE (01 section 1.4, 03 sections 3.2 and 3.3, 06 section 6.5): the lines a beat touches, a frame start and
its FRAME mark, and the beats that are redirected or dropped. -/

namespace Sys2Proof.Machine

/-! ### The lines that a beat touches (3.2) -/

section
variable {map : RegionMap} {o : Nat} {enables : List Bool}

theorem mem_touchedBytes_iff {F x : Nat} :
    x ∈ touchedBytes F o enables ↔ ∃ i < 32, enables[i]? = some true ∧ x = o + i ∧ x < F := by
  have enabled (i : Nat) : enables.getD i false = true ↔ enables[i]? = some true := by
    rw [List.getD_eq_getElem?_getD]
    cases enables[i]? <;> simp
  simp only [touchedBytes, List.mem_filter, List.mem_map, List.mem_range, enabled, decide_eq_true_eq]
  constructor
  · rintro ⟨⟨i, ⟨hi, he⟩, rfl⟩, hx⟩
    exact ⟨i, hi, he, rfl, hx⟩
  · rintro ⟨i, hi, he, rfl, hx⟩
    exact ⟨⟨i, ⟨hi, he⟩, rfl⟩, hx⟩

/-- A beat inside line 0 touches that line alone. -/
theorem linesTouched_line0 (ho : o + 32 ≤ map.cw * 2) (hch : 0 < map.ch) (hen : ∃ i < 32, enables[i]? = some true) :
    linesTouched map o enables = (some 0, true) := by
  have frame : map.cw * 2 ≤ map.frameBytes := by
    unfold RegionMap.frameBytes
    rw [Nat.mul_right_comm]
    exact Nat.le_mul_of_pos_right _ hch
  have zero (x : Nat) (hx : x ∈ touchedBytes map.frameBytes o enables) : x / (map.cw * 2) = 0 := by
    obtain ⟨i, hi, -, rfl, -⟩ := mem_touchedBytes_iff.1 hx
    exact Nat.div_eq_of_lt (by omega)
  obtain ⟨i, hi, he⟩ := hen
  have touched : o + i ∈ touchedBytes map.frameBytes o enables := mem_touchedBytes_iff.2 ⟨i, hi, he, rfl, by omega⟩
  have line : 0 ∈ (touchedBytes map.frameBytes o enables).map (· / (map.cw * 2)) :=
    List.mem_map.2 ⟨_, touched, zero _ touched⟩
  refine Prod.ext (List.max?_eq_some_iff.2 ⟨line, fun b hb => ?_⟩) (List.any_eq_true.2 ⟨0, line, rfl⟩)
  obtain ⟨x, hx, rfl⟩ := List.mem_map.1 hb
  exact (zero x hx).le

/-- A beat that touches no byte of line 0 starts no frame. -/
theorem linesTouched_offLine0 (hcw : 0 < map.cw) (h : ∀ i < 32, enables[i]? = some true → map.cw * 2 ≤ o + i) :
    (linesTouched map o enables).2 = false := by
  refine List.any_eq_false.2 fun l hl => ?_
  obtain ⟨x, hx, rfl⟩ := List.mem_map.1 hl
  obtain ⟨i, hi, he, rfl, -⟩ := mem_touchedBytes_iff.1 hx
  have line := Nat.div_pos (h i hi he) (by omega)
  rw [decide_eq_true_iff]
  exact Nat.pos_iff_ne_zero.1 line

/-- The highest line that a beat touches bounds every line it touches, and is one of them where there is one. -/
theorem linesTouched_highest (map : RegionMap) (o : Nat) (enables : List Bool) :
    (∀ i < 32, enables[i]? = some true → o + i < map.cw * map.ch * 2 →
      (o + i) / (map.cw * 2) ≤ (linesTouched map o enables).1.getD 0) ∧
    ((linesTouched map o enables).1.getD 0 = 0 ∨
      ∃ i < 32, enables[i]? = some true ∧ (linesTouched map o enables).1.getD 0 = (o + i) / (map.cw * 2)) := by
  unfold linesTouched
  dsimp only
  cases hm : ((touchedBytes map.frameBytes o enables).map (· / (map.cw * 2))).max? with
  | none =>
    rw [List.max?_eq_none_iff, List.map_eq_nil_iff] at hm
    refine ⟨fun i hi he hin => ?_, .inl rfl⟩
    have touched : o + i ∈ touchedBytes map.frameBytes o enables := mem_touchedBytes_iff.2 ⟨i, hi, he, rfl, hin⟩
    rw [hm] at touched
    cases touched
  | some n =>
    obtain ⟨mem, bound⟩ := List.max?_eq_some_iff.1 hm
    refine ⟨fun i hi he hin => ?_, .inr ?_⟩
    · exact bound _ (List.mem_map.2 ⟨_, mem_touchedBytes_iff.2 ⟨i, hi, he, rfl, hin⟩, rfl⟩)
    · obtain ⟨x, hx, rfl⟩ := List.mem_map.1 mem
      obtain ⟨i, hi, he, rfl, -⟩ := mem_touchedBytes_iff.1 hx
      exact ⟨i, hi, he, rfl⟩

end

/-! ### A beat at the slot manager (R39 to R41) -/

section
variable {m : SlotManager} {k last : Nat}

theorem fillingFrom_of_first {t : List FrameSlot} {b : Nat} (hk : t[k]? = some (.filling last))
    (h : ∀ j < k, ∀ n, t[j]? ≠ some (.filling n)) : fillingFrom b t = some (b + k, last) := by
  induction t generalizing b k with
  | nil => cases hk
  | cons e t ih =>
    cases k with
    | zero =>
      obtain rfl := Option.some.inj hk
      rfl
    | succ k =>
      have rest := ih (b := b + 1) hk fun j hj n => h (j + 1) (by omega) n
      rw [Nat.add_right_comm, Nat.add_assoc] at rest
      cases e with
      | filling n => exact absurd rfl (h 0 (by omega) n)
      | free => exact rest
      | complete f => exact rest

theorem SlotManager.filling_of_first (hk : m.table[k]? = some (.filling last))
    (h : ∀ j < k, ∀ n, m.table[j]? ≠ some (.filling n)) : m.filling = some (k, last) := by
  rw [SlotManager.filling, fillingFrom_of_first hk h, Nat.zero_add]

theorem SlotManager.filling_of_unfilled (h : m.Unfilled) : m.filling = none := by
  cases hf : m.filling with
  | none => rfl
  | some x => exact absurd (SlotManager.filling_eq_some (k := x.1) (n := x.2) hf) (h _ _)

/-- A slot claimed for a frame that starts takes its beat at line 0 (R40, R41). -/
theorem Job.fillBeat_claimed {j : SlotWork} (hk : k < j.st.table.length) (h : j.st.Unfilled) :
    ((j.change (SlotManager.toFilling k)).emit .frameMark).fillBeat (some 0) =
      ((j.change (SlotManager.toFilling k)).emit .frameMark, .redirect k) := by
  have filling : ((j.change (SlotManager.toFilling k)).emit .frameMark).st.filling = some (k, 0) := by
    refine SlotManager.filling_of_first (List.getElem?_set_self hk) fun i hi n => ?_
    have apart : (j.st.table.set k (.filling 0))[i]? = j.st.table[i]? := List.getElem?_set_ne (by omega)
    exact fun hf => h i n (apart.symm.trans hf)
  unfold Job.fillBeat
  rw [filling]
  simp [Job.change, Job.emit, SlotManager.setSlot, SlotManager.toFilling]

/-- The part after the slot manager's answer to a capture beat (R13). -/
def Part.captureAnswered (o : Nat) (data : List Byte) (enables : List Bool) (q : Part) : CaptureAnswer → Part
  | .redirect k => q.linkRequest (.write (q.map.slotAt k + o) data enables (.capture k o))
  | .drop => q.endBeat none false

theorem exec_captureWrite_of_handsOn {s : State} {o : Nat} {b : WriteBeat} {j : SlotWork} {a : CaptureAnswer}
    (h : HandsOn s.part (0x10000000 + o) (some b)) (ho : o < 0x4000000)
    (hj : (Job.start s.part.slots).captureBeat s.part.map s.part.recording o b.enables.toList = some (j, a)) :
    exec .captureWrite s =
      .next (s.onPart fun p => Part.captureAnswered o b.data.toList b.enables.toList (p.withSlots j) a) := by
  have row : s.part.map.beatRow (0x10000000 + o) (some b).isSome = .captureWrite :=
    (RegionMap.beatRow_beyond (Nat.le_add_right captureBase o) true).1.2
      ⟨show 0x10000000 + o < 0x14000000 by omega, rfl⟩
  have beat : s.part.beatFor .captureWrite = some (.handed (0x10000000 + o) (some b)) := by
    rw [Part.beatFor_of_handsOn h, if_pos row]
  have offset : 0x10000000 + o - captureBase = o := Nat.add_sub_cancel_left ..
  have answered : s.part.captureBeat (.handed (0x10000000 + o) (some b)) =
      some (Part.captureAnswered o b.data.toList b.enables.toList (s.part.withSlots j) a) := by
    unfold Part.captureBeat
    simp only [LinkBeat.handed_write, LinkBeat.handed_addr, Option.map_some, offset]
    rw [show WriteBeat.flags b = b.enables.toList from rfl, hj]
    cases a <;> rfl
  have ran : exec .captureWrite s = execCaptureWrite s := rfl
  rw [ran, execCaptureWrite, beat]
  dsimp only
  rw [answered]
  rfl

/-- A beat beyond the frame's end is dropped (R39). -/
theorem Job.captureBeat_spills {map : RegionMap} {o : Nat} (h : map.frameBytes ≤ o) (recording : Bool) (enables : List Bool) :
    (Job.start m).captureBeat map recording o enables = some ((Job.start m).emit (.raise .captureSpill), .drop) := if_pos h

theorem Job.captureBeat_inside {map : RegionMap} {o : Nat} {enables : List Bool} (h : o < map.frameBytes)
    (hs : (linesTouched map o enables).2 = false ∨ ∃ k, m.filling = some (k, 0)) (recording : Bool) :
    (Job.start m).captureBeat map recording o enables = some ((Job.start m).fillBeat (linesTouched map o enables).1) := by
  unfold Job.captureBeat
  rw [if_neg (Nat.not_le.2 h)]
  refine if_neg ?_
  obtain hl | ⟨k, hk⟩ := hs
  · rw [hl, Bool.false_and]
    exact Bool.false_ne_true
  · rw [show (Job.start m : SlotWork).st.filling = some (k, 0) from hk]
    simp

/-- A beat on line 0 starts a frame where no slot is FILLING, or one past line 0 (R40). -/
theorem Job.captureBeat_starts {map : RegionMap} {o : Nat} {enables : List Bool} {j : SlotWork} {recording : Bool}
    (ho : o + 32 ≤ map.cw * 2) (hch : 0 < map.ch) (hen : ∃ i < 32, enables[i]? = some true)
    (hs : m.filling = none ∨ ∃ k last, m.filling = some (k, last) ∧ 0 < last)
    (hj : (Job.start m).frameStart recording = some j) :
    (Job.start m).captureBeat map recording o enables = some (j.fillBeat (some 0)) := by
  have frame : o < map.frameBytes := by
    have := Nat.le_mul_of_pos_right (map.cw * 2) hch
    unfold RegionMap.frameBytes
    rw [Nat.mul_right_comm]
    omega
  unfold Job.captureBeat
  rw [if_neg (Nat.not_le.2 frame), linesTouched_line0 ho hch hen, hj]
  refine if_pos ?_
  obtain hn | ⟨k, last, hk, hl⟩ := hs
  · rw [show (Job.start m : SlotWork).st.filling = none from hn]
    rfl
  · rw [show (Job.start m : SlotWork).st.filling = some (k, last) from hk]
    simpa using hl

theorem Job.tear_of_unfilled (h : m.Unfilled) : (Job.start m : SlotWork).tear = .start m := by
  unfold Job.tear
  rw [show (Job.start m : SlotWork).st.filling = none from SlotManager.filling_of_unfilled h]

theorem filter_ne_of_not_mem {l : List Nat} (h : k ∉ l) : l.filter (· ≠ k) = l :=
  List.filter_eq_self.2 fun _ hx => decide_eq_true fun hxk => h (hxk ▸ hx)

/-- A slot that leaves the free order at its front (R40). -/
theorem filter_ne_cons {l : List Nat} (h : k ∉ l) : (k :: l).filter (· ≠ k) = l := by
  rw [List.filter_cons_of_neg (by simp), filter_ne_of_not_mem h]

/-- A frame start that claims the oldest FREE slot (R40). -/
theorem Job.frameStart_free {rest : List Nat} (hun : m.Unfilled) (hfree : m.freeOrder = k :: rest) (recording : Bool) :
    (Job.start m).frameStart recording = some ((Job.start (m.toFilling k)).emit .frameMark) := by
  rw [Job.frameStart_eq, Job.tear_of_unfilled hun]
  rw [show (Job.start m : SlotWork).st.freeOrder.head? = some k by rw [show (Job.start m : SlotWork).st = m from rfl, hfree]; rfl]
  rfl

end

/-! ### The FRAME mark (R106, R107) -/

section
variable {j : LensWork} {n : AxisName} {move : PendingMove} {src : MarkSource}

/-- A mark that one axis's pending move waits for releases that move alone. -/
theorem Job.mark_releases (hp : (j.st.axis n).pendingMove = some move) (hc : move.cond = .onMark src)
    (ho : (j.st.axis (otherAxis n)).pendingMove = none)
    (ho' : ((j.release Job.idleEntry n).st.axis (otherAxis n)).pendingMove = none) :
    j.mark src = j.release Job.idleEntry n := by
  have released : j.releaseOn Job.idleEntry (.onMark src) n = j.release Job.idleEntry n :=
    if_pos (by rw [hp, Option.map_some, hc])
  unfold Job.mark
  cases n with
  | zoom =>
    rw [released]
    exact Job.releaseOn_none ho'
  | focus =>
    rw [Job.releaseOn_none (n := .zoom) ho, released]

/-- The pending move of a WAITING axis starts (R79, R88). -/
theorem Job.release_begins {ax : StepAxis} {outs : List Out} {l : Lens} (hax : l.axis n = ax) (hw : ax.state = .waiting)
    (hp : ax.pendingMove = some move) (ht : move.target ≠ ax.at0) :
    Job.release Job.idleEntry n ⟨l, outs⟩ =
      ⟨l.setAxis n { ({ ax with pendingMove := none } : StepAxis).startMotion (toward ax.at0 move.target)
        (.moveTo move.target) move.cap with holder := some (.host move.slot) }, outs⟩ := by
  have starts := StepAxis.goTo_starts (ax := { ax with pendingMove := none }) (cap := move.cap) (.inr hw) ht
  unfold Job.release
  dsimp only
  rw [hax, hp]
  dsimp only
  rw [Job.goTo_begins (a := ({ ax with pendingMove := none } : StepAxis).startMotion (toward ax.at0 move.target)
    (.moveTo move.target) move.cap) (by rw [Job.putAxis_st, Lens.axis_setAxis]; exact starts), Job.putAxis_putAxis]
  rfl

/-- The pending move of a WAITING axis that stands at its target ends there (R87, R88). -/
theorem Job.release_arrives {ax : StepAxis} {l : Lens} (hax : l.axis n = ax) (hw : ax.state = .waiting)
    (hp : ax.pendingMove = some move) (ht : move.target = ax.at0) (ho : (l.axis (otherAxis n)).pendingMove = none)
    (hs : l.coord.suspended = false) :
    Job.release Job.idleEntry n (.start l) =
      ⟨l.setAxis n { ax.rest .idle with holder := none, pendingMove := none },
        [.raise (arrivalFactor n), .finish move.slot .done 0]⟩ := by
  have stands := StepAxis.goTo_stands (ax := { ax with pendingMove := none }) (cap := move.cap) (.inr hw) ht
  unfold Job.release
  dsimp only
  rw [show (Job.start l : LensWork).st.axis n = ax from hax, hp]
  dsimp only
  rw [Job.goTo_arrives (a := ({ ax with pendingMove := none } : StepAxis).rest .idle)
    (by rw [Job.putAxis_st, Lens.axis_setAxis]; exact stands), Job.putAxis_putAxis, Job.idleEntry_none]
  · rfl
  · rw [Job.putAxis_st, Lens.axis_setAxis_other]
    exact ho
  · intro _
    rw [Job.putAxis_st, Lens.setAxis_coord]
    exact hs

end

/-! ### A frame start at the part (R40, R43) -/

section
variable {m : SlotManager} {k : Nat}

theorem SlotManager.toFilling_eq (h : k ∉ m.completion) :
    m.toFilling k = { m with table := m.table.set k (.filling 0), freeOrder := m.freeOrder.filter (· ≠ k) } := by
  unfold SlotManager.toFilling
  rw [filter_ne_of_not_mem h]

/-- A frame start's FRAME mark reaches the lens coordinator (R106). -/
theorem Part.withSlots_mark {p : Part} {l : Lens} {outs : List Out} (h : (Job.start p.lens).mark .frame = ⟨l, outs⟩) :
    p.withSlots ((Job.start m).emit .frameMark) = { p with slots := m, lens := l, bus := p.bus.meetAll outs } := by
  have delivered : p.withSlots ((Job.start m).emit .frameMark) =
      ({ p with slots := m } : Part).lensJob fun j => j.mark .frame := rfl
  rw [delivered]
  unfold Part.lensJob
  dsimp only
  rw [h]

/-- The torn frame is counted and raised before the mark (R40). -/
theorem Part.withSlots_torn {p : Part} (h : (Job.start p.lens).mark .frame = .start p.lens) :
    p.withSlots (((Job.start m).emit (.raise .frameTorn)).emit .frameMark) =
      { p with slots := m, bus := p.bus.raise .frameTorn } := by
  have delivered : p.withSlots (((Job.start m).emit (.raise .frameTorn)).emit .frameMark) =
      ({ p with bus := p.bus.raise .frameTorn } : Part).withSlots ((Job.start m).emit .frameMark) := rfl
  rw [delivered, Part.withSlots_mark (p := { p with bus := p.bus.raise .frameTorn }) h]
  rfl

/-- An encoder skip while a clip is recorded (R43, R145), the card engine waiting. -/
theorem Part.skipNotice_waits {p : Part} {c : OpenClip} (h : p.recd.card.Waits c) :
    p.skipNotice = { p with recd := { p.recd with card := { p.recd.card with
      clip := some { c with flags := { c.flags with skipped := true }, skipped := c.skipped + 1 } } } } := by
  obtain ⟨hclip, hflight, hwaits⟩ := h
  have noted : (Job.start p.recd).skip = .start { p.recd with card := { p.recd.card with
      clip := some { c with flags := { c.flags with skipped := true }, skipped := c.skipped + 1 } } } := by
    unfold Job.skip Job.clip Job.card Job.change
    dsimp only [Job.start]
    rw [hclip]
    rfl
  have waits : (Job.start p.recd).skip.st.card.Waits
      { c with flags := { c.flags with skipped := true }, skipped := c.skipped + 1 } := by
    rw [noted]
    exact ⟨rfl, hflight, hwaits⟩
  unfold Part.skipNotice Part.onRecorder
  dsimp only
  rw [Job.pump_waits waits, noted]
  rfl

theorem Part.withSlots_skipped {p : Part} {c : OpenClip} (h : (Job.start p.lens).mark .frame = .start p.lens)
    (hc : p.recd.card.Waits c) :
    p.withSlots ((((Job.start m).emit (.raise .encSkip)).emit .skip).emit .frameMark) =
      { p with
        slots := m
        bus := p.bus.raise .encSkip
        recd := { p.recd with card := { p.recd.card with
          clip := some { c with flags := { c.flags with skipped := true }, skipped := c.skipped + 1 } } } } := by
  have delivered : p.withSlots ((((Job.start m).emit (.raise .encSkip)).emit .skip).emit .frameMark) =
      ({ p with slots := m, bus := p.bus.raise .encSkip } : Part).skipNotice.lensJob fun j => j.mark .frame := rfl
  rw [delivered, Part.skipNotice_waits (p := { p with slots := m, bus := p.bus.raise .encSkip }) hc]
  unfold Part.lensJob
  dsimp only
  rw [h]
  rfl

/-- A frame released unseen, or seen (R43). -/
def SlotManager.released (f : CompleteFrame) (m : SlotManager) : SlotManager :=
  { m with unshown := if f.seenEnc = true ∨ f.seenVf = true then m.unshown else saturate32 m.unshown }

theorem Job.releaseFrame_counted {f : CompleteFrame} {recording : Bool} (hf : m.frameIn k = some f)
    (hs : f.seenEnc = true ∨ m.enc.slot = none ∨ recording = false) :
    (Job.start m).releaseFrame recording k = .start (m.released f) := by
  have seen : (f.seenEnc || f.seenVf) = true ↔ f.seenEnc = true ∨ f.seenVf = true := Bool.or_eq_true_iff
  have counted : (if f.seenEnc || f.seenVf then Job.start m
      else (Job.start m).change fun m => { m with unshown := saturate32 m.unshown }) =
        (Job.start (m.released f) : SlotWork) := by
    unfold SlotManager.released
    by_cases hseen : f.seenEnc = true ∨ f.seenVf = true
    · rw [if_pos (seen.2 hseen), if_pos hseen]
    · rw [if_neg (hseen ∘ seen.1), if_neg hseen]
      rfl
  unfold Job.releaseFrame
  rw [show (Job.start m : SlotWork).st.frameIn k = some f from hf]
  dsimp only
  rw [counted]
  refine if_neg ?_
  obtain h | h | h := hs
  · simp [h]
  · have unattached : (Job.start (m.released f) : SlotWork).st.enc.slot.isSome = false := congrArg Option.isSome h
    rw [unattached, Bool.and_false]
    exact Bool.false_ne_true
  · simp [h]

theorem Job.releaseFrame_skipped {f : CompleteFrame} (hf : m.frameIn k = some f) (he : f.seenEnc = false)
    (hs : m.enc.slot ≠ none) :
    (Job.start m).releaseFrame true k =
      ((Job.start { m.released f with skips := saturate32 m.skips }).emit (.raise .encSkip)).emit .skip := by
  unfold Job.releaseFrame
  rw [show (Job.start m : SlotWork).st.frameIn k = some f from hf]
  dsimp only
  rw [he, Bool.false_or]
  unfold SlotManager.released
  rw [he]
  have attached : m.enc.slot.isSome = true := Option.isSome_iff_ne_none.2 hs
  cases hv : f.seenVf
  · simp [Job.start, Job.change, Job.emit, attached]
  · simp [Job.start, Job.change, Job.emit, attached]

/-- The oldest READY slot is the first complete one that no reader is on (R43). -/
theorem SlotManager.oldestReady_of_attached {before after : List Nat} (hc : m.completion = before ++ k :: after)
    (hb : ∀ i ∈ before, m.enc.slot = some i ∨ m.vf.slot = some i) (he : m.enc.slot ≠ some k) (hv : m.vf.slot ≠ some k) :
    m.oldestReady = some k := by
  have taken : before.find? (fun i => !m.attached i) = none := by
    refine List.find?_eq_none.2 fun i hi => ?_
    have attached : m.attached i = true := (SlotManager.attached_iff .enc).2 (hb i hi)
    rw [attached]
    exact Bool.false_ne_true
  have ready : m.attached k = false := by
    unfold SlotManager.attached
    rw [decide_eq_false he, decide_eq_false hv]
    rfl
  unfold SlotManager.oldestReady
  rw [hc, List.find?_append, taken, List.find?_cons, ready]
  rfl

theorem Job.frameStart_ready (hun : m.Unfilled) (hfree : m.freeOrder = []) (hr : m.oldestReady = some k) (recording : Bool) :
    (Job.start m).frameStart recording =
      some ((((Job.start m).releaseFrame recording k).change (SlotManager.toFilling k)).emit .frameMark) := by
  have noFree : (Job.start m : SlotWork).st.freeOrder.head? = none := congrArg List.head? hfree
  rw [Job.frameStart_eq, Job.tear_of_unfilled hun, noFree, show (Job.start m : SlotWork).st.oldestReady = some k from hr]

theorem filter_ne_middle {before after : List Nat} (h : (before ++ k :: after).Nodup) :
    (before ++ k :: after).filter (· ≠ k) = before ++ after := by
  obtain ⟨notBefore, notAfter⟩ : k ∉ before ∧ k ∉ after := by
    obtain ⟨-, hafter, apart⟩ := List.nodup_append.1 h
    exact ⟨fun hk => apart k hk k List.mem_cons_self rfl, (List.nodup_cons.1 hafter).1⟩
  rw [List.filter_append, filter_ne_of_not_mem notBefore, filter_ne_cons notAfter]

/-- A READY slot claimed leaves the completion order (R43). -/
theorem SlotManager.toFilling_ready {before after : List Nat} (hfree : m.freeOrder = [])
    (hc : m.completion = before ++ k :: after) (hd : (before ++ k :: after).Nodup) :
    m.toFilling k = { m with table := m.table.set k (.filling 0), completion := before ++ after } := by
  unfold SlotManager.toFilling
  rw [hc, filter_ne_middle hd, hfree]
  rfl

end

/-- Settles O10: the frame starts with a FREE slot, a torn one and a READY one, and the beats that start no frame. -/
theorem captureBeatsAreRedirectedOrDropped : Obligations.CaptureBeatsAreRedirectedOrDropped := by
  refine ⟨?_, ?_, ?_, ?_⟩
  · intro s o b k rest h ho hline hch hen hun hfree hk hrest hcomplete claimed
    have size := SlotManager.lt_of_getElem? hk
    have order : s.part.slots.freeOrder.filter (· ≠ k) = rest := by rw [hfree, filter_ne_cons hrest]
    have starts := Job.captureBeat_starts (m := s.part.slots) (recording := s.part.recording) hline hch hen
      (.inl (SlotManager.filling_of_unfilled hun)) (Job.frameStart_free hun hfree _)
    have filled := Job.fillBeat_claimed (j := .start s.part.slots) size hun
    have claims {l : Lens} {outs : List Out} (hmark : (Job.start s.part.lens).mark .frame = ⟨l, outs⟩) : claimed outs l := by
      refine (exec_captureWrite_of_handsOn h ho (starts.trans (congrArg some filled))).trans
        (congrArg _ (State.onPart_congr ?_))
      have marked := Part.withSlots_mark (m := s.part.slots.toFilling k) hmark
      rw [SlotManager.toFilling_eq hcomplete, order] at marked
      dsimp only
      rw [show ((Job.start s.part.slots).change (SlotManager.toFilling k)).emit SlotOut.frameMark =
        (Job.start (s.part.slots.toFilling k)).emit .frameMark from rfl, SlotManager.toFilling_eq hcomplete, order, marked]
      rfl
    refine ⟨fun hz hf => claims (Job.mark_none (j := .start s.part.lens) hz hf _), ?_⟩
    intro n move ax pos d hw hp hc hother held
    have releases {ax' : StepAxis} {outs : List Out}
        (hr : Job.release Job.idleEntry n (.start s.part.lens) = ⟨s.part.lens.setAxis n ax', outs⟩) :
        claimed outs (s.part.lens.setAxis n ax') := by
      refine claims ((Job.mark_releases (j := .start s.part.lens) hp hc hother ?_).trans hr)
      rw [hr]
      exact (congrArg StepAxis.pendingMove (Lens.axis_setAxis_other ..)).trans hother
    refine ⟨fun htarget => ⟨fun hdwell => ?_, ?_⟩, fun htarget hsuspended => ?_⟩
    · have begun := Job.release_begins (l := s.part.lens) (outs := []) (ax := ax) rfl hw hp htarget
      rw [StepAxis.startMotion_dwells (ax := { ax with pendingMove := none }) (d := toward ax.at0 move.target) hdwell] at begun
      exact releases begun
    · intro hstart a
      have begun := Job.release_begins (l := s.part.lens) (outs := []) (ax := ax) rfl hw hp htarget
      rw [StepAxis.startMotion_starts (ax := { ax with pendingMove := none }) (d := toward ax.at0 move.target) hstart] at begun
      exact releases begun
    · have arrived := releases (Job.release_arrives (ax := ax) rfl hw hp htarget hother hsuspended)
      cases n <;> exact arrived
  · intro s o b h ho hcw
    refine ⟨fun hspill => ?_, fun hin => ?_⟩
    · exact (exec_captureWrite_of_handsOn h ho (Job.captureBeat_spills hspill _ _)).trans (congrArg _ (State.onPart_congr rfl))
    · intro offLine0
      refine ⟨fun hoff hun => ?_, fun k last hbefore hk hor => ?_⟩
      · have beat := Job.captureBeat_inside (m := s.part.slots) (map := s.part.map) hin (.inl (linesTouched_offLine0 hcw hoff))
          s.part.recording
        have dropped : (Job.start s.part.slots).fillBeat (linesTouched s.part.map o b.enables.toList).1 =
            (.start s.part.slots, .drop) := by
          unfold Job.fillBeat
          rw [show (Job.start s.part.slots : SlotWork).st.filling = none from SlotManager.filling_of_unfilled hun]
        exact (exec_captureWrite_of_handsOn h ho (beat.trans (congrArg some dropped))).trans
          (congrArg _ (State.onPart_congr rfl))
      · have filling := SlotManager.filling_of_first hk hbefore
        have beat := Job.captureBeat_inside (m := s.part.slots) (map := s.part.map) (enables := b.enables.toList) hin
          (hor.imp (linesTouched_offLine0 hcw) fun (hl : last = 0) => ⟨k, hl ▸ filling⟩) s.part.recording
        have filled : (Job.start s.part.slots).fillBeat (linesTouched s.part.map o b.enables.toList).1 =
            ((Job.start s.part.slots).change (SlotManager.setSlot k
              (.filling (max last ((linesTouched s.part.map o b.enables.toList).1.getD 0)))), .redirect k) := by
          unfold Job.fillBeat
          rw [show (Job.start s.part.slots : SlotWork).st.filling = some (k, last) from filling]
        obtain ⟨bound, attained⟩ := linesTouched_highest s.part.map o b.enables.toList
        refine ⟨_, (exec_captureWrite_of_handsOn h ho (beat.trans (congrArg some filled))).trans
          (congrArg _ (State.onPart_congr rfl)), le_max_left .., fun i hi he hin' => ?_, ?_⟩
        · exact (bound i hi he hin').trans (le_max_right ..)
        · obtain hzero | ⟨i, hi, he, hline⟩ := attained
          · exact .inl (by rw [hzero]; exact Nat.max_zero _)
          · obtain hle | hle := le_total ((linesTouched s.part.map o b.enables.toList).1.getD 0) last
            · exact .inl (max_eq_left hle)
            · exact .inr ⟨i, hi, he, (max_eq_right hle).trans hline⟩
  · intro s o b k last h ho hline hch hen laws hk hlast hz hf j
    have filling : s.part.slots.filling = some (k, last) :=
      SlotManager.filling_of_first hk fun i hi n hi' => absurd (laws.oneFilling i k n last hi' hk) (by omega)
    have notFree : k ∉ s.part.slots.freeOrder := fun hm => by
      have := (laws.free k).1 hm
      rw [hk] at this
      cases this
    have notComplete : k ∉ s.part.slots.completion := fun hm => by
      obtain ⟨f, hf⟩ := (laws.complete k).1 hm
      rw [hk] at hf
      cases hf
    have nodup : (s.part.slots.freeOrder ++ [k]).Nodup := nodup_append_singleton laws.freeOnce notFree
    have order : s.part.slots.freeOrder ++ [k] = j :: (s.part.slots.freeOrder ++ [k]).drop 1 := by
      unfold j
      cases s.part.slots.freeOrder <;> rfl
    have member : j ∈ s.part.slots.freeOrder ++ [k] := by
      rw [order]
      exact List.mem_cons_self
    have rest : j ∉ (s.part.slots.freeOrder ++ [k]).drop 1 := by
      rw [order] at nodup
      exact (List.nodup_cons.1 nodup).1
    have place : j < s.part.slots.table.length ∧ j ∉ s.part.slots.completion := by
      obtain hm | hm := List.mem_append.1 member
      · have free := (laws.free j).1 hm
        refine ⟨SlotManager.lt_of_getElem? free, fun hc => ?_⟩
        obtain ⟨f, hf⟩ := (laws.complete j).1 hc
        rw [free] at hf
        cases hf
      · rw [List.mem_singleton.1 hm]
        exact ⟨SlotManager.lt_of_getElem? hk, notComplete⟩
    let torn : SlotManager := { s.part.slots with
      table := s.part.slots.table.set k .free
      freeOrder := s.part.slots.freeOrder ++ [k]
      torn := saturate32 s.part.slots.torn }
    have tear : (Job.start s.part.slots : SlotWork).tear = (Job.start torn).emit (.raise .frameTorn) := by
      unfold Job.tear
      rw [show (Job.start s.part.slots : SlotWork).st.filling = some (k, last) from filling]
      dsimp only [Job.start, Job.change, SlotManager.toFree]
      rw [filter_ne_of_not_mem notComplete]
    have unfilled : torn.Unfilled := by
      have after := Job.tear_unfilled (j := .start s.part.slots) laws
      rw [tear] at after
      exact after
    have begun : (Job.start s.part.slots).frameStart s.part.recording =
        some ((((Job.start torn).emit (.raise .frameTorn)).change (SlotManager.toFilling j)).emit .frameMark) := by
      rw [Job.frameStart_eq, tear]
      rw [show ((Job.start torn).emit (.raise .frameTorn) : SlotWork).st.freeOrder.head? = some j from congrArg List.head? order]
    have starts := Job.captureBeat_starts (recording := s.part.recording) hline hch hen (.inr ⟨k, last, filling, hlast⟩) begun
    have filled := Job.fillBeat_claimed (k := j) (j := (Job.start torn).emit (.raise .frameTorn))
      (by rw [show ((Job.start torn).emit (.raise .frameTorn) : SlotWork).st.table = s.part.slots.table.set k .free from rfl,
            List.length_set]; exact place.1) unfilled
    refine (exec_captureWrite_of_handsOn h ho (starts.trans (congrArg some filled))).trans
      (congrArg _ (State.onPart_congr ?_))
    have slots : torn.toFilling j = { torn with
        table := torn.table.set j (.filling 0), freeOrder := (s.part.slots.freeOrder ++ [k]).drop 1 } := by
      rw [SlotManager.toFilling_eq (m := torn) place.2]
      have left : torn.freeOrder.filter (· ≠ j) = (s.part.slots.freeOrder ++ [k]).drop 1 := by
        change (s.part.slots.freeOrder ++ [k]).filter (· ≠ j) = _
        conv_lhs => rw [order]
        exact filter_ne_cons rest
      rw [left]
    have marked := Part.withSlots_torn (p := s.part) (m := torn.toFilling j)
      (Job.mark_none (j := .start s.part.lens) hz hf _)
    rw [slots] at marked
    dsimp only
    rw [show (((Job.start torn).emit (.raise .frameTorn)).change (SlotManager.toFilling j)).emit SlotOut.frameMark =
      ((Job.start (torn.toFilling j)).emit (.raise .frameTorn)).emit .frameMark from rfl, slots, marked]
    rfl
  · intro s o b k f before after h ho hline hch hen laws hun hfree hcompletion hbefore henc hvf hk hz hf claimed
    have nodup : (before ++ k :: after).Nodup := hcompletion ▸ laws.completeOnce
    have ready : s.part.slots.oldestReady = some k := SlotManager.oldestReady_of_attached hcompletion hbefore henc hvf
    have begun := Job.frameStart_ready hun hfree ready s.part.recording
    have starts := Job.captureBeat_starts hline hch hen (.inl (SlotManager.filling_of_unfilled hun)) begun
    have frame : s.part.slots.frameIn k = some f := SlotManager.frameIn_of_complete hk
    have size := SlotManager.lt_of_getElem? hk
    have marked := Job.mark_none (j := .start s.part.lens) hz hf .frame
    have filled {w : SlotWork} (htable : w.st.table = s.part.slots.table) :=
      Job.fillBeat_claimed (k := k) (j := w) (htable ▸ size) (fun i n => htable ▸ hun i n)
    refine ⟨fun hseen => ?_, fun c henc' hslot hrec hwaits => ?_⟩
    · have released := Job.releaseFrame_counted (recording := s.part.recording) frame
        (hseen.imp_right (.imp_right decide_eq_false))
      rw [released] at starts
      refine (exec_captureWrite_of_handsOn h ho (starts.trans (congrArg some (filled rfl)))).trans
        (congrArg _ (State.onPart_congr ?_))
      have claimed := SlotManager.toFilling_ready (m := s.part.slots.released f) hfree hcompletion nodup
      have delivered := Part.withSlots_mark (p := s.part) (m := (s.part.slots.released f).toFilling k) marked
      rw [claimed] at delivered
      rw [show ((Job.start (s.part.slots.released f)).change (SlotManager.toFilling k)).emit SlotOut.frameMark =
        (Job.start ((s.part.slots.released f).toFilling k)).emit .frameMark from rfl, claimed, delivered]
      rfl
    · have recording : s.part.recording = true := decide_eq_true hrec
      rw [recording, Job.releaseFrame_skipped frame henc' hslot, ← recording] at starts
      refine (exec_captureWrite_of_handsOn h ho (starts.trans (congrArg some (filled rfl)))).trans
        (congrArg _ (State.onPart_congr ?_))
      let m : SlotManager := { s.part.slots.released f with skips := saturate32 s.part.slots.skips }
      have claimed := SlotManager.toFilling_ready (m := m) hfree hcompletion nodup
      have delivered := Part.withSlots_skipped (p := s.part) (m := m.toFilling k) marked hwaits
      rw [claimed] at delivered
      rw [show ((((Job.start m).emit (.raise .encSkip)).emit .skip).change (SlotManager.toFilling k)).emit SlotOut.frameMark =
        (((Job.start (m.toFilling k)).emit (.raise .encSkip)).emit .skip).emit .frameMark from rfl, claimed, delivered]
      rfl

end Sys2Proof.Machine

end

section
/-! PROOFS. The steps of an axis (05 sections 5.2 to 5.4): the decision of the ramp, a step of a move and of a homing leg, the
step budget, and the end of a dwell. -/

namespace Sys2Proof.Machine

/-! ### A lens side on which nothing waits -/

/-- No move waits on either axis, and focus follows no zoom (R96, R104, R107). -/
structure Lens.Unwatched (l : Lens) : Prop where
  zoom : l.zoom.pendingMove = none
  focus : l.focus.pendingMove = none
  tracking : l.coord.tracking = false
  suspended : l.coord.suspended = false

section

variable {j : LensWork} {n : AxisName} {a : StepAxis} {l : Lens}

theorem Lens.Unwatched.setAxis (h : l.Unwatched) (ha : a.pendingMove = none) : (l.setAxis n a).Unwatched := by
  obtain ⟨hz, hf, ht, hs⟩ := h
  cases n
  · exact ⟨ha, hf, ht, hs⟩
  · exact ⟨hz, ha, ht, hs⟩

theorem Lens.Unwatched.axis (h : l.Unwatched) (n : AxisName) : (l.axis n).pendingMove = none := by
  cases n
  · exact h.zoom
  · exact h.focus

/-- Focus stays where it is while tracking is off (R104). -/
theorem Job.retargetAt_of_untracked {onIdle : OnIdle} {z : Nat} (h : j.st.coord.tracking = false) : j.retargetAt onIdle z = j := by
  unfold Job.retargetAt
  dsimp only
  rw [h]
  cases j.st.coord.table <;> rfl

theorem Job.retarget_of_untracked {onIdle : OnIdle} (h : j.st.coord.tracking = false) : j.retarget onIdle = j := by
  cases hz : j.st.zoom.pos with
  | none => exact Job.retarget_of_noZoom hz
  | some z => exact (Job.retarget_of_zoom hz).trans (Job.retargetAt_of_untracked h)

theorem Job.idleEntryWith_unwatched (h : j.st.Unwatched) (fuel : Nat) (homeEdge : Bool) :
    j.idleEntryWith (fuel + 1) homeEdge n = j := by
  unfold Job.idleEntryWith
  cases n with
  | zoom => exact Job.releaseOn_none h.focus
  | focus =>
    dsimp only
    rw [if_neg (by simp [h.suspended]), Job.retarget_of_untracked h.tracking, ite_self]
    exact Job.releaseOn_none h.zoom

theorem Job.mark_unwatched (h : j.st.Unwatched) (src : MarkSource) : j.mark src = j := Job.mark_none h.zoom h.focus src

/-- What a decision hands over besides marks: its factors, then the end of the command (R80, R89). -/
def StepResult.handed (r : StepResult) : List Out :=
  r.raises.map Out.raise ++ (match r.finish with
    | some (s, code, detail) => [.finish s code detail]
    | none => [])

/-- With nothing waiting a decision changes its axis alone (R80). -/
theorem Job.settle_unwatched {r : StepResult} (h : j.st.Unwatched) (hp : r.ax.pendingMove = none) (hA : r.firedA = false)
    (hB : r.firedB = false) : j.settle n r = ⟨j.st.setAxis n r.ax, j.out ++ r.handed⟩ := by
  have placed : (j.putAxis n r.ax).st.Unwatched := h.setAxis hp
  have last (w : LensWork) (hw : w.st = (j.putAxis n r.ax).st) :
      (if r.homeEdge && decide (n = .zoom) then w.retarget Job.idleEntry else w) = w := by
    rw [Job.retarget_of_untracked (hw ▸ placed.tracking), ite_self]
  unfold Job.settle
  dsimp only
  rw [hA, hB, if_neg Bool.false_ne_true, if_neg Bool.false_ne_true, Job.mark_unwatched placed, ite_self,
    Job.mark_unwatched placed, ite_self, Job.idleEntryWith_unwatched placed, ite_self]
  unfold StepResult.handed
  cases r.finish with
  | none =>
    rw [List.append_nil]
    exact last _ rfl
  | some f =>
    rw [← List.append_assoc]
    exact last _ rfl

end

/-! ### A step of a move, and of a homing leg -/

section

variable {n : AxisName} {sensor : Bool} {l : Lens} {ax : StepAxis} {k : CmdSlot}

/-- Both comparators are off and were not met (R94). -/
structure StepAxis.Uncompared (ax : StepAxis) : Prop where
  offA : ax.cmpA.cond = .off
  offB : ax.cmpB.cond = .off
  metA : ax.cmpA.met = false
  metB : ax.cmpB.met = false

/-- The axis with the sensor read (R84). -/
def StepAxis.read (sensor : Bool) (ax : StepAxis) : StepAxis := { ax with sensor := sensor }

theorem Lens.range_setAxis (n m : AxisName) (a : StepAxis) (l : Lens) : (l.setAxis n a).range m = l.range m := by
  cases n <;> rfl

theorem Lens.homeValue_setAxis (n m : AxisName) (a : StepAxis) (l : Lens) : (l.setAxis n a).homeValue m = l.homeValue m := by
  cases n <;> rfl

/-- A step of a MOVING axis settles its decision (R80). -/
theorem Job.axisStep_moving (hl : l.Unwatched) (hc : (l.axis n).Uncompared) (hm : (l.axis n).state = .moving) {r : StepResult}
    (hr : (((l.axis n).read sensor).stepped).motionDecision n = r) (hp : r.ax.pendingMove = none) (hA : r.firedA = false)
    (hB : r.firedB = false) :
    (Job.start l).axisStep n sensor = ⟨l.setAxis n r.ax, r.handed⟩ := by
  have read : ((Job.start l).putAxis n ((l.axis n).read sensor)).st.axis n = (l.axis n).read sensor := by simp
  have taken : ((Job.start l).putAxis n ((l.axis n).read sensor)).takeStep n =
      (Job.start l).putAxis n ((l.axis n).read sensor).stepped := by
    have plain := Job.takeStep_plain (n := n) (j := (Job.start l).putAxis n ((l.axis n).read sensor))
      (by rw [read]; exact hc.offA) (by rw [read]; exact hc.offB) (by rw [read]; exact hc.metA)
      (by rw [read]; exact hc.metB) ((congrArg Coordinator.tracking (Lens.setAxis_coord ..)).trans hl.tracking)
    rw [plain, read, Job.putAxis_putAxis]
  have step : (Job.start l).axisStep n sensor = (((Job.start l).putAxis n ((l.axis n).read sensor)).takeStep n).settle n
      (((((Job.start l).putAxis n ((l.axis n).read sensor)).takeStep n).st.axis n).motionDecision n) := by
    unfold Job.axisStep
    dsimp only
    rw [show (Job.start l : LensWork).st.axis n = l.axis n from rfl]
    generalize l.axis n = ax at hm ⊢
    cases ax
    cases hm
    rfl
  have stepped : (((Job.start l).putAxis n ((l.axis n).read sensor).stepped).st.axis n).motionDecision n = r := by
    rw [← hr]
    exact congrArg (StepAxis.motionDecision n) (Lens.axis_setAxis ..)
  rw [step, taken, stepped, Job.settle_unwatched (hl.setAxis (n := n) (a := ((l.axis n).read sensor).stepped) (hl.axis n)) hp hA hB]
  exact congrArg (Job.mk · r.handed) (Lens.setAxis_setAxis ..)

/-- A move that reaches its target is IDLE there, its command DONE (R89). -/
theorem StepAxis.motionDecision_arrives (hg : ax.goal = .moveTo ax.at0) (hk : ax.holder = some (.host k)) :
    ∃ r, ax.motionDecision n = r ∧ r.ax = { ax.rest .idle with holder := none } ∧ r.firedA = false ∧ r.firedB = false ∧
      r.handed = [.raise (arrivalFactor n), .finish k .done 0] := by
  refine ⟨_, rfl, ?_⟩
  have arrived : ax.motionDecision n = (StepResult.plain ax).idleWith [arrivalFactor n] (some (.done, 0)) := by
    unfold StepAxis.motionDecision
    rw [hg]
    exact if_pos rfl
  have slot : ax.hostSlot = some k := by
    unfold StepAxis.hostSlot
    rw [hk]
  rw [arrived]
  unfold StepResult.idleWith StepResult.handed
  rw [show (StepResult.plain ax).ax.hostSlot = some k from slot]
  exact ⟨rfl, rfl, rfl, rfl⟩

/-- Short of its target the step ends with the decision of the ramp (R80). -/
theorem StepAxis.motionDecision_goesOn {t : Nat} (hg : ax.goal = .moveTo t) (ht : t ≠ ax.at0) :
    ax.motionDecision n = (StepResult.plain ax).decided := by
  unfold StepAxis.motionDecision
  rw [hg]
  exact if_neg ht

/-- A step of a homing leg settles its outcome (R84, R85). -/
theorem Job.axisStep_leg (hl : l.Unwatched) {toward : Bool} {steps : Nat} (hs : (l.axis n).state = .homing)
    (hh : (l.axis n).homing = some (.leg toward steps false)) {r : StepResult}
    (hr : ((l.axis n).read sensor).legStep n (l.range n) (l.homeValue n) toward steps = r) (hp : r.ax.pendingMove = none)
    (hA : r.firedA = false) (hB : r.firedB = false) :
    (Job.start l).axisStep n sensor = ⟨l.setAxis n r.ax, r.handed⟩ := by
  have step : (Job.start l).axisStep n sensor = ((Job.start l).putAxis n ((l.axis n).read sensor)).settle n r := by
    have range : ((Job.start l).putAxis n ((l.axis n).read sensor)).st.range n = l.range n :=
      Lens.range_setAxis ..
    have home : ((Job.start l).putAxis n ((l.axis n).read sensor)).st.homeValue n = l.homeValue n :=
      Lens.homeValue_setAxis ..
    rw [← hr, ← range, ← home]
    unfold Job.axisStep
    dsimp only
    rw [show (Job.start l : LensWork).st.axis n = l.axis n from rfl]
    generalize l.axis n = ax at hs hh ⊢
    cases ax
    cases hs
    cases hh
    rfl
  rw [step, Job.settle_unwatched (hl.setAxis (n := n) (a := (l.axis n).read sensor) (hl.axis n)) hp hA hB]
  exact congrArg (Job.mk · r.handed) (Lens.setAxis_setAxis ..)

theorem Lens.failNext_of_leg {toward : Bool} {steps : Nat} (hs : (l.axis n).state = .homing)
    (hh : (l.axis n).homing = some (.leg toward steps false))
    (hf : (((l.axis n).read sensor).legStep n (l.range n) (l.homeValue n) toward steps).ax.state = .fault) :
    l.failNext n sensor = true := by
  unfold Lens.failNext
  dsimp only
  generalize l.axis n = ax at hs hh hf ⊢
  cases ax
  cases hs
  cases hh
  exact decide_eq_true hf

/-- A comparator that is off does not fire (R94). -/
theorem Comparator.evaluate_off {c : Comparator} (h : c.cond = .off) (p : Nat) : (c.evaluate p).2 = false := by
  unfold Comparator.evaluate Comparator.holds
  rw [h]
  rfl

/-- The leg toward the sensor that finds it has found home (R84). -/
theorem StepAxis.legStep_home {range home steps : Nat} (hc : ax.Uncompared) (hs : ax.sensor = true)
    (hk : ax.holder = some (.host k)) :
    ∃ r, ax.legStep n range home true steps = r ∧ r.ax.pendingMove = ax.pendingMove ∧ r.firedA = false ∧ r.firedB = false ∧
      r.handed = [.raise .homeDone, .finish k .done 0] ∧ r.ax.state = .idle ∧ r.ax.pos = some home ∧ r.ax.holder = none ∧
      r.ax.homing = none ∧ r.ax.sensor = true := by
  have slot (a : StepAxis) (ha : a.holder = ax.holder) : a.hostSlot = some k := by
    unfold StepAxis.hostSlot
    rw [ha, hk]
  refine ⟨_, rfl, ?_⟩
  unfold StepAxis.legStep
  rw [hs]
  simp only [Bool.and_self, if_true]
  refine ⟨rfl, Comparator.evaluate_off (c := { ax.cmpA with met := false }) hc.offA home,
    Comparator.evaluate_off (c := { ax.cmpB with met := false }) hc.offB home, ?_, rfl, rfl, rfl, rfl, rfl⟩
  unfold StepResult.idleWith StepResult.handed
  dsimp only
  rw [slot]
  · rfl
  · rfl

/-- The leg toward the sensor that spends the budget without it fails (R85). -/
theorem StepAxis.legStep_fails {range home steps : Nat} (hs : ax.sensor = false) (hk : ax.holder = some (.host k))
    (hb : homingBudget range ≤ steps + 1) :
    ax.legStep n range home true steps =
      { StepResult.plain { (({ ax with dir := some ax.motionDir, homing := some (.leg true (steps + 1) false) } :
          StepAxis).rest .fault).losePosition with holder := none } with
        raises := [.axisFault]
        finish := some (k, .failed, 1) } := by
  have slot (a : StepAxis) (ha : a.holder = ax.holder) : a.hostSlot = some k := by
    unfold StepAxis.hostSlot
    rw [ha, hk]
  unfold StepAxis.legStep
  rw [hs]
  simp only [Bool.and_false, Bool.false_eq_true, if_false]
  rw [if_pos hb, slot]
  · rfl
  · rfl

end

/-! ### The ramp (R78, R80) -/

section

variable {a : StepAxis} {kc : Nat}

theorem StepAxis.cap_le (h : a.vStart ≤ a.vMax) : a.cap ≤ a.vMax := by
  unfold StepAxis.cap
  dsimp only
  refine max_le h ?_
  have own : (if a.ownCap = 0 then a.vMax else min a.vMax a.ownCap) ≤ a.vMax := by
    split
    · exact le_rfl
    · exact min_le_left ..
  split
  · exact (min_le_left ..).trans own
  · exact own

/-- v(k) has reached the cap where k is at least the cap index in closed form (R78). -/
theorem StepAxis.cap_le_speedAt_iff (hr : 1 ≤ a.ramp) (hv : a.vStart ≤ a.vMax) (k : Nat) :
    a.cap ≤ a.speedAt k ↔ a.capIndex ≤ k := by
  unfold StepAxis.speedAt StepAxis.capIndex
  by_cases hlow : a.cap ≤ a.vStart
  · rw [if_pos hlow]
    exact ⟨fun _ => Nat.zero_le k, fun _ => hlow.trans (Nat.le_add_right ..)⟩
  · have above : a.cap ≤ a.vMax := StepAxis.cap_le hv
    have rises : 0 < a.vMax - a.vStart := by omega
    rw [if_neg hlow, Nat.div_le_iff_le_mul_add_pred rises]
    have reached : a.cap ≤ a.vStart + (a.vMax - a.vStart) * k / a.ramp ↔
        a.cap - a.vStart ≤ (a.vMax - a.vStart) * k / a.ramp := by omega
    rw [reached, Nat.le_div_iff_mul_le hr]
    omega

/-- The least k at which v(k) has reached the cap is the cap index (R78). -/
theorem StepAxis.capIndex_eq (hr : 1 ≤ a.ramp) (hv : a.vStart ≤ a.vMax) (h : a.cap ≤ a.speedAt kc)
    (hleast : ∀ k < kc, a.speedAt k < a.cap) : a.capIndex = kc := by
  have below : a.capIndex ≤ kc := (StepAxis.cap_le_speedAt_iff hr hv kc).1 h
  refine below.antisymm (Nat.le_of_not_lt fun hlt => ?_)
  exact absurd ((StepAxis.cap_le_speedAt_iff hr hv a.capIndex).2 le_rfl) (Nat.not_le.2 (hleast _ hlt))

/-- The axis after a decision (R80). -/
def StepAxis.ramped (k : Nat) (phase : Phase) (a : StepAxis) : StepAxis :=
  { a with k := k, phase := phase, speed := min a.cap (a.speedAt k) }

/-- The motion must slow down: its end is within k steps, or k is past the cap index (R80). -/
def StepAxis.close (a : StepAxis) : Bool :=
  (match a.remaining with
    | some r => decide (r ≤ a.k)
    | none => false) || decide (a.capIndex < a.k)

/-- The motion may speed up (R80). -/
def StepAxis.room (a : StepAxis) : Bool :=
  (match a.remaining with
    | some r => decide (a.k + 1 < r)
    | none => true) && decide (a.k < a.capIndex)

theorem StepAxis.close_iff : a.close = true ↔ (∃ r, a.remaining = some r ∧ r ≤ a.k) ∨ a.capIndex < a.k := by
  unfold StepAxis.close
  cases a.remaining <;> simp

theorem StepAxis.room_iff : a.room = true ↔ (∀ r, a.remaining = some r → a.k + 1 < r) ∧ a.k < a.capIndex := by
  unfold StepAxis.room
  cases a.remaining <;> simp

theorem StepAxis.decideNext_eq :
    a.decideNext =
      if a.close then a.ramped (a.k - 1) .decel
      else if a.room then a.ramped (a.k + 1) (if a.k + 1 = a.capIndex then .cruise else .accel)
      else a.ramped a.k .cruise := by
  have decision : a.decideNext =
      (fun next : Nat × Phase => a.ramped next.1 next.2) (if a.close then (a.k - 1, .decel)
        else if a.room then (a.k + 1, if a.k + 1 = a.capIndex then .cruise else .accel) else (a.k, .cruise)) := rfl
  rw [decision]
  cases a.close
  · cases a.room <;> rfl
  · rfl

end

/-- Settles O52: the steps of a move and of a homing leg, the end of a dwell, and the three cases of the ramp's decision. -/
theorem axesStepTowardTheirGoal : Obligations.AxesStepTowardTheirGoal := by
  refine ⟨?_, ?_⟩
  · intro s n sensor k hz hf ht hs ax hoffA hoffB hmetA hmetB hk pos' done now stepped
    have quiet : s.part.lens.Unwatched := ⟨hz, hf, ht, hs⟩
    have uncompared : (s.part.lens.axis n).Uncompared := ⟨hoffA, hoffB, hmetA, hmetB⟩
    have steps {outs : List Out} {a : StepAxis}
        (h : (Job.start s.part.lens).axisStep n sensor = ⟨s.part.lens.setAxis n a, outs⟩) :
        (.next (s.onPart (Part.lensJob fun j => j.axisStep n sensor)) : Answer) = done outs a := by
      refine congrArg _ (State.onPart_congr ?_)
      unfold Part.lensJob
      dsimp only
      rw [h]
    refine ⟨fun t hm hg => ⟨fun hat => ?_, fun hshort => ?_⟩, fun n' hh hleg hoff hbudget => ?_,
      fun n' hh hleg hon => ?_, fun hd => ?_⟩
    · have goal : stepped.goal = .moveTo stepped.at0 := hg.trans (congrArg Goal.moveTo hat.symm)
      obtain ⟨r, hr, hax, hA, hB, hout⟩ := StepAxis.motionDecision_arrives (n := n) goal hk
      have moved := Job.axisStep_moving quiet uncompared hm hr (by rw [hax]; exact quiet.axis n) hA hB
      rw [hax, hout] at moved
      cases n <;> exact steps moved
    · have decided := StepAxis.motionDecision_goesOn (n := n) (ax := stepped) hg (Ne.symm hshort)
      exact steps (Job.axisStep_moving quiet uncompared hm decided (quiet.axis n) rfl rfl)
    · have fails := StepAxis.legStep_fails (n := n) (ax := now) (home := s.part.lens.homeValue n) hoff hk hbudget
      have next : s.part.lens.failNext n sensor = true :=
        Lens.failNext_of_leg hh hleg (congrArg (fun r : StepResult => r.ax.state) fails)
      have ran : exec (.homingFail n sensor) s = .next (if s.part.lens.failNext n sensor then
        s.onPart (Part.lensJob fun j => j.axisStep n sensor) else s) := rfl
      rw [ran, if_pos next]
      exact ⟨_, steps (Job.axisStep_leg quiet hh hleg fails (quiet.axis n) rfl rfl), rfl, rfl, rfl, rfl, rfl⟩
    · obtain ⟨r, hr, hp, hA, hB, hout, hstate, hpos, hheld, hnone, hsense⟩ :=
        StepAxis.legStep_home (n := n) (ax := now) (range := s.part.lens.range n) (home := s.part.lens.homeValue n)
          (steps := n') ⟨hoffA, hoffB, hmetA, hmetB⟩ hon hk
      have stepped := Job.axisStep_leg quiet hh hleg hr (hp.trans (quiet.axis n)) hA hB
      rw [hout] at stepped
      exact ⟨r.ax, steps stepped, hstate, hpos, hheld, hnone, hsense⟩
    · have expired : ax.dwellDone = ax.startNow ax.motionDir := by
        unfold StepAxis.dwellDone
        rw [hd]
      refine ⟨ax.startNow ax.motionDir, ?_, rfl, rfl, rfl, rfl, rfl, rfl, rfl⟩
      rw [← expired]
      rfl
  · intro a kc hr hv v own c hreach hleast pos left close faster next
    have index : a.capIndex = kc := StepAxis.capIndex_eq hr hv hreach hleast
    have remaining : a.remaining = left := by
      unfold StepAxis.remaining StepAxis.limitAhead left
      cases a.goal with
      | jog => cases a.action <;> cases a.motionDir <;> rfl
      | _ => rfl
    have isClose : a.close = true ↔ close := by rw [StepAxis.close_iff, index, remaining]
    have isRoom : a.room = true ↔ faster := by rw [StepAxis.room_iff, index, remaining]
    have decision := StepAxis.decideNext_eq (a := a)
    refine ⟨fun hc => ?_, fun hc hf => ?_, fun hc hf => ?_⟩
    · rw [decision, if_pos (isClose.2 hc)]
      rfl
    · rw [decision, if_neg (hc ∘ isClose.1), if_pos (isRoom.2 hf), index]
      rfl
    · rw [decision, if_neg (hc ∘ isClose.1), if_neg (hf ∘ isRoom.1)]
      rfl

end Sys2Proof.Machine

end

section
/-! PROOFS. The rocker takes, jogs and releases the zoom (06 section 6.6). -/

namespace Sys2Proof.Machine

/-! ### The jog of an axis (R79, R90) -/

section

variable {ax : StepAxis} {d : Dir} {cap level : Nat}

theorem StepAxis.jogTo_dwellsOn (h : ax.state = .dwell) (hd : ax.motionDir = d) :
    ax.jogTo d cap = { ax with goal := .jog, ownCap := cap } := by
  unfold StepAxis.jogTo
  split
  · next hm => rw [h] at hm; cases hm
  · exact if_pos hd
  · next hne => exact absurd h hne

theorem StepAxis.jogTo_dwellTurns (h : ax.state = .dwell) (hd : ax.motionDir ≠ d) :
    ax.jogTo d cap = ax.startMotion d .jog cap := by
  unfold StepAxis.jogTo
  split
  · next hm => rw [h] at hm; cases hm
  · exact if_neg hd
  · next hne => exact absurd h hne

theorem StepAxis.jogTo_waiting (h : ax.state = .waiting) : ax.jogTo d cap = ax.startMotion d .jog cap := by
  unfold StepAxis.jogTo
  split
  · next hm => rw [h] at hm; cases hm
  · next hd => rw [h] at hd; cases hd
  · rfl

/-- The way the rocker points (R109). -/
def rockerDir (level : Nat) : Dir := if 128 < level then .up else .down

/-- The zoom that the rocker holds jogs by its level: on the limit ahead it makes no motion (R110; log 30). -/
def StepAxis.rocked (level : Nat) (ax : StepAxis) : StepAxis :=
  if ax.blocked (rockerDir level) then (if ax.state = .idle then ax else ax.rest .idle)
  else ax.jogTo (rockerDir level) (ax.rockerSpeed level)

theorem StepAxis.rocked_free (h : ¬ax.blocked (rockerDir level) = true) :
    ax.rocked level = ax.jogTo (rockerDir level) (ax.rockerSpeed level) := if_neg h

theorem StepAxis.rocked_idle (h : ax.blocked (rockerDir level) = true) (hs : ax.state = .idle) : ax.rocked level = ax :=
  (if_pos h).trans (if_pos hs)

theorem StepAxis.rocked_rests (h : ax.blocked (rockerDir level) = true) (hs : ax.state ≠ .idle) :
    ax.rocked level = ax.rest .idle := (if_pos h).trans (if_neg hs)

end

section

variable {j : LensWork} {level : Nat}

/-- The rocker's jog changes the zoom alone, where no focus move waits for its rest on the limit (R107, R110). -/
theorem Job.rockerJog_eq (h : j.st.zoom.blocked (rockerDir level) = true → j.st.zoom.state ≠ .idle →
      j.st.focus.pendingMove = none) :
    j.rockerJog level = j.putAxis .zoom (({ j.st.zoom with holder := some .request } : StepAxis).rocked level) := by
  have same : ({ j.st.zoom with holder := some .request } : StepAxis).blocked (rockerDir level) =
      j.st.zoom.blocked (rockerDir level) := rfl
  unfold Job.rockerJog StepAxis.rocked
  rw [same]
  by_cases hb : j.st.zoom.blocked (rockerDir level) = true
  · rw [if_pos hb]
    refine (if_pos hb).trans ?_
    by_cases hi : j.st.zoom.state = .idle
    · rw [if_pos hi]
      split
      · rfl
      · next hn => exact absurd hi hn
    · rw [if_neg hi]
      split
      · next hn => exact absurd hn hi
      · exact Job.idleEntry_none (h hb hi) nofun
  · rw [if_neg hb]
    exact if_neg hb

/-- One that dwells when the rocker lets it go is IDLE, and has arrived (R110; log 50). -/
theorem Job.rockerRelease_dwell (hd : j.st.zoom.state = .dwell) (hf : j.st.focus.pendingMove = none) :
    j.rockerRelease = (j.putAxis .zoom { j.st.zoom.rest .idle with holder := none }).emit (.raise .zoomDone) := by
  unfold Job.rockerRelease
  dsimp only
  split
  · next hm => rw [hd] at hm; cases hm
  · have quiet : (j.putAxis .zoom { j.st.zoom.rest .idle with holder := none }).idleEntry .zoom =
        j.putAxis .zoom { j.st.zoom.rest .idle with holder := none } := Job.idleEntry_none hf nofun
    rw [quiet]
  · next hn => exact absurd hd hn

theorem Job.rockerRelease_still (hs : j.st.zoom.state = .idle) :
    j.rockerRelease = j.putAxis .zoom { j.st.zoom with holder := none } := by
  unfold Job.rockerRelease
  dsimp only
  split
  · next hm => rw [hs] at hm; cases hm
  · next hd => rw [hs] at hd; cases hd
  · rfl

theorem Job.rockerRelease_stopping (hm : j.st.zoom.state = .moving) {p : Int} {x : AfterStop}
    (hg : j.st.zoom.goal = .stopAt p x) :
    j.rockerRelease = j.putAxis .zoom { j.st.zoom with goal := .stopAt p .rest, holder := some .request } := by
  unfold Job.rockerRelease
  dsimp only
  split
  · rw [StepAxis.decelerate_keeps hg]
  · next hd => rw [hm] at hd; cases hd
  · next hne _ => exact absurd hm hne

theorem deadBand_eq_true_iff : deadBand level = true ↔ 120 ≤ level ∧ level ≤ 136 := by simp [deadBand, within]

end

/-! ### A sample (R109) -/

section

variable {j : LensWork} {level : Nat}

/-- The rocker in another state (R109). -/
def Job.rockerTo (r : RockerState) (j : LensWork) : LensWork := j.coord fun c => { c with rocker := r }

theorem Job.rockerChange_stays (h : j.st.coord.rocker = .off ∨ (j.st.coord.rocker = .centre ∧ deadBand level = true) ∨
    (j.st.coord.rocker = .lockout ∧ deadBand level = false)) : j.rockerChange level = j := by
  unfold Job.rockerChange
  obtain hr | ⟨hr, hb⟩ | ⟨hr, hb⟩ := h
  · rw [hr]
  · rw [hr, hb]
  · rw [hr, hb]

theorem Job.rockerChange_centres (hr : j.st.coord.rocker = .lockout) (hb : deadBand level = true) :
    j.rockerChange level = j.rockerTo .centre := by
  unfold Job.rockerChange
  rw [hr, hb]
  rfl

theorem Job.rockerChange_locks (hr : j.st.coord.rocker = .centre) (hb : deadBand level = false) (hu : j.st.zoom.usable = false) :
    j.rockerChange level = j.rockerTo .lockout := by
  unfold Job.rockerChange
  rw [hr, hb, hu]
  rfl

theorem Job.rockerChange_takes (hr : j.st.coord.rocker = .centre) (hb : deadBand level = false) (hu : j.st.zoom.usable = true) :
    j.rockerChange level = ((j.endMotions .zoom .aborted).rockerJog level).rockerTo .hold := by
  unfold Job.rockerChange
  rw [hr, hb, hu]
  rfl

theorem Job.rockerChange_releases (hr : j.st.coord.rocker = .hold) (hb : deadBand level = true) :
    j.rockerChange level = j.rockerRelease.rockerTo .centre := by
  unfold Job.rockerChange
  rw [hr, hb]
  rfl

theorem Job.rockerChange_jogs (hr : j.st.coord.rocker = .hold) (hb : deadBand level = false) :
    j.rockerChange level = j.rockerJog level := by
  unfold Job.rockerChange
  rw [hr, hb]

end

section

variable {s : State} {level : Byte}

/-- The lens side with the last level replaced (R109). -/
def Lens.levelled (level : Nat) (l : Lens) : Lens := { l with coord := { l.coord with level := level } }

theorem exec_rockerSample (hr : s.part.phase = .running) (hs : s.part.lens.coord.sampled = true) {l : Lens} {outs : List Out}
    (hj : (if s.part.lens.coord.level = level.toNat then Job.start (s.part.lens.levelled level.toNat)
      else (Job.start (s.part.lens.levelled level.toNat)).rockerChange level.toNat) = ⟨l, outs⟩) :
    exec (.rockerSample level) s = .next (s.onPart fun p => { p with bus := p.bus.meetAll outs, lens := l }) := by
  have ran : exec (.rockerSample level) s = .next (if s.part.phase = .running then
    s.onPart (Part.lensJob fun j => j.rockerSample level.toNat) else s) := rfl
  have put : ((Job.start s.part.lens).coord fun c => { c with level := level.toNat, sampled := true }) =
      Job.start (s.part.lens.levelled level.toNat) := by
    rw [← hs]
    rfl
  have sampled : (Job.start s.part.lens).rockerSample level.toNat = ⟨l, outs⟩ := by
    unfold Job.rockerSample
    dsimp only
    rw [put, show (Job.start s.part.lens : LensWork).st.coord.sampled = true from hs]
    exact hj
  rw [ran, if_pos hr]
  refine congrArg _ (State.onPart_congr ?_)
  unfold Part.lensJob
  dsimp only
  rw [sampled]

end

/-- Settles O53: each state of the rocker against the dead band, and the jog by the state of the zoom. -/
theorem theRockerTakesAndReleasesTheZoom : Obligations.TheRockerTakesAndReleasesTheZoom := by
  intro s level hrun hsampled l c z inBand d speed onLimit done jogs
  have answered {r : RockerState} {a : StepAxis} {outs : List Out}
      (hj : (if c.level = l then Job.start (s.part.lens.levelled l) else (Job.start (s.part.lens.levelled l)).rockerChange l) =
        ⟨{ s.part.lens with zoom := a, coord := { c with level := l, rocker := r } }, outs⟩) :
      exec (.rockerSample level) s = done outs r a := (exec_rockerSample hrun hsampled hj).trans rfl
  refine ⟨fun hsame => answered (if_pos hsame.symm), fun hnew => ?_⟩
  have changed {r : RockerState} {a : StepAxis} {outs : List Out}
      (hj : (Job.start (s.part.lens.levelled l)).rockerChange l =
        ⟨{ s.part.lens with zoom := a, coord := { c with level := l, rocker := r } }, outs⟩) :
      exec (.rockerSample level) s = done outs r a := answered ((if_neg (Ne.symm hnew)).trans hj)
  have band : deadBand l = true ↔ inBand := deadBand_eq_true_iff
  have outside (h : ¬inBand) : deadBand l = false := Bool.eq_false_iff.2 (mt band.1 h)
  have kept {r : RockerState} (hr : c.rocker = r) : (Job.start (s.part.lens.levelled l) : LensWork) =
      ⟨{ s.part.lens with coord := { c with level := l, rocker := r } }, []⟩ := by rw [← hr]; rfl
  have jogging {outs : List Out} (m : Option PendingMove)
      (took : z.usable = true → (z.state ≠ .moving ∧ onLimit → z.state ≠ .idle → s.part.lens.focus.pendingMove = none) →
        exec (.rockerSample level) s =
          done outs .hold (({ z with holder := some .request, pendingMove := m } : StepAxis).rocked l)) :
      jogs outs { z with holder := some .request, pendingMove := m } := by
    let held : StepAxis := { z with holder := some .request, pendingMove := m }
    have hblocked : held.blocked d = true ↔ z.state ≠ .moving ∧ onLimit := StepAxis.blocked_iff
    have usable {st : AxisState} (h : z.state = st) (hu : st = .idle ∨ st = .waiting ∨ st = .moving ∨ st = .dwell) :
        z.usable = true := by
      unfold StepAxis.usable
      rw [h]
      obtain rfl | rfl | rfl | rfl := hu <;> rfl
    have took' {st : AxisState} (h : z.state = st) (hu : st = .idle ∨ st = .waiting ∨ st = .moving ∨ st = .dwell)
        (hf : z.state ≠ .moving ∧ onLimit → z.state ≠ .idle → s.part.lens.focus.pendingMove = none) {a : StepAxis}
        (ha : held.rocked l = a) : exec (.rockerSample level) s = done outs .hold a := ha ▸ took (usable h hu) hf
    have free (h : z.state = .moving ∨ ¬onLimit) : held.rocked l = held.jogTo d speed :=
      StepAxis.rocked_free (mt hblocked.1 fun hb => h.elim hb.1 fun hn => hn hb.2)
    refine ⟨fun hm => ?_, fun hon => ?_, fun hoff => ?_⟩
    · have takes {a : StepAxis} := took' (a := a) hm (by simp) fun hb => absurd hm hb.1
      refine ⟨fun hd => takes ?_, fun hd => ⟨fun p x hg => takes ?_, fun hg => takes ?_⟩⟩
      · rw [free (.inl hm), StepAxis.jogTo_continues (ax := held) hm hd]
      · rw [free (.inl hm), StepAxis.jogTo_turns (ax := held) hm hd, StepAxis.decelerate_keeps (ax := held) hg]
      · rw [free (.inl hm), StepAxis.jogTo_turns (ax := held) hm hd, StepAxis.decelerate_begins (ax := held) hg]
        rfl
    · refine ⟨fun hi => ?_, fun hs hf => ?_⟩
      · exact took' hi (by simp) (fun _ h => absurd hi h)
          (StepAxis.rocked_idle (hblocked.2 ⟨by rw [hi]; nofun, hon⟩) hi)
      · obtain h | h := hs
        · exact took' h (by simp) (fun _ _ => hf)
            (StepAxis.rocked_rests (hblocked.2 ⟨by rw [h]; nofun, hon⟩) (by rw [show held.state = z.state from rfl, h]; nofun))
        · exact took' h (by simp) (fun _ _ => hf)
            (StepAxis.rocked_rests (hblocked.2 ⟨by rw [h]; nofun, hon⟩) (by rw [show held.state = z.state from rfl, h]; nofun))
    · refine ⟨fun hd hw => ?_, fun hs => ?_⟩
      · exact took' hd (by simp) (fun hb => absurd hb.2 hoff)
          ((free (.inr hoff)).trans (StepAxis.jogTo_dwellsOn hd hw))
      · have starts {a : StepAxis} (ha : held.startMotion d .jog speed = a) : exec (.rockerSample level) s = done outs .hold a := by
          obtain h | h | ⟨h, hw⟩ := hs
          · exact took' h (by simp) (fun hb => absurd hb.2 hoff)
              ((free (.inr hoff)).trans ((StepAxis.jogTo_starts (ax := held) h).trans ha))
          · exact took' h (by simp) (fun hb => absurd hb.2 hoff)
              ((free (.inr hoff)).trans ((StepAxis.jogTo_waiting (ax := held) h).trans ha))
          · exact took' h (by simp) (fun hb => absurd hb.2 hoff)
              ((free (.inr hoff)).trans ((StepAxis.jogTo_dwellTurns (ax := held) h hw).trans ha))
        refine ⟨fun hdw => starts ?_, ?_⟩
        · exact StepAxis.startMotion_dwells hdw
        · intro hdw
          refine starts ?_
          rw [StepAxis.startMotion_starts (ax := held) hdw]
          rfl
  refine ⟨fun hr => ?_, fun hr hb => ?_, fun hr hb => ⟨fun hz => ?_, ?_⟩, fun hr hb hm => ⟨fun hg => ?_, fun p x hg => ?_⟩,
    fun hr hb hi => ?_, fun hr hb hd hf => ?_, fun hr hb => ?_⟩
  · exact changed (Job.rockerChange_stays (hr.imp_right (.imp (.imp_right band.2) (.imp_right outside))))
  · exact changed (Job.rockerChange_centres hr (band.2 hb))
  · refine changed (Job.rockerChange_locks hr (outside hb) ?_)
    show z.usable = false
    unfold StepAxis.usable
    obtain h | h | h := hz <;> rw [h]
  · refine jogging none fun hu hf => changed ((Job.rockerChange_takes hr (outside hb) hu).trans ?_)
    rw [Job.endMotions_start, Job.rockerJog_eq ?_]
    · rfl
    · exact fun hb => hf (StepAxis.blocked_iff.1 hb)
  · refine changed ((Job.rockerChange_releases hr (band.2 hb)).trans ?_)
    rw [Job.rockerRelease_moving hm hg]
    rfl
  · refine changed ((Job.rockerChange_releases hr (band.2 hb)).trans ?_)
    rw [Job.rockerRelease_stopping hm hg]
    rfl
  · refine changed ((Job.rockerChange_releases hr (band.2 hb)).trans ?_)
    rw [Job.rockerRelease_still hi]
    rfl
  · refine changed ((Job.rockerChange_releases hr (band.2 hb)).trans ?_)
    rw [Job.rockerRelease_dwell hd hf]
    rfl
  · refine jogging z.pendingMove fun _ hf => changed ((Job.rockerChange_jogs hr (outside hb)).trans ?_)
    rw [kept hr, Job.rockerJog_eq ?_]
    · rfl
    · exact fun hb => hf (StepAxis.blocked_iff.1 hb)

end Sys2Proof.Machine

end

section
/-! PROOFS. The REC button (06 section 6.6): its debounce, and a press acted on as a toggle (08 section 8.5). -/

namespace Sys2Proof.Machine

/-! ### The recording side with a card engine that rests -/

section

variable {p : Part} {f : Recorder → RecWork} {r : Recorder} {out : List RecOut} {j : RecWork} {old new : RecState}

/-- An event after which the card engine has nothing to do by itself: what it hands over is delivered. -/
theorem Part.onRecorder_rests (hf : f p.recd = ⟨r, out⟩) (hr : r.card.Rests) :
    p.onRecorder f = out.foldl Part.deliverRec { p with recd := r } := by
  unfold Part.onRecorder
  dsimp only
  rw [hf, Job.pump_rests hr]

/-- A change of the record state apart from RECORDING: a status write, and the lens side told (R137). -/
theorem Job.setRec_apart (h : j.st.card.recState = old) (hn : new ≠ old) (ho : old ≠ .recording) (hr : new ≠ .recording) :
    j.setRec new =
      ⟨{ j.st with card := { j.st.card with recState := new } }, j.out ++ [.bus .status] ++ [.recState new]⟩ := by
  unfold Job.setRec
  dsimp only
  rw [h, if_neg hn, if_neg ho, if_neg hr]
  rfl

/-- Out of RECORDING the change raises REC_STOPPED besides (R137). -/
theorem Job.setRec_stops (h : j.st.card.recState = .recording) (hn : new ≠ .recording) :
    j.setRec new = ⟨{ j.st with card := { j.st.card with recState := new } },
      j.out ++ [.bus .status] ++ [.recState new] ++ [.bus (.raise .recStopped)]⟩ := by
  unfold Job.setRec
  dsimp only
  rw [h, if_neg hn, if_pos rfl, if_neg hn]
  rfl

/-- No REC_START is in progress, or it ends (R142). -/
theorem Job.endStart_none {code : OutcomeCode} {detail : Nat} (h : j.st.card.startSlot = none) :
    j.endStart code detail = ⟨{ j.st with card := { j.st.card with startSlot := none } }, j.out⟩ := by
  unfold Job.endStart
  rw [h]
  rfl

theorem Job.endStart_some {code : OutcomeCode} {detail : Nat} {k : CmdSlot} (h : j.st.card.startSlot = some k) :
    j.endStart code detail =
      ⟨{ j.st with card := { j.st.card with startSlot := none } }, j.out ++ [.bus (.finish k code detail)]⟩ := by
  unfold Job.endStart
  rw [h]
  rfl

/-- A card engine that waits with its clip in RECORDING waits on in STOPPING. -/
theorem CardEngine.Waits.stops {c : CardEngine} {k : OpenClip} {slot : Option CmdSlot} (h : c.Waits k)
    (hr : c.recState = .recording) : ({ c with recState := .stopping, stopSlot := slot } : CardEngine).Waits k := by
  obtain ⟨hclip, hflight, ⟨-, hlive, hreq⟩ | ⟨hclosing, -⟩⟩ := h
  · exact ⟨hclip, hflight, .inl ⟨.inr rfl, hlive, hreq⟩⟩
  · rw [hr] at hclosing
    cases hclosing

end

/-! ### The debounce (R111) -/

section

variable {c : Coordinator} {pressed : Bool} {n : Nat}

theorem Coordinator.recReadings_same (hn : 0 < n) (h : c.recPressed = pressed) :
    c.recReadings pressed n = ({ c with recRun := 0 }, false) := by
  unfold Coordinator.recReadings
  rw [if_neg (Nat.pos_iff_ne_zero.1 hn), if_pos h]

theorem Coordinator.recReadings_few (hn : 0 < n) (h : c.recPressed ≠ pressed) (hf : c.recRun + n < 20) :
    c.recReadings pressed n = ({ c with recRun := c.recRun + n }, false) := by
  unfold Coordinator.recReadings
  rw [if_neg (Nat.pos_iff_ne_zero.1 hn), if_neg h, if_pos hf]

theorem Coordinator.recReadings_turn (hn : 0 < n) (h : c.recPressed ≠ pressed) (hf : 20 ≤ c.recRun + n) :
    c.recReadings pressed n =
      ({ c with recPressed := pressed, recRun := 0, recLockout := c.recLockout && pressed },
        pressed && c.recEnable && !c.recLockout) := by
  unfold Coordinator.recReadings
  rw [if_neg (Nat.pos_iff_ne_zero.1 hn), if_neg h, if_neg (Nat.not_lt.2 hf)]

theorem Part.recButton_of_running {p : Part} (hr : p.phase = .running) {c : Coordinator}
    (h : p.lens.coord.recReadings pressed n = (c, false)) :
    p.recButton pressed n = { p with lens := { p.lens with coord := c } } := by
  unfold Part.recButton
  rw [if_pos hr, h]
  rfl

/-- A press acted on is the recording side's toggle (R111). -/
theorem Part.recButton_acts {p : Part} (hr : p.phase = .running) {c : Coordinator}
    (h : p.lens.coord.recReadings pressed n = (c, true)) :
    p.recButton pressed n =
      (({ p with lens := { p.lens with coord := c } } : Part).raise .gripRec).onRecorder (Recorder.toggle p.map) := by
  unfold Part.recButton
  rw [if_pos hr, h]
  rfl

end

/-! ### The toggle (R141, R142) -/

section

variable {r : Recorder} {map : RegionMap}

theorem Recorder.toggle_idle (h : r.card.recState = .idle) : r.toggle map = .start r := by
  unfold Recorder.toggle
  rw [h]

/-- It is no START while an eject is in progress (R111). -/
theorem Recorder.toggle_ejecting (h : r.card.recState = .standby ∨ r.card.recState = .stopping ∨ r.card.recState = .closing)
    (he : r.card.ejectSlot ≠ none) : r.toggle map = .start r := by
  have ejecting : r.card.ejectSlot.isSome = true := Option.isSome_iff_ne_none.2 he
  unfold Recorder.toggle
  obtain h | h | h := h <;> rw [h] <;> exact if_pos ejecting

theorem Recorder.toggle_arms (h : r.card.recState = .standby) (he : r.card.ejectSlot = none) (hr : r.ring.hasRetained = false) :
    r.toggle map = ((Job.start r).card fun c => { c with startSlot := none }).setRec .armed := by
  have start : (Job.start r).takeStart map .toggle =
      (((Job.start r).card fun c => { c with startSlot := none }).setRec .armed, .pending) := by
    unfold Job.takeStart
    dsimp only [Job.start_st]
    rw [h]
    dsimp only
    have arms : (Job.start r).startFromStandby map .toggle =
        (((Job.start r).card fun c => { c with startSlot := none }).setRec .armed, false) := by
      unfold Job.startFromStandby
      rw [show (Job.start r : RecWork).st.ring.hasRetained = false from hr]
      rfl
    rw [arms]
    rfl
  unfold Recorder.toggle
  rw [h]
  dsimp only
  rw [he, start]
  rfl

/-- While a clip closes it is the pending start, where there is none (R141). -/
theorem Recorder.toggle_pends (h : r.card.recState = .stopping ∨ r.card.recState = .closing) (he : r.card.ejectSlot = none) :
    r.toggle map =
      if r.card.pendingStart.isSome then .start r else (Job.start r).card fun c => { c with pendingStart := some .toggle } := by
  unfold Recorder.toggle Job.takeStart
  dsimp only [Job.start_st]
  obtain h | h := h <;> rw [h, he] <;> cases r.card.pendingStart <;> rfl

theorem Recorder.toggle_disarms (h : r.card.recState = .armed) :
    r.toggle map = ((Job.start r).setRec .standby).endStart .aborted 0 := by
  unfold Recorder.toggle Job.takeStop
  dsimp only [Job.start_st]
  rw [h]

theorem Recorder.toggle_stops (h : r.card.recState = .recording) :
    r.toggle map = ((Job.start r).setRec .stopping).card fun c => { c with stopSlot := none } := by
  unfold Recorder.toggle Job.takeStop
  dsimp only [Job.start_st]
  rw [h]

end

/-- Settles O54: the readings that the debounce takes, and a press acted on by the record state. -/
theorem theRecButtonIsDebounced : Obligations.TheRecButtonIsDebounced := by
  intro s n hrun hn c card done toggled quiet
  have counts {pressed : Bool} {c' : Coordinator} (h : c.recReadings pressed n = (c', false)) :
      (.next (s.onPart (Part.recButton pressed n)) : Answer) =
        .next (s.onPart fun p => { p with lens := { p.lens with coord := c' } }) :=
    congrArg _ (State.onPart_congr (Part.recButton_of_running hrun h))
  refine ⟨fun hp hf => ?_, fun hp hf => ⟨fun hoff => ?_, fun hon hfree => ?_⟩, fun hp => ?_, fun hp hf => ?_, fun hp hf => ?_,
    fun hp => ?_⟩
  · exact counts (Coordinator.recReadings_few hn (by simp [hp]) hf)
  · refine counts (pressed := true) (c' := { c with recPressed := true, recRun := 0 })
      ((Coordinator.recReadings_turn hn (by simp [hp]) hf).trans ?_)
    rw [Bool.and_true, Bool.true_and]
    obtain h | h := hoff
    · rw [h]
      rfl
    · rw [h, Bool.not_true, Bool.and_false]
  · have turned : c.recReadings true n = ({ c with recPressed := true, recRun := 0, recLockout := false }, true) := by
      rw [Coordinator.recReadings_turn hn (by simp [hp]) hf, hon, hfree]
      rfl
    have acts {r : Recorder} {out : List RecOut} (hj : s.part.recd.toggle s.part.map = ⟨r, out⟩) (hr : r.card.Rests) :
        exec (.recButtonPress n) s = .next (s.onPart fun p => out.foldl Part.deliverRec
          { p with
            bus := p.bus.raise .gripRec
            lens := { p.lens with coord := { p.lens.coord with recPressed := true, recRun := 0, recLockout := false } }
            recd := r }) :=
      congrArg _ (State.onPart_congr ((Part.recButton_acts hrun turned).trans
        (Part.onRecorder_rests (p := Part.raise .gripRec { s.part with lens := { s.part.lens with
          coord := { c with recPressed := true, recRun := 0, recLockout := false } } }) hj hr)))
    refine ⟨fun hi hq => ?_, fun hs hq => ⟨fun he => ?_, fun he hr => ?_⟩, fun ha hq => ⟨fun hs => ?_, fun k hs => ?_⟩,
      fun k hw => ⟨fun hr => ?_, fun hc => ⟨fun he => ?_, fun he hs => ?_⟩⟩⟩
    · exact acts (Recorder.toggle_idle hi) (.inl hq)
    · exact acts (Recorder.toggle_ejecting (.inl hs) he) (.inl hq)
    · have armed := Job.setRec_apart (j := (Job.start s.part.recd).card fun c => { c with startSlot := none }) (new := .armed)
        hs nofun nofun nofun
      exact acts ((Recorder.toggle_arms hs he hr).trans armed) (.inl hq)
    · have standby := Job.setRec_apart (j := Job.start s.part.recd) (new := .standby) ha nofun nofun nofun
      have disarmed := Recorder.toggle_disarms (map := s.part.map) ha
      have idle : (⟨{ s.part.recd with card := { card with recState := .standby, startSlot := none } },
          [.bus .status, .recState .standby]⟩ : RecWork) =
            ⟨{ s.part.recd with card := { card with recState := .standby } }, [.bus .status, .recState .standby]⟩ := by
        rw [← hs]
      rw [standby, Job.endStart_none hs] at disarmed
      exact acts (disarmed.trans idle) (.inl hq)
    · have standby := Job.setRec_apart (j := Job.start s.part.recd) (new := .standby) ha nofun nofun nofun
      have disarmed := Recorder.toggle_disarms (map := s.part.map) ha
      rw [standby, Job.endStart_some hs] at disarmed
      exact acts disarmed (.inl hq)
    · have stops := Job.setRec_stops (j := Job.start s.part.recd) (new := .stopping) hr nofun
      have stopped := (Recorder.toggle_stops (map := s.part.map) hr).trans
        (congrArg (fun j => Job.card j fun c => { c with stopSlot := none }) stops)
      exact acts stopped (.inr ⟨k, hw.stops hr⟩)
    · obtain h | h := he
      · exact acts (Recorder.toggle_ejecting (.inr hc) h) (.inr ⟨k, hw⟩)
      · by_cases he : s.part.recd.card.ejectSlot = none
        · have pends := Recorder.toggle_pends (map := s.part.map) hc he
          rw [if_pos (Option.isSome_iff_ne_none.2 h)] at pends
          exact acts pends (.inr ⟨k, hw⟩)
        · exact acts (Recorder.toggle_ejecting (.inr hc) he) (.inr ⟨k, hw⟩)
    · have pends := Recorder.toggle_pends (map := s.part.map) hc he
      rw [show s.part.recd.card.pendingStart = none from hs] at pends
      exact acts pends (.inr ⟨k, hw⟩)
  · exact counts (Coordinator.recReadings_same hn hp)
  · exact counts (Coordinator.recReadings_few hn (by simp [hp]) hf)
  · refine counts (pressed := false) (c' := { c with recPressed := false, recRun := 0, recLockout := false })
      ((Coordinator.recReadings_turn hn (by simp [hp]) hf).trans ?_)
    rw [Bool.and_false]
    rfl
  · exact counts (Coordinator.recReadings_same hn hp)

end Sys2Proof.Machine

end

section
/-! PROOFS. What the card engine's operations change and hand over (08 sections 8.3 to 8.5), what of it reaches the other blocks,
and the insertion and the removal of a card. -/

namespace Sys2Proof.Machine

/-! ### One equation per operation -/

section

variable {j : RecWork} {code : OutcomeCode} {detail : Nat}

/-- The outcome of a slot that ends, where there is one. -/
def slotEnd (slot : Option CmdSlot) (code : OutcomeCode) (detail : Nat) : List RecOut :=
  match slot with
  | some k => [.bus (.finish k code detail)]
  | none => []

theorem Job.endSlot_eq (j : RecWork) (slot : Option CmdSlot) (code : OutcomeCode) (detail : Nat) :
    j.endSlot slot code detail = ⟨j.st, j.out ++ slotEnd slot code detail⟩ := by
  cases slot with
  | none => exact congrArg (Job.mk j.st) (List.append_nil _).symm
  | some k => rfl

theorem Job.endStart_eq (j : RecWork) (code : OutcomeCode) (detail : Nat) :
    j.endStart code detail = ⟨{ j.st with card := { j.st.card with startSlot := none } },
      j.out ++ slotEnd j.st.card.startSlot code detail⟩ := by
  unfold Job.endStart
  rw [Job.endSlot_eq]
  rfl

theorem Job.endStop_eq (j : RecWork) (code : OutcomeCode) (detail : Nat) :
    j.endStop code detail = ⟨{ j.st with card := { j.st.card with stopSlot := none } },
      j.out ++ slotEnd j.st.card.stopSlot code detail⟩ := by
  unfold Job.endStop
  rw [Job.endSlot_eq]
  rfl

theorem Job.endEject_eq (j : RecWork) (code : OutcomeCode) (detail : Nat) :
    j.endEject code detail = ⟨{ j.st with card := { j.st.card with ejectSlot := none } },
      j.out ++ slotEnd j.st.card.ejectSlot code detail⟩ := by
  unfold Job.endEject
  rw [Job.endSlot_eq]
  rfl

theorem Job.endFormat_eq (j : RecWork) (code : OutcomeCode) (detail : Nat) :
    j.endFormat code detail = ⟨{ j.st with card := { j.st.card with formatSlot := none } },
      j.out ++ slotEnd j.st.card.formatSlot code detail⟩ := by
  unfold Job.endFormat
  rw [Job.endSlot_eq]
  rfl

theorem Job.dropPendingStart_eq (j : RecWork) (code : OutcomeCode) (detail : Nat) :
    j.dropPendingStart code detail = ⟨{ j.st with card := { j.st.card with pendingStart := none } },
      j.out ++ slotEnd j.st.card.pendingSlot code detail⟩ := by
  unfold Job.dropPendingStart
  rw [Job.endSlot_eq]
  rfl

/-- What a change of the record state hands over (R137). -/
def recChange (old new : RecState) : List RecOut :=
  if new = old then []
  else [.bus .status, .recState new] ++ (if old = .recording then [.bus (.raise .recStopped)] else []) ++
    (if new = .recording then [.bus (.raise .recStarted), .recStarted] else [])

theorem Job.setRec_eq (j : RecWork) (r : RecState) :
    j.setRec r =
      ⟨{ j.st with card := { j.st.card with recState := r } }, j.out ++ recChange j.st.card.recState r⟩ := by
  unfold Job.setRec recChange
  dsimp only
  by_cases hsame : r = j.st.card.recState
  · rw [if_pos hsame, if_pos hsame, hsame, List.append_nil]
  · rw [if_neg hsame, if_neg hsame]
    by_cases hold : j.st.card.recState = .recording
    · have hnew : r ≠ .recording := fun h => hsame (h.trans hold.symm)
      rw [if_pos hold, if_pos hold, if_neg hnew, if_neg hnew]
      simp [Job.card, Job.ask, Job.emit, Job.change]
    · rw [if_neg hold, if_neg hold]
      by_cases hnew : r = .recording
      · rw [if_pos hnew, if_pos hnew]
        simp [Job.card, Job.ask, Job.emit, Job.change]
      · rw [if_neg hnew, if_neg hnew]
        simp [Job.card, Job.ask, Job.emit, Job.change]

/-- What a change of the card state hands over (R137). -/
def CardEngine.cardChange (s : CardState) (c : CardEngine) : List RecOut :=
  if s = c.state then [] else [.bus .status] ++ recChange c.recState (c.recAfter s)

theorem Job.setCard_eq (j : RecWork) (s : CardState) :
    j.setCard s = ⟨{ j.st with card := { j.st.card with state := s, recState := j.st.card.recAfter s } },
      j.out ++ j.st.card.cardChange s⟩ := by
  suffices handed : (j.setCard s).out = j.out ++ j.st.card.cardChange s from
    calc j.setCard s = ⟨(j.setCard s).st, (j.setCard s).out⟩ := rfl
      _ = _ := by rw [Job.setCard_st, handed]
  have same (r : RecState) : recChange r r = [] := if_pos rfl
  unfold Job.setCard CardEngine.cardChange CardEngine.recAfter
  by_cases hs : s = j.st.card.state
  · rw [if_pos hs, if_pos hs, List.append_nil]
  · rw [if_neg hs, if_neg hs, if_neg hs]
    dsimp only
    by_cases hr : s = .ready
    · rw [if_pos hr, if_pos hr]
      by_cases hi : j.st.card.recState = .idle
      · refine (congrArg Job.out ((if_pos hi).trans (Job.setRec_eq ..))).trans ?_
        rw [if_pos hi, ← List.append_assoc]
        rfl
      · refine (congrArg Job.out (if_neg hi)).trans ?_
        rw [if_neg hi, same, List.append_nil]
        rfl
    · rw [if_neg hr, if_neg hr]
      by_cases hb : j.st.card.recState = .standby
      · refine (congrArg Job.out ((if_pos hb).trans (Job.setRec_eq ..))).trans ?_
        rw [if_pos hb, ← List.append_assoc]
        rfl
      · refine (congrArg Job.out (if_neg hb)).trans ?_
        rw [if_neg hb, same, List.append_nil]
        rfl

/-- The open clip given up (R149, R153). -/
def CardEngine.clipLost (c : CardEngine) : CardEngine :=
  { c with
    clip := none
    bufA := .blank
    bufB := .blank
    request := match c.request with
      | some (.dir a n) => some (.dir a n)
      | _ => none }

theorem Job.loseClip_st (j : RecWork) (map : RegionMap) (flag : ClipFlags → ClipFlags) :
    (j.loseClip map flag).st = { j.st with card := j.st.card.clipLost, ring := j.st.ring.discard map.ringSize } := by
  have shown (k : RecWork) (n : Nat) : (k.lastClip n).st = k.st := by
    unfold Job.lastClip
    split <;> rfl
  unfold Job.loseClip
  dsimp only
  rw [show ∀ k : RecWork, (((k.card fun c => { c with clip := none }).ring fun m => m.discard map.ringSize).emptyBuffers).st =
    { k.st with card := k.st.card.clipLost, ring := k.st.ring.discard map.ringSize } from fun _ => rfl, shown]
  rfl

/-- The open clip's last-clip record is requested with its ending flag (R149, R152). -/
theorem Job.loseClip_out {map : RegionMap} {k : OpenClip} (h : j.st.card.clip = some k) (flag : ClipFlags → ClipFlags) :
    (j.loseClip map flag).out = j.out ++
      [.bus (.request (.lastClip (({ k with flags := flag k.flags } : OpenClip).entryBytes j.st.card.unitTotal 1)))] := by
  have flagged : (j.clip fun c => { c with flags := flag c.flags }).st.card.clip = some { k with flags := flag k.flags } := by
    change (j.st.card.clip.map fun c : OpenClip => { c with flags := flag c.flags }) = _
    rw [h]
    rfl
  unfold Job.loseClip Job.lastClip
  rw [flagged]
  rfl

/-- What has been handed over stays so. -/
theorem Job.mem_loseClip_out {o : RecOut} (h : o ∈ j.out) (map : RegionMap) (flag : ClipFlags → ClipFlags) :
    o ∈ (j.loseClip map flag).out := by
  cases hc : j.st.card.clip with
  | none =>
    have none : (j.clip fun c => { c with flags := flag c.flags }).st.card.clip = none := by
      change (j.st.card.clip.map fun c : OpenClip => { c with flags := flag c.flags }) = _
      rw [hc]
      rfl
    unfold Job.loseClip Job.lastClip
    rw [none]
    exact h
  | some k =>
    rw [Job.loseClip_out hc]
    exact List.mem_append_left _ h

end

/-! ### What reaches the bus -/

section

variable {b : Bus} {f : Factor} {p : Part} {out : List RecOut} {k : CmdSlot} {code : OutcomeCode}

/-- The factor is pending (R28). -/
def Bus.Shows (f : Factor) (b : Bus) : Prop := b.report.pending &&& f.bit ≠ 0

theorem Factor.bit_ne_zero (f : Factor) : f.bit ≠ 0 := by cases f <;> decide

theorem Bus.pending_requestFactor (b : Bus) : b.requestFactor.report = b.report := by
  unfold Bus.requestFactor
  split <;> rfl

theorem Bus.pending_setPending (w : Word) (b : Bus) : (b.setPending w).report.pending = w := by
  unfold Bus.setPending
  split
  next h => exact h.symm
  next => rw [Bus.pending_requestFactor]

theorem Bus.pending_raise (f : Factor) (b : Bus) : (b.raise f).report.pending = b.report.pending ||| f.bit :=
  Bus.pending_setPending ..

theorem Bus.shows_raise (f : Factor) (b : Bus) : (b.raise f).Shows f := by
  have absorbed : (b.report.pending ||| f.bit) &&& f.bit = f.bit := by
    refine BitVec.eq_of_getLsbD_eq fun i _ => ?_
    cases hf : f.bit.getLsbD i <;> simp [hf]
  unfold Bus.Shows
  rw [Bus.pending_raise, absorbed]
  exact f.bit_ne_zero

/-- What a block asks of the bus takes no factor away (R28). -/
theorem Bus.Shows.meet (h : b.Shows f) (o : Out) : (b.meet o).Shows f := by
  cases o with
  | raise g =>
    unfold Bus.Shows at h ⊢
    rw [show (b.meet (.raise g)).report.pending = _ from Bus.pending_raise ..]
    refine fun hz => h (BitVec.eq_of_getLsbD_eq fun i hi => ?_)
    have bit : ((b.report.pending.getLsbD i || g.bit.getLsbD i) && f.bit.getLsbD i) = false := by
      rw [← BitVec.getLsbD_or, ← BitVec.getLsbD_and, hz]
      exact BitVec.getLsbD_zero
    rw [BitVec.getLsbD_and]
    refine Eq.trans ?_ (BitVec.getLsbD_zero (w := 32) (i := i)).symm
    rw [Bool.and_or_distrib_right, Bool.or_eq_false_iff] at bit
    exact bit.1
  | finish slot code detail => exact h
  | status =>
    change b.requestStatus.Shows f
    unfold Bus.requestStatus
    split <;> exact h
  | request r => exact h
  | overwrite n => exact h

theorem Bus.Shows.meetAll (h : b.Shows f) (outs : List Out) : (b.meetAll outs).Shows f := by
  induction outs generalizing b with
  | nil => exact h
  | cons o outs ih => exact ih (h.meet o)

theorem Part.shows_deliverRec (h : p.bus.Shows f) (o : RecOut) : (p.deliverRec o).bus.Shows f := by
  cases o with
  | bus o => exact h.meet o
  | recState r => exact h
  | recStarted => exact h.meetAll _

theorem Part.shows_deliverAll (h : p.bus.Shows f) (out : List RecOut) : (out.foldl Part.deliverRec p).bus.Shows f := by
  induction out generalizing p with
  | nil => exact h
  | cons o out ih => exact ih (Part.shows_deliverRec h o)

/-- A factor that the recording side raises is pending once its work is delivered. -/
theorem Part.deliverAll_raised (h : .bus (.raise f) ∈ out) (p : Part) : (out.foldl Part.deliverRec p).bus.Shows f := by
  induction out generalizing p with
  | nil => cases h
  | cons o out ih =>
    obtain rfl | h := List.mem_cons.1 h
    · exact Part.shows_deliverAll (p := p.deliverRec (.bus (.raise f))) (Bus.shows_raise f p.bus) out
    · exact ih h _

theorem Part.mem_partQ_deliverAll {r : PartReq} (hr : r.Plain) (h : r ∈ p.bus.partQ) (out : List RecOut) :
    r ∈ (out.foldl Part.deliverRec p).bus.partQ := by
  induction out generalizing p with
  | nil => exact h
  | cons o out ih => exact ih (Part.mem_partQ_deliverRec hr h o)

/-- A PART request that it makes waits in the class then. -/
theorem Part.deliverAll_requested {r : PartReq} (hr : r.Plain) (h : .bus (.request r) ∈ out) (p : Part) :
    r ∈ (out.foldl Part.deliverRec p).bus.partQ := by
  induction out generalizing p with
  | nil => cases h
  | cons o out ih =>
    obtain rfl | h := List.mem_cons.1 h
    · exact Part.mem_partQ_deliverAll (p := p.deliverRec (.bus (.request r))) hr
        (List.mem_append_right _ (List.mem_singleton.2 rfl)) out
    · exact ih h _

theorem Part.deliverAll_recd (out : List RecOut) (p : Part) : (out.foldl Part.deliverRec p).recd = p.recd := by
  obtain ⟨b, l, h⟩ := Part.deliverAll_frame out p
  rw [h]

end

end Sys2Proof.Machine

end

section
/-! PROOFS. The insertion and the removal of a card (08 sections 8.1, 8.3 and 8.10). -/

namespace Sys2Proof.Machine

section

variable {s : State} {j : RecWork} {map : RegionMap} {c c' : CardEngine} {n : Nat} {level enabled : Bool}

/-! ### The card-detect line (R134) -/

theorem CardEngine.detect_same (hn : 0 < n) (h : c.present = level) : c.detect level n = ({ c with detectRun := 0 }, false) := by
  unfold CardEngine.detect
  rw [if_neg (Nat.pos_iff_ne_zero.1 hn), if_pos h]

theorem CardEngine.detect_few (hn : 0 < n) (h : c.present ≠ level) (hf : c.detectRun + n < 100) :
    c.detect level n = ({ c with detectRun := c.detectRun + n }, false) := by
  unfold CardEngine.detect
  rw [if_neg (Nat.pos_iff_ne_zero.1 hn), if_neg h, if_pos hf]

theorem CardEngine.detect_turns (hn : 0 < n) (h : c.present ≠ level) (hf : 100 ≤ c.detectRun + n) :
    c.detect level n = ({ c with present := level, detectRun := 0 }, true) := by
  unfold CardEngine.detect
  rw [if_neg (Nat.pos_iff_ne_zero.1 hn), if_neg h, if_neg (Nat.not_lt.2 hf)]

theorem Job.cardDetect_counts (h : j.st.card.detect level n = (c', false)) :
    j.cardDetect map level n enabled = j.card fun _ => c' := by
  unfold Job.cardDetect
  dsimp only
  rw [h]
  rfl

/-- What the card engine then does by itself included, an event's work is delivered. -/
theorem Part.onRecorder_pumped {p : Part} {f : Recorder → RecWork} {r : Recorder} {out : List RecOut}
    (h : (f p.recd).pump p.map = ⟨r, out⟩) : p.onRecorder f = out.foldl Part.deliverRec { p with recd := r } := by
  unfold Part.onRecorder
  dsimp only
  rw [h]

theorem State.cardDetect_pumped {r : Recorder} {out : List RecOut}
    (h : ((Job.start s.part.recd).cardDetect s.part.map level n
      (decide (s.part.phase = .running) && !s.part.map.conflict)).pump s.part.map = ⟨r, out⟩) :
    s.cardDetect level n = s.onPart fun p => out.foldl Part.deliverRec { p with recd := r } := by
  have detected : s.cardDetect level n = s.onPart fun p => p.onRecorder fun r =>
    (Job.start r).cardDetect p.map level n (decide (s.part.phase = .running) && !p.map.conflict) := rfl
  rw [detected]
  exact State.onPart_congr (Part.onRecorder_pumped (p := s.part) (f := fun r =>
    (Job.start r).cardDetect s.part.map level n (decide (s.part.phase = .running) && !s.part.map.conflict)) h)

/-- Samples of the card-detect line after which the card engine has nothing to do by itself. -/
theorem State.cardDetect_rests {r : Recorder} {out : List RecOut}
    (h : (Job.start s.part.recd).cardDetect s.part.map level n (decide (s.part.phase = .running) && !s.part.map.conflict) = ⟨r, out⟩)
    (hr : r.card.Rests) : s.cardDetect level n = s.onPart fun p => out.foldl Part.deliverRec { p with recd := r } :=
  State.cardDetect_pumped (by rw [h]; exact Job.pump_rests (j := ⟨r, out⟩) hr _)

/-- A run of samples that the debounce takes into account. -/
theorem State.cardDetect_counts (h : s.part.recd.card.detect level n = (c', false)) (hr : c'.Rests) :
    s.cardDetect level n = s.onPart fun p => { p with recd := { p.recd with card := c' } } := by
  rw [State.cardDetect_rests (Job.cardDetect_counts (j := .start s.part.recd) h) hr]
  rfl

theorem Job.cardDetect_inserts (h : j.st.card.detect true n = (c', true)) :
    j.cardDetect map true n enabled = (j.card fun _ => c').insertion enabled := by
  unfold Job.cardDetect
  dsimp only
  rw [h]
  rfl

theorem Job.cardDetect_removes (h : j.st.card.detect false n = (c', true)) :
    j.cardDetect map false n enabled = (j.card fun _ => c').removal map := by
  unfold Job.cardDetect
  dsimp only
  rw [h]
  rfl

/-! ### An insertion (R134, R138) -/

/-- A mount's command is issued where none is in flight (R133). -/
theorem Job.issue_mount {cmd : CardCmd} (hf : j.st.card.inFlight = none) (hm : j.st.card.mountCmd = some cmd) :
    j.issue = j.card fun c => { c with inFlight := some ⟨cmd, false⟩, mountCmd := none } := by
  unfold Job.issue
  dsimp only
  rw [hf, hm]
  rfl

/-- A card engine with nothing at hand. -/
theorem CardEngine.idle_eta (hm : c.mountCmd = none) (hd : c.dirJobs = []) (hr : c.request = none) :
    { c with mountCmd := none, dirJobs := [], request := none } = c := by
  cases c
  cases hm
  cases hd
  cases hr
  rfl

theorem Job.insertion_mounts (h : j.st.card.ejected = false) : j.insertion true = j.startMount := by
  unfold Job.insertion
  rw [h]
  rfl

/-- A mount that begins in a card engine with nothing at hand has its IDENT in flight at once (R133, R138; log 46). -/
theorem Job.startMount_pumped (hs : j.st.card.state = .absent) (hi : j.st.card.recState = .idle) (hq : j.st.card.Quiet)
    (hr : j.st.card.request = none) (hf : j.st.card.inFlight = none) :
    j.startMount.pump map =
      ⟨{ j.st with card := { j.st.card with state := .mounting, inFlight := some ⟨.ident, false⟩ } },
        j.out ++ [.bus .status]⟩ := by
  obtain ⟨-, hd, hm⟩ := hq
  have idle : j.st.card.recAfter .mounting = .idle := by simp [CardEngine.recAfter, hi]
  have change : j.st.card.cardChange .mounting = [.bus .status] := by
    unfold CardEngine.cardChange recChange
    rw [idle, hs, hi]
    rfl
  have begun : j.startMount = ⟨{ j.st with card :=
      { ({ j.st.card with state := .mounting } : CardEngine).dropDirectory with mountCmd := some .ident } },
        j.out ++ [.bus .status]⟩ := by
    unfold Job.startMount
    rw [Job.setCard_eq, change, idle, ← hi]
    rfl
  have undrained : j.startMount.st.card.recState.drains = false := by
    rw [begun, show ∀ x : RecWork, x.st.card.recState = x.st.card.recState from fun _ => rfl]
    exact congrArg RecState.drains hi
  rw [Job.pump_undrained undrained, Job.makeRequest_of_noJobs undrained (by rw [begun]; rfl),
    Job.issue_mount (by rw [begun]; exact hf) (by rw [begun])]
  rw [begun]
  have eta := CardEngine.idle_eta (c := { j.st.card with state := .mounting, inFlight := some ⟨.ident, false⟩ }) hm hd hr
  exact congrArg (fun c => (⟨{ j.st with card := c }, j.out ++ [.bus .status]⟩ : RecWork)) eta

/-! ### A removal (R153) -/

/-- A card engine whose card is gone. -/
def CardEngine.removed (c : CardEngine) : CardEngine :=
  { c with
    mountCmd := none
    dirJobs := []
    request := none
    mirror := none
    freeUnits := 0
    ejected := false
    state := .absent
    recState := .idle }

theorem Job.removed_eq (h : j.st.card.recState = .idle ∨ (j.st.card.recState = .standby ∧ j.st.card.state ≠ .absent)) :
    ∃ o, (j.card fun c => { c.dropDirectory.dropMirrors with ejected := false }).setCard .absent =
      ⟨{ j.st with card := j.st.card.removed }, j.out ++ o⟩ := by
  have idle : ({ j.st.card.dropDirectory.dropMirrors with ejected := false } : CardEngine).recAfter .absent = .idle := by
    unfold CardEngine.recAfter
    obtain h | ⟨h, hs⟩ := h
    · simp [CardEngine.dropDirectory, CardEngine.dropMirrors, h]
    · simp [CardEngine.dropDirectory, CardEngine.dropMirrors, h, Ne.symm hs]
  refine ⟨({ j.st.card.dropDirectory.dropMirrors with ejected := false } : CardEngine).cardChange .absent, ?_⟩
  rw [Job.setCard_eq]
  rw [show (j.card fun c => { c.dropDirectory.dropMirrors with ejected := false }).st.card.recAfter .absent = .idle from idle]
  rfl

/-- What is left of the card engine while its card is pulled. -/
structure CardEngine.PulledFrom (old new : CardEngine) : Prop where
  present : new.present = old.present
  inFlight : new.inFlight = old.inFlight.map fun f => { f with abandoned := true }
  clip : new.clip = none
  atRest : new.recState = .idle ∨ (new.recState = .standby ∧ new.state ≠ .absent)

/-- What a removal does before the card is gone: the clip is given up, or the start in progress ends (R153). -/
def Job.pulled (j : RecWork) (map : RegionMap) : RecWork :=
  match j.st.card.recState with
  | .recording | .stopping | .closing =>
    (((((((j.card CardEngine.abandon).ask (.raise .cardOut)).loseClip map fun f => { f with endedPulled := true }).setRec
      .idle).endStop .aborted 0).dropPendingStart .aborted 0).endEject .aborted 0)
  | .armed => ((((j.card CardEngine.abandon).ask (.raise .cardOut)).setRec .idle).endStart .aborted 0)
  | .idle | .standby =>
    if j.st.card.state = CardState.absent then j.card CardEngine.abandon
    else ((j.card CardEngine.abandon).endFormat .aborted 0).ask (.raise .cardOut)

theorem Job.removal_eq (j : RecWork) (map : RegionMap) :
    j.removal map = ((j.pulled map).card fun c => { c.dropDirectory.dropMirrors with ejected := false }).setCard .absent := rfl

/-- With a clip open it is given up, CARD_OUT raised and every joined entry discarded (R153). -/
theorem Job.pulled_clipped (h : j.st.card.recState = .recording ∨ j.st.card.recState = .stopping ∨ j.st.card.recState = .closing) :
    j.st.card.PulledFrom (j.pulled map).st.card ∧ RecOut.bus (.raise .cardOut) ∈ (j.pulled map).out ∧
      (j.pulled map).st.ring = j.st.ring.discard map.ringSize := by
  have pulled : j.pulled map = ((((((j.card CardEngine.abandon).ask (.raise .cardOut)).loseClip map
      fun f => { f with endedPulled := true }).setRec .idle).endStop .aborted 0).dropPendingStart .aborted 0).endEject .aborted 0 := by
    unfold Job.pulled
    obtain h | h | h := h <;> rw [h]
  have raised : RecOut.bus (.raise .cardOut) ∈ (((j.card CardEngine.abandon).ask (.raise .cardOut)).loseClip map
      fun f => { f with endedPulled := true }).out := Job.mem_loseClip_out (List.mem_append_right _ (List.mem_singleton.2 rfl)) ..
  rw [pulled, Job.endEject_eq, Job.dropPendingStart_eq, Job.endStop_eq, Job.setRec_eq, Job.loseClip_st]
  refine ⟨⟨rfl, rfl, rfl, .inl rfl⟩, ?_, rfl⟩
  dsimp only
  simp only [List.mem_append]
  exact .inl (.inl (.inl (.inl raised)))

theorem Job.pulled_armed (h : j.st.card.recState = .armed) (hc : j.st.card.clip = none) :
    j.st.card.PulledFrom (j.pulled map).st.card := by
  unfold Job.pulled
  rw [h]
  dsimp only
  rw [Job.endStart_eq, Job.setRec_eq]
  exact ⟨rfl, rfl, hc, .inl rfl⟩

/-- At rest CARD_OUT is raised where the card was mounted (R153). -/
theorem Job.pulled_atRest (h : j.st.card.recState = .idle ∨ j.st.card.recState = .standby) (hc : j.st.card.clip = none)
    (hs : j.st.card.recState = .standby → j.st.card.state ≠ .absent) :
    j.st.card.PulledFrom (j.pulled map).st.card ∧
      (j.st.card.state ≠ .absent → RecOut.bus (.raise .cardOut) ∈ (j.pulled map).out) := by
  have rests : j.st.card.recState = .idle ∨ (j.st.card.recState = .standby ∧ j.st.card.state ≠ .absent) :=
    h.imp_right fun h => ⟨h, hs h⟩
  have pulled : j.pulled map = if j.st.card.state = CardState.absent then j.card CardEngine.abandon
      else ((j.card CardEngine.abandon).endFormat .aborted 0).ask (.raise .cardOut) := by
    unfold Job.pulled
    obtain h | h := h <;> rw [h]
  rw [pulled]
  by_cases ha : j.st.card.state = .absent
  · rw [if_pos ha]
    exact ⟨⟨rfl, rfl, hc, rests⟩, fun hn => absurd ha hn⟩
  · rw [if_neg ha, Job.endFormat_eq]
    exact ⟨⟨rfl, rfl, hc, rests⟩, fun _ => List.mem_append_right _ (List.mem_singleton.2 rfl)⟩

theorem RingMonitor.discard_retained (R : Nat) (m : RingMonitor) : ∀ e ∈ (m.discard R).queue, e.state = .retained := by
  intro e he
  have kept : e.isRetained = true := (List.mem_filter.1 he).2
  exact of_decide_eq_true kept

end

/-- Settles O55: the debounce, an insertion's mount, and a removal by the record state. -/
theorem cardsAreMountedAndRemoved : Obligations.CardsAreMountedAndRemoved := by
  intro s n hn c counted
  refine ⟨fun hr hf => ⟨fun hp => ?_, fun hp => ?_⟩, fun hr => ⟨fun hp => ?_, fun hp => ?_⟩,
    fun hq hp hf hstate hrec hej hreq => ⟨fun hoff => ?_, fun hrun hmap hflight => ?_⟩, fun hp hf hs hclip => ?_⟩
  · exact congrArg _ (State.cardDetect_counts (CardEngine.detect_few hn (by simp [c, hp]) hf) hr)
  · exact congrArg _ (State.cardDetect_counts (CardEngine.detect_few hn (by simp [c, hp]) hf) hr)
  · exact congrArg _ (State.cardDetect_counts (CardEngine.detect_same hn hp) hr)
  · exact congrArg _ (State.cardDetect_counts (CardEngine.detect_same hn hp) hr)
  · have turned := CardEngine.detect_turns (c := c) (level := true) hn (by simp [hp]) hf
    have held : (decide (s.part.phase = .running) && !s.part.map.conflict) = false := by
      obtain h | h := hoff
      · rw [decide_eq_false h, Bool.false_and]
      · rw [h, Bool.not_true, Bool.and_false]
    have inserted := Job.cardDetect_inserts (j := .start s.part.recd) (map := s.part.map)
      (enabled := decide (s.part.phase = .running) && !s.part.map.conflict) turned
    have waits := inserted.trans (congrArg (Job.insertion _) held)
    exact congrArg _ ((State.cardDetect_rests waits (.inl hq)).trans rfl)
  · have turned := CardEngine.detect_turns (c := c) (level := true) hn (by simp [hp]) hf
    have enabled : (decide (s.part.phase = .running) && !s.part.map.conflict) = true := by
      rw [decide_eq_true hrun, hmap]
      rfl
    have inserted := Job.cardDetect_inserts (j := .start s.part.recd) (map := s.part.map)
      (enabled := decide (s.part.phase = .running) && !s.part.map.conflict) turned
    have mounts := (inserted.trans (congrArg (Job.insertion _) enabled)).trans (Job.insertion_mounts hej)
    have mounted := Job.startMount_pumped (map := s.part.map)
      (j := (Job.start s.part.recd).card fun _ => { c with present := true, detectRun := 0 }) hstate hrec hq hreq hflight
    rw [← mounts] at mounted
    exact congrArg _ ((State.cardDetect_pumped mounted).trans rfl)
  · have turned := CardEngine.detect_turns (c := c) (level := false) hn (by simp [hp]) hf
    have removed := (Job.cardDetect_removes (j := .start s.part.recd) (map := s.part.map)
      (enabled := decide (s.part.phase = .running) && !s.part.map.conflict) turned).trans (Job.removal_eq _ _)
    let j : RecWork := (Job.start s.part.recd).card fun _ => { c with present := false, detectRun := 0 }
    have pulled : j.st.card.PulledFrom (j.pulled s.part.map).st.card := by
      cases hrec : c.recState with
      | recording => exact (Job.pulled_clipped (j := j) (.inl hrec)).1
      | stopping => exact (Job.pulled_clipped (j := j) (.inr (.inl hrec))).1
      | closing => exact (Job.pulled_clipped (j := j) (.inr (.inr hrec))).1
      | armed => exact Job.pulled_armed (j := j) hrec (hclip (.inr (.inr hrec)))
      | idle => exact (Job.pulled_atRest (j := j) (.inl hrec) (hclip (.inl hrec)) hs).1
      | standby => exact (Job.pulled_atRest (j := j) (.inr hrec) (hclip (.inr (.inl hrec))) hs).1
    obtain ⟨o, gone⟩ := Job.removed_eq pulled.atRest
    have rests : (j.pulled s.part.map).st.card.removed.Rests := .inl ⟨pulled.clip, rfl, rfl⟩
    have answered := State.cardDetect_rests (removed.trans gone) rests
    have recd := Part.deliverAll_recd ((j.pulled s.part.map).out ++ o)
      { s.part with recd := { (j.pulled s.part.map).st with card := (j.pulled s.part.map).st.card.removed } }
    have shown (h : RecOut.bus (.raise .cardOut) ∈ (j.pulled s.part.map).out) :=
      Part.deliverAll_raised (List.mem_append_left o h)
        { s.part with recd := { (j.pulled s.part.map).st with card := (j.pulled s.part.map).st.card.removed } }
    refine ⟨_, (congrArg Host.Outcome.next answered : exec (.cardRemoval n) s = _), rfl, ?_⟩
    dsimp only [State.onPart]
    rw [recd]
    refine ⟨pulled.present, rfl, rfl, rfl, rfl, pulled.inFlight, fun hrec => ?_, fun hrec hmounted => ?_⟩
    · obtain ⟨-, raised, ring⟩ := Job.pulled_clipped (j := j) (map := s.part.map) hrec
      exact ⟨shown raised, pulled.clip, ring ▸ RingMonitor.discard_retained _ _⟩
    · exact shown ((Job.pulled_atRest (j := j) hrec (hclip (hrec.imp_right .inl)) hs).2 hmounted)

end Sys2Proof.Machine

end

section
/-! PROOFS. A frame complete at the LINK grant of its last beat (03 section 3.3): the slots that it releases, and what it hands
to the other blocks. -/

namespace Sys2Proof.Machine

/-! ### The slots (R42) -/

section

variable {m : SlotManager} {j : SlotWork} {recording : Bool} {k : Nat} {ks : List Nat}

/-- The slot table with a run of slots FREE. -/
def freed (ks : List Nat) (table : List FrameSlot) : List FrameSlot := ks.foldl (fun t i => t.set i .free) table

theorem freed_cons (k : Nat) (ks : List Nat) (table : List FrameSlot) : freed (k :: ks) table = freed ks (table.set k .free) := rfl

theorem freed_of_not_mem {i : Nat} (h : i ∉ ks) (table : List FrameSlot) : (freed ks table)[i]? = table[i]? := by
  induction ks generalizing table with
  | nil => rfl
  | cons k ks ih =>
    obtain ⟨hk, hks⟩ := not_or.1 (mt List.mem_cons.2 h)
    rw [freed_cons, ih hks, List.getElem?_set_ne (Ne.symm hk)]

theorem freed_of_mem {i : Nat} (h : i ∈ ks) {table : List FrameSlot} (hi : i < table.length) :
    (freed ks table)[i]? = some .free := by
  induction ks generalizing table with
  | nil => cases h
  | cons k ks ih =>
    rw [freed_cons]
    by_cases hks : i ∈ ks
    · exact ih hks (by rw [List.length_set]; exact hi)
    · obtain rfl | hk := List.mem_cons.1 h
      · rw [freed_of_not_mem hks, List.getElem?_set_self hi]
      · exact absurd hk hks

/-- A release hands over no mark (R43). -/
theorem Job.releaseFrame_unmarked (h : SlotOut.frameMark ∉ j.out) : SlotOut.frameMark ∉ (j.releaseFrame recording k).out := by
  unfold Job.releaseFrame
  cases j.st.frameIn k with
  | none => exact h
  | some f =>
    dsimp only
    split_ifs <;> simp [Job.change, Job.emit, h]

/-- What a run of releases leaves of the slot table (R42 step 5). -/
theorem Job.releaseAll_st (j : SlotWork) (recording : Bool) (ks : List Nat) :
    ∃ u s, (j.releaseAll recording ks).st =
      { j.st with
        table := freed ks j.st.table
        freeOrder := j.st.freeOrder ++ ks
        completion := j.st.completion.filter (· ∉ ks)
        unshown := u
        skips := s } := by
  induction ks generalizing j with
  | nil => exact ⟨j.st.unshown, j.st.skips, by simp [freed]⟩
  | cons k ks ih =>
    obtain ⟨u, s, o, hrel⟩ := Job.releaseFrame_frame j recording k
    obtain ⟨u', s', after⟩ := ih ((j.releaseFrame recording k).change (SlotManager.toFree k))
    refine ⟨u', s', ?_⟩
    rw [Job.releaseAll_cons, after, hrel]
    simp [Job.change, SlotManager.toFree, freed_cons, List.filter_filter, Bool.and_comm]

theorem Job.releaseAll_unmarked (h : SlotOut.frameMark ∉ j.out) (ks : List Nat) :
    SlotOut.frameMark ∉ (j.releaseAll recording ks).out := by
  induction ks generalizing j with
  | nil => exact h
  | cons k ks ih => exact ih (Job.releaseFrame_unmarked h)

end

/-! ### The other blocks -/

section

variable {p : Part} {f : Factor} {out : List SlotOut}

theorem Part.shows_onRecorder (h : p.bus.Shows f) (g : Recorder → RecWork) : (p.onRecorder g).bus.Shows f :=
  Part.shows_deliverAll (p := { p with recd := ((g p.recd).pump p.map).st }) h _

theorem Part.shows_deliverSlot (h : p.bus.Shows f) (o : SlotOut) : (p.deliverSlot o).bus.Shows f := by
  cases o with
  | raise g => exact Bus.Shows.meet h (.raise g)
  | skip =>
    have noticed : p.skipNotice.bus.Shows f := Part.shows_onRecorder h _
    exact noticed
  | frameMark => exact Bus.Shows.meetAll h _

theorem Part.shows_deliverSlots (h : p.bus.Shows f) (out : List SlotOut) : (out.foldl Part.deliverSlot p).bus.Shows f := by
  induction out generalizing p with
  | nil => exact h
  | cons o out ih => exact ih (Part.shows_deliverSlot h o)

/-- With no clip open an encoder skip changes nothing (R145). -/
theorem Part.skipNotice_quiet (h : p.recd.card.Quiet) : p.skipNotice = p := by
  have skipped : (Job.start p.recd).skip = (.start p.recd : RecWork) := by
    have closed : p.recd.card.clip = none := h.1
    unfold Job.skip Job.clip Job.card Job.change
    dsimp only [Job.start]
    rw [closed, Option.map_none, ← closed]
  exact Part.onRecorder_rests (f := fun r => (Job.start r).skip) (r := p.recd) (out := []) skipped (.inl h)

/-- With no clip open and no mark the releases reach the bus alone. -/
theorem Part.deliverSlots_quiet (h : p.recd.card.Quiet) (hout : SlotOut.frameMark ∉ out) :
    ∃ b, out.foldl Part.deliverSlot p = { p with bus := b } := by
  induction out generalizing p with
  | nil => exact ⟨p.bus, rfl⟩
  | cons o out ih =>
    obtain ⟨ho, hrest⟩ := not_or.1 (mt List.mem_cons.2 hout)
    cases o with
    | raise g => exact ih (p := p.raise g) h hrest
    | skip =>
      have same : p.deliverSlot .skip = p := Part.skipNotice_quiet h
      obtain ⟨b, hb⟩ := ih h hrest
      exact ⟨b, (congrArg (fun q => out.foldl Part.deliverSlot q) same).trans hb⟩
    | frameMark => exact absurd rfl ho

/-- The part with the stabiliser's work at a frame complete done (R61). -/
def Part.stabbed (p : Part) : Part :=
  let c := p.stab.frame p.map.mx p.map.my p.lens.coord.table p.lens.zoom.pos
  let q : Part := { p with stab := c.stab }
  if c.panned then q.raise .pan else q

/-- The slot manager's work at a frame complete (R42). -/
def Part.completed (k : Nat) (p : Part) : SlotWork :=
  let c := p.stab.frame p.map.mx p.map.my p.lens.coord.table p.lens.zoom.pos
  (Job.start (p.slots.complete k p.lens.zoom.pos c.dx c.dy)).releaseOthers p.recording k

theorem Part.stabbed_eq (p : Part) : ∃ b, p.stabbed = { p with
    stab := (p.stab.frame p.map.mx p.map.my p.lens.coord.table p.lens.zoom.pos).stab, bus := b } := by
  unfold Part.stabbed
  dsimp only
  split
  · exact ⟨_, rfl⟩
  · exact ⟨p.bus, rfl⟩

theorem Part.stabbed_pans (h : (p.stab.frame p.map.mx p.map.my p.lens.coord.table p.lens.zoom.pos).panned = true) :
    p.stabbed.bus.Shows .pan := by
  unfold Part.stabbed
  dsimp only
  rw [if_pos h]
  exact Bus.shows_raise .pan _

theorem Part.frameComplete_eq (k : Nat) (p : Part) :
    p.frameComplete k = (p.stabbed.withSlots (p.completed k)).handOnFrame (p.stabbed.withSlots (p.completed k)).slots.frameCounter := by
  obtain ⟨b, hb⟩ := Part.stabbed_eq p
  unfold Part.completed
  have slots : p.stabbed.slots = p.slots := by rw [hb]
  have recording : p.stabbed.recording = p.recording := by
    unfold Part.recording
    rw [hb]
  rw [← slots, ← recording]
  rfl

end

/-! ### The grant of the completing beat (R42) -/

section

variable {s : State} {p : Part} {a k o last : Nat} {data : List Byte} {enables : List Bool}

theorem completes_of_lastByte {m : RegionMap} (hsize : 0 < m.cw * m.ch)
    (h : ∃ i < 32, o + i + 1 = m.cw * m.ch * 2 ∧ enables[i]? = some true) : completes m o enables = true := by
  obtain ⟨i, -, hi, he⟩ := h
  unfold completes RegionMap.frameBytes
  rw [Bool.and_eq_true, decide_eq_true_iff]
  refine ⟨by omega, ?_⟩
  rw [show m.cw * m.ch * 2 - 1 - o = i by omega, List.getD_eq_getElem?_getD, he]
  rfl

theorem exec_linkGrant_completes (h : LinkIsNext s.part (.write a data enables (.capture k o)))
    (hk : s.part.slots.table[k]? = some (.filling last)) (hc : completes s.part.map o enables = true) :
    exec .linkRequestGrant s = .next { s with
      part := (s.part.linkGranted.frameComplete k).endBeat none false
      mem := s.mem.writeMasked a data enables } := by
  have filling : s.part.slots.isFilling k = true := SlotManager.isFilling_iff.2 ⟨last, hk⟩
  have watched : s.part.linkGranted.watch (.capture k o) data enables = s.part.linkGranted.frameComplete k := by
    refine if_pos ?_
    rw [show s.part.linkGranted.slots.isFilling k = true from filling,
      show completes s.part.linkGranted.map o enables = true from hc]
    rfl
  rw [exec_linkGrant_write h, watched]

/-- The grant that comes next completes a frame (log 9). -/
theorem Part.completesNext_of_lastByte (h : LinkIsNext p (.write a data enables (.capture k o)))
    (hk : p.slots.table[k]? = some (.filling last)) (hc : completes p.map o enables = true) : p.completesNext = true := by
  unfold Part.completesNext
  rw [decide_eq_true (Part.nextGrant_link h), h.1]
  dsimp only
  rw [SlotManager.isFilling_iff.2 ⟨last, hk⟩, hc]
  rfl

theorem Part.frameComplete_stab (k : Nat) (p : Part) :
    (p.frameComplete k).stab = (p.stab.frame p.map.mx p.map.my p.lens.coord.table p.lens.zoom.pos).stab := by
  obtain ⟨b, hb⟩ := Part.stabbed_eq p
  rw [Part.frameComplete_eq, Part.withSlots_frame, hb]
  rfl

theorem Part.frameComplete_audio (k : Nat) (p : Part) : (p.frameComplete k).audio = channelsMap Channel.frame p.audio := by
  obtain ⟨b, hb⟩ := Part.stabbed_eq p
  rw [Part.frameComplete_eq, Part.withSlots_frame, hb]
  rfl

/-- An axis that enters PAN raises PAN (R67). -/
theorem Part.frameComplete_pans (k : Nat)
    (h : (p.stab.frame p.map.mx p.map.my p.lens.coord.table p.lens.zoom.pos).panned = true) :
    (p.frameComplete k).bus.Shows .pan := by
  have handed : (p.stabbed.withSlots (p.completed k)).bus.Shows .pan :=
    Part.shows_deliverSlots (p := { p.stabbed with slots := (p.completed k).st }) (Part.stabbed_pans h) _
  rw [Part.frameComplete_eq]
  exact Bus.Shows.meet handed .status

end

end Sys2Proof.Machine

end

section
/-! PROOFS. The stabiliser at a frame complete (04 sections 4.5 to 4.7), and the rows that name cases of one (log 9). -/

namespace Sys2Proof.Machine

/-! ### The pending copy (R70) -/

section

variable {s : Stabiliser} {c : StabCopy}

/-- The stabiliser with the values of a copy (R70). -/
def Stabiliser.copied (c : StabCopy) (s : Stabiliser) : Stabiliser :=
  { s with
    copy := none
    enable := c.enable
    lTrack := c.lTrack
    lPan := c.lPan
    hold := c.hold
    yaw := { s.yaw with reversed := c.yawReversed }
    pitch := { s.pitch with reversed := c.pitchReversed } }

theorem Stabiliser.applyCopy_none (h : s.copy = none) : s.applyCopy = s := by
  unfold Stabiliser.applyCopy
  rw [h]

/-- OFF becomes ACTIVE where the copy turns the stabiliser on (R70). -/
theorem Stabiliser.applyCopy_turnsOn (h : s.copy = some c) (hm : s.mode = .off) (he : c.enable = true) :
    s.applyCopy = { s.copied c with mode := .active, missingRun := 0 } := by
  cases s
  cases c
  cases h
  cases hm
  cases he
  rfl

theorem Stabiliser.applyCopy_stays (h : s.copy = some c)
    (hm : (s.mode = .off ∧ c.enable = false) ∨ ((s.mode = .active ∨ s.mode = .hold) ∧ c.enable = true)) :
    s.applyCopy = s.copied c := by
  cases s
  cases c
  cases h
  obtain ⟨hm, he⟩ | ⟨hm | hm, he⟩ := hm <;> (cases hm; cases he; rfl)

/-- ACTIVE and HOLD become OFF with all cleared where it turns it off (R70). -/
theorem Stabiliser.applyCopy_turnsOff (h : s.copy = some c) (hm : s.mode = .active ∨ s.mode = .hold) (he : c.enable = false) :
    s.applyCopy = (s.copied c).clear .off := by
  cases s
  cases c
  cases h
  cases he
  obtain hm | hm := hm <;> (cases hm; rfl)

theorem Stabiliser.applyCopy_calibrating (h : s.copy = some c) (hm : s.mode = .calibrating) :
    s.applyCopy = { s.copied c with cal := s.cal.map fun k => { k with toActive := c.enable } } := by
  cases s
  cases c
  cases h
  cases hm
  rfl

end

/-! ### One axis (R61 to R68) -/

section

variable {a : StabAxis} {margin hold lim : Nat} {crop : Int}

theorem StabAxis.panStep_ofTrack (hm : margin ≠ 0) (hb : a.panState = .track) :
    ∃ run, a.panStep margin hold crop =
      if hold ≤ run then ({ a with panState := .pan, hitRun := 0, centreRun := 0 }, true) else ({ a with hitRun := run }, false) := by
  unfold StabAxis.panStep
  rw [if_neg hm, hb]
  exact ⟨_, rfl⟩

theorem StabAxis.panStep_ofPan (hm : margin ≠ 0) (hb : a.panState = .pan) :
    ∃ run, a.panStep margin hold crop =
      if hold ≤ run then ({ a with panState := .track, hitRun := 0, centreRun := 0 }, false)
      else ({ a with centreRun := run }, false) := by
  unfold StabAxis.panStep
  rw [if_neg hm, hb]
  exact ⟨_, rfl⟩

theorem StabAxis.panStep_ofNone (hm : margin = 0) :
    a.panStep margin hold crop = ({ a with panState := .track, hitRun := 0, centreRun := 0 }, false) := if_pos hm

/-- An axis enters PAN exactly where its pan state changes to it (R67). -/
theorem StabAxis.panStep_enters :
    (a.panStep margin hold crop).2 = true ↔
      a.panState = .track ∧ (a.panStep margin hold crop).1.panState = .pan := by
  by_cases hm : margin = 0
  · simp [StabAxis.panStep_ofNone hm]
  · cases hb : a.panState with
    | track =>
      obtain ⟨run, step⟩ := StabAxis.panStep_ofTrack (hold := hold) (crop := crop) hm hb
      rw [step]
      split_ifs <;> simp [hb]
    | pan =>
      obtain ⟨run, step⟩ := StabAxis.panStep_ofPan (hold := hold) (crop := crop) hm hb
      rw [step]
      split_ifs <;> simp

theorem StabAxis.panStep_toPan (hb : a.panState = .track) (ha : (a.panStep margin hold crop).1.panState = .pan) :
    (a.panStep margin hold crop).1.hitRun = 0 := by
  by_cases hm : margin = 0
  · rw [StabAxis.panStep_ofNone hm]
  · obtain ⟨run, step⟩ := StabAxis.panStep_ofTrack (hold := hold) (crop := crop) hm hb
    rw [step] at ha ⊢
    split_ifs at ha ⊢
    · rfl
    · exact absurd (hb.symm.trans ha) (by decide)

theorem StabAxis.panStep_toTrack (hb : a.panState = .pan) (ha : (a.panStep margin hold crop).1.panState = .track) :
    (a.panStep margin hold crop).1.centreRun = 0 := by
  by_cases hm : margin = 0
  · rw [StabAxis.panStep_ofNone hm]
  · obtain ⟨run, step⟩ := StabAxis.panStep_ofPan (hold := hold) (crop := crop) hm hb
    rw [step] at ha ⊢
    split_ifs at ha ⊢
    · rfl
    · exact absurd (hb.symm.trans ha) (by decide)

/-- The axis after a frame complete that forms a crop (R61, R67, R68). -/
def StabAxis.framed (margin hold lim : Nat) (crop acc : Int) (a : StabAxis) : StabAxis :=
  let hit : Prop := a.clamped = true ∨ acc ≠ a.acc ∨ crop.natAbs = margin
  let at_ : StabAxis := { a with acc := acc, lim := lim, clamped := false }
  let hits := if hit then a.hitRun + 1 else 0
  let centred := if 2 * crop.natAbs < margin then a.centreRun + 1 else 0
  if margin = 0 then { at_ with panState := .track, hitRun := 0, centreRun := 0 }
  else match a.panState with
    | .track =>
      if hold ≤ hits then { at_ with panState := .pan, hitRun := 0, centreRun := 0 } else { at_ with hitRun := hits }
    | .pan =>
      if hold ≤ centred then { at_ with panState := .track, hitRun := 0, centreRun := 0 }
      else { at_ with centreRun := centred }

theorem StabAxis.panStep_relimit :
    { ((a.relimit lim true).panStep margin hold crop).1 with clamped := false } =
      a.framed margin hold lim crop (clampAcc lim a.acc) := by
  unfold StabAxis.panStep StabAxis.relimit StabAxis.framed
  rw [if_pos rfl]
  dsimp only
  by_cases hm : margin = 0
  · rw [if_pos hm, if_pos hm]
  · rw [if_neg hm, if_neg hm]
    have hits : (if (a.clamped || decide (clampAcc lim a.acc ≠ a.acc) || decide (crop.natAbs = margin)) = true
        then a.hitRun + 1 else 0) =
        if a.clamped = true ∨ clampAcc lim a.acc ≠ a.acc ∨ crop.natAbs = margin then a.hitRun + 1 else 0 := by
      simp only [Bool.or_eq_true, decide_eq_true_eq, or_assoc]
    rw [hits]
    cases a.panState with
    | track =>
      dsimp only
      split_ifs <;> rfl
    | pan =>
      dsimp only
      split_ifs <;> rfl

theorem evenToward_eq (p : Int) : evenToward p = if p % 2 = 0 then p else if 0 < p then p - 1 else p + 1 := by
  unfold evenToward
  split_ifs <;> omega

end

/-! ### The whole stabiliser (R61) -/

section

variable {s : Stabiliser} {mx my : Nat} {table : Option LensTable} {zoom : Option Nat}

theorem StabMode.crops_iff {m : StabMode} : m.crops = true ↔ m = .active ∨ m = .hold := by cases m <;> simp [StabMode.crops]

/-- An axis with its accumulator clamped to the limit of the frame (R61 steps 2 and 3). -/
def StabAxis.limited (margin : Nat) (table : Option LensTable) (zoom : Option Nat) (a : StabAxis) : StabAxis :=
  a.relimit (frameLimit margin (frameGain table zoom)) true

theorem StabAxis.limited_acc {margin : Nat} {a : StabAxis} :
    (a.limited margin table zoom).acc = clampAcc (frameLimit margin (frameGain table zoom)) a.acc := rfl

/-- A frame complete that forms a crop (R61). -/
theorem Stabiliser.frame_live (h : s.applyCopy.mode = .active ∨ s.applyCopy.mode = .hold) :
    let yaw := s.applyCopy.yaw.limited mx table zoom
    let pitch := s.applyCopy.pitch.limited my table zoom
    let dx := cropX mx ((frameGain table zoom).getD 0) yaw.acc
    let dy := cropY my ((frameGain table zoom).getD 0) pitch.acc
    s.frame mx my table zoom =
      ⟨{ s.applyCopy with
          yaw := { (yaw.panStep mx s.applyCopy.hold dx).1 with clamped := false }
          pitch := { (pitch.panStep my s.applyCopy.hold dy).1 with clamped := false } },
        dx, dy, (yaw.panStep mx s.applyCopy.hold dx).2 || (pitch.panStep my s.applyCopy.hold dy).2⟩ := by
  have crops := StabMode.crops_iff.2 h
  unfold Stabiliser.frame
  dsimp only
  rw [crops]
  rfl

theorem Stabiliser.frame_still (h : s.applyCopy.mode = .off ∨ s.applyCopy.mode = .calibrating) :
    s.frame mx my table zoom =
      ⟨{ s.applyCopy with
          yaw := { s.applyCopy.yaw with lim := frameLimit mx (frameGain table zoom), clamped := false }
          pitch := { s.applyCopy.pitch with lim := frameLimit my (frameGain table zoom), clamped := false } },
        0, 0, false⟩ := by
  have crops : s.applyCopy.mode.crops = false := by
    obtain h | h := h <;> rw [h] <;> rfl
  unfold Stabiliser.frame
  dsimp only
  rw [crops]
  rfl

theorem frameLimit_eq {margin : Nat} :
    frameLimit margin (frameGain table zoom) =
      if table = none then 0 else min (2 ^ 30) (margin * 16 * 2 ^ 18 / (table.map fun t => t.gain zoom).getD 0) := by
  cases table with
  | none => rfl
  | some t => simp only [frameLimit, frameGain, axisLimit, Option.map_some, Option.getD_some, reduceCtorEq, if_false]

/-- PAN is raised exactly where an axis enters it (R67). -/
theorem Stabiliser.frame_panned (h : s.applyCopy.mode = .active ∨ s.applyCopy.mode = .hold) :
    (s.frame mx my table zoom).panned = true ↔
      (s.applyCopy.yaw.panState = .track ∧ (s.frame mx my table zoom).stab.yaw.panState = .pan) ∨
        (s.applyCopy.pitch.panState = .track ∧ (s.frame mx my table zoom).stab.pitch.panState = .pan) := by
  rw [Stabiliser.frame_live h]
  exact Bool.or_eq_true_iff.trans (or_congr StabAxis.panStep_enters StabAxis.panStep_enters)

/-- An axis that changes its pan state begins the run of the new one at 0 (R67, R68). -/
theorem Stabiliser.frame_turns (axis : GyroAxis) (h : s.applyCopy.mode = .active ∨ s.applyCopy.mode = .hold) :
    ((s.applyCopy.axis axis).panState = .track → ((s.frame mx my table zoom).stab.axis axis).panState = .pan →
        ((s.frame mx my table zoom).stab.axis axis).hitRun = 0 ∧ (s.frame mx my table zoom).panned = true) ∧
      ((s.applyCopy.axis axis).panState = .pan → ((s.frame mx my table zoom).stab.axis axis).panState = .track →
        ((s.frame mx my table zoom).stab.axis axis).centreRun = 0) := by
  have panned := Stabiliser.frame_panned (mx := mx) (my := my) (table := table) (zoom := zoom) h
  rw [Stabiliser.frame_live h] at panned ⊢
  have toTrack (margin : Nat) (crop : Int) (b : StabAxis) (hb : b.panState = .pan)
      (ha : (b.panStep margin s.applyCopy.hold crop).1.panState = .track) :
      (b.panStep margin s.applyCopy.hold crop).1.centreRun = 0 := StabAxis.panStep_toTrack hb ha
  cases axis with
  | yaw => exact ⟨fun hb ha => ⟨StabAxis.panStep_toPan hb ha, panned.2 (.inl ⟨hb, ha⟩)⟩,
      toTrack mx _ (s.applyCopy.yaw.limited mx table zoom)⟩
  | pitch => exact ⟨fun hb ha => ⟨StabAxis.panStep_toPan hb ha, panned.2 (.inr ⟨hb, ha⟩)⟩,
      toTrack my _ (s.applyCopy.pitch.limited my table zoom)⟩

end

/-! ### A channel's fall (R172) -/

theorem Channel.frame_falls {c : Channel} (hs : segment c.peak < c.held) (hh : c.holdCount = 0) (hf : c.fallCount = 1) :
    c.frame = { c with peak := 0, held := max (segment c.peak) (c.held - 1), fallCount := 0 } ∧ c.falls = true := by
  have falls : c.frame = { c with peak := 0, held := max (segment c.peak) (c.held - 1), fallCount := 0 } := by
    unfold Channel.frame
    dsimp only
    rw [if_neg (Nat.not_le.2 hs), if_neg (by omega), if_neg (by omega)]
  refine ⟨falls, decide_eq_true ?_⟩
  rw [falls]
  exact max_lt hs (by omega)

/-- Settles O49: the named rows are the grant of the completing beat; the copy by mode; the crop and the pan states. -/
theorem namedCasesOfAFrameComplete : Obligations.NamedCasesOfAFrameComplete := by
  refine ⟨?_, ?_, ?_⟩
  · intro s a k o last data enables h hk hsize hlast c live
    have complete := completes_of_lastByte hsize hlast
    have granted := exec_linkGrant_completes h hk complete
    have next := Part.completesNext_of_lastByte h hk complete
    have stab : (s.part.linkGranted.frameComplete k).stab = c.stab := Part.frameComplete_stab ..
    have audio : (s.part.linkGranted.frameComplete k).audio = channelsMap Channel.frame s.part.audio :=
      Part.frameComplete_audio ..
    have asGrant {b : Bool} (hb : b = true) :
        (.next (if b then s.grant .link else s) : Answer) = exec .linkRequestGrant s := by
      rw [hb]
      rfl
    have pans {axis : GyroAxis} {before after : PanState} (hlive : live) (hm : s.part.map.margin axis ≠ 0)
        (hb : (s.part.stab.applyCopy.axis axis).panState = before) (ha : (c.stab.axis axis).panState = after) :
        (s.part.completesNext && s.part.pans axis before after) = true := by
      unfold Part.pans
      dsimp only
      rw [next, StabMode.crops_iff.2 hlive, decide_eq_true hm, decide_eq_true hb,
        show decide ((s.part.frameStab.axis axis).panState = after) = true from decide_eq_true ha]
      rfl
    refine ⟨fun axis hlive hm hb ha => ?_, fun axis hlive hm hb ha => ?_, ?_⟩
    · obtain ⟨run, panned⟩ := (Stabiliser.frame_turns axis hlive).1 hb ha
      refine ⟨_, (asGrant (pans hlive hm hb ha)).trans granted, granted, ?_, ?_, Part.frameComplete_pans k panned⟩
      · exact (congrArg (fun t : Stabiliser => (t.axis axis).panState) stab).trans ha
      · exact (congrArg (fun t : Stabiliser => (t.axis axis).hitRun) stab).trans run
    · refine ⟨_, (asGrant (pans hlive hm hb ha)).trans granted, granted, ?_, ?_⟩
      · exact (congrArg (fun t : Stabiliser => (t.axis axis).panState) stab).trans ha
      · exact (congrArg (fun t : Stabiliser => (t.axis axis).centreRun) stab).trans
          ((Stabiliser.frame_turns axis hlive).2 hb ha)
    · intro channel ch hs hh hf
      obtain ⟨frame, falls⟩ := Channel.frame_falls hs hh hf
      have falling : s.part.fallNext channel = true := by
        unfold Part.fallNext
        rw [next, show s.part.audio[channel].falls = true from falls]
        rfl
      have after : (s.part.linkGranted.frameComplete k).audio[channel] = ch.frame := by
        rw [audio]
        exact channelsMap_getElem ..
      refine ⟨_, (asGrant falling).trans granted, granted, ?_, ?_, ?_⟩
      · exact (congrArg Channel.held (after.trans frame))
      · exact (congrArg Channel.fallCount (after.trans frame))
      · exact (congrArg Channel.peak (after.trans frame))
  · intro s
    refine ⟨Stabiliser.applyCopy_none, fun c hc => ?_⟩
    exact ⟨Stabiliser.applyCopy_turnsOn hc, Stabiliser.applyCopy_stays hc, Stabiliser.applyCopy_turnsOff hc,
      Stabiliser.applyCopy_calibrating hc⟩
  · intro mx my table zoom s r a gain limit clampTo px even moved
    have limits (margin : Nat) : frameLimit margin (frameGain table zoom) = limit margin := frameLimit_eq
    refine ⟨?_, fun hstill => ?_⟩
    · intro hlive yaw pitch
      have frame : r = _ := Stabiliser.frame_live hlive
      have dx : r.dx = clampTo mx (-(even (px yaw))) := by
        rw [frame]
        dsimp only
        rw [StabAxis.limited_acc, limits]
        exact congrArg (fun p => clampInt (-mx) mx (-p)) (evenToward_eq _)
      have dy : r.dy = clampTo my (px pitch) := by
        rw [frame]
        dsimp only
        rw [StabAxis.limited_acc, limits]
        rfl
      refine ⟨dx, dy, ?_, Stabiliser.frame_panned hlive⟩
      have turned (margin : Nat) (crop : Int) (b : StabAxis) :
          { ((b.limited margin table zoom).panStep margin a.hold crop).1 with clamped := false } =
            moved margin crop b (clampTo (limit margin) b.acc) := by
        unfold StabAxis.limited
        rw [StabAxis.panStep_relimit, limits]
        rfl
      rw [frame]
      dsimp only
      rw [turned, turned]
    · have frame : r = _ := Stabiliser.frame_still hstill
      rw [frame, limits, limits]
      exact ⟨rfl, rfl, rfl, rfl⟩

end Sys2Proof.Machine

end

section
/-! PROOFS. What a frame complete does at the slot table, the timecode unit, the iris, the ring monitor and the meters
(03 section 3.3, 05 section 5.7, 07 section 7.8, 09 sections 9.2 to 9.5, 10 section 10.5). -/

namespace Sys2Proof.Machine

/-! ### Counting timecode (R157, R158) -/

section

variable {d : Bcd} {t : Timecode} {r : TcRate} {limit : Nat}

/-- A field wraps at its limit, or is one more (R157). -/
theorem Bcd.count_eq (hd : d.digits = true) (hl : limit ≤ 100) (hv : d.value < limit) :
    (d.value + 1 = limit ∧ d.count limit = (.zero, true)) ∨
      (d.value + 1 < limit ∧ ∃ e : Bcd, d.count limit = (e, false) ∧ e.digits = true ∧ e.value = d.value + 1 ∧
        e.units = (d.value + 1) % 10) := by
  obtain ⟨ht, hu⟩ := Bcd.digits_iff.1 hd
  have value : d.value = d.tens * 10 + d.units := rfl
  have next : d.next.value = d.value + 1 ∧ d.next.units = (d.value + 1) % 10 ∧ d.next.tens = (d.value + 1) / 10 := by
    unfold Bcd.next
    split_ifs with h
    · exact ⟨show (d.tens + 1) * 10 + 0 = _ by omega, show 0 = _ by omega, show d.tens + 1 = _ by omega⟩
    · exact ⟨show d.tens * 10 + (d.units + 1) = _ by omega, show d.units + 1 = _ by omega, show d.tens = _ by omega⟩
  obtain ⟨hval, hunits, htens⟩ := next
  unfold Bcd.count
  obtain h | h : d.value + 1 = limit ∨ d.value + 1 < limit := by omega
  · exact .inl ⟨h, if_pos (hval.trans h)⟩
  · exact .inr ⟨h, d.next, if_neg (by omega), Bcd.digits_iff.2 ⟨by omega, by omega⟩, hval, hunits⟩

theorem Timecode.valid_values : t.valid r = true ↔
    (t.hh.digits = true ∧ t.mm.digits = true ∧ t.ss.digits = true ∧ t.ff.digits = true) ∧
      t.hh.value < 24 ∧ t.mm.value < 60 ∧ t.ss.value < 60 ∧ t.ff.value < r.fps ∧
      ¬(r = .df2997 ∧ t.ss.value = 0 ∧ t.ff.value ≤ 1 ∧ t.mm.units ≠ 0) := by
  have skipped : t.skipped = true ↔ t.ss.value = 0 ∧ t.ff.value ≤ 1 ∧ t.mm.units ≠ 0 := by
    simp only [Timecode.skipped, Bool.and_eq_true, decide_eq_true_eq, and_assoc]
  rw [Timecode.valid_iff, skipped]
  simp only [Bcd.digits_iff, show ∀ n, n < 24 ↔ n ≤ 23 from fun _ => Nat.lt_succ_iff,
    show ∀ n, n < 60 ↔ n ≤ 59 from fun _ => Nat.lt_succ_iff]

/-- The frames since midnight. -/
def Timecode.frames (r : TcRate) (t : Timecode) : Nat := ((t.hh.value * 60 + t.mm.value) * 60 + t.ss.value) * r.fps + t.ff.value

/-- The frame numbers passed over at the next frame (R158). -/
def Timecode.passes (r : TcRate) (t : Timecode) : Nat :=
  if r = .df2997 ∧ t.ss.value = 59 ∧ t.ff.value = 29 ∧ (t.mm.value + 1) % 10 ≠ 0 then 2 else 0

/-- The frame number where a minute begins (R158). -/
def minuteStart (r : TcRate) (mm : Bcd) : Bcd := if r = .df2997 ∧ mm.units ≠ 0 then ⟨0, 2⟩ else .zero

theorem minuteStart_value (r : TcRate) (mm : Bcd) :
    (minuteStart r mm).digits = true ∧ (minuteStart r mm).value = (if r = .df2997 ∧ mm.units ≠ 0 then 2 else 0) := by
  unfold minuteStart
  split_ifs <;> exact ⟨rfl, rfl⟩

/-- An increment, by the first field that does not wrap (R157). -/
theorem Timecode.increment_cases (h : t.valid r = true) :
    (∃ f : Bcd, f.digits = true ∧ f.value = t.ff.value + 1 ∧ f.value < r.fps ∧ t.increment r = { t with ff := f }) ∨
      (t.ff.value + 1 = r.fps ∧
        ((∃ s : Bcd, s.digits = true ∧ s.value = t.ss.value + 1 ∧ s.value < 60 ∧
            t.increment r = { t with ff := .zero, ss := s }) ∨
          (t.ss.value + 1 = 60 ∧
            ((∃ m : Bcd, m.digits = true ∧ m.value = t.mm.value + 1 ∧ m.value < 60 ∧ m.units = (t.mm.value + 1) % 10 ∧
                t.increment r = { t with ff := minuteStart r m, ss := .zero, mm := m }) ∨
              (t.mm.value + 1 = 60 ∧ ∃ h : Bcd, h.digits = true ∧ h.value = (t.hh.value + 1) % 24 ∧
                t.increment r = ⟨h, .zero, .zero, .zero⟩))))) := by
  obtain ⟨⟨dh, dm, ds, df⟩, lh, lm, ls, lf, -⟩ := Timecode.valid_values.1 h
  have fps : r.fps ≤ 100 := by cases r <;> decide
  unfold Timecode.increment
  obtain ⟨wf, cf⟩ | ⟨nf, f, cf, hf, vf, -⟩ := Bcd.count_eq df fps lf
  · refine .inr ⟨wf, ?_⟩
    obtain ⟨ws, cs⟩ | ⟨ns, s, cs, hs, vs, -⟩ := Bcd.count_eq ds (by decide) ls
    · refine .inr ⟨ws, ?_⟩
      obtain ⟨wm, cm⟩ | ⟨nm, m, cm, hm, vm, um⟩ := Bcd.count_eq dm (by decide) lm
      · refine .inr ⟨wm, ?_⟩
        have start : minuteStart r .zero = .zero := if_neg fun h => h.2 rfl
        obtain ⟨wh, ch⟩ | ⟨nh, hour, ch, hh, vh, -⟩ := Bcd.count_eq dh (by decide) lh
        · exact ⟨.zero, rfl, by rw [wh]; rfl, by rw [cf, cs, cm, ch]; exact congrArg (Timecode.mk _ _ _) start⟩
        · exact ⟨hour, hh, by omega, by rw [cf, cs, cm, ch]; exact congrArg (Timecode.mk _ _ _) start⟩
      · exact .inl ⟨m, hm, vm, by omega, um, by rw [cf, cs, cm]; rfl⟩
    · exact .inl ⟨s, hs, vs, by omega, by rw [cf, cs]; rfl⟩
  · exact .inl ⟨f, hf, vf, by omega, by rw [cf]; rfl⟩

theorem Timecode.increment_valid (h : t.valid r = true) :
    (t.increment r).valid r = true ∧ (t.increment r).frames r = (t.frames r + 1 + t.passes r) % (86400 * r.fps) := by
  obtain ⟨⟨dh, dm, ds, df⟩, lh, lm, ls, lf, hskip⟩ := Timecode.valid_values.1 h
  have zero : Bcd.zero.value = 0 ∧ Bcd.zero.digits = true ∧ Bcd.zero.units = 0 := ⟨rfl, rfl, rfl⟩
  obtain ⟨zeroValue, zeroDigits, zeroUnits⟩ := zero
  rw [Timecode.valid_values]
  unfold Timecode.frames Timecode.passes
  obtain ⟨f, hf, vf, lf', he⟩ | ⟨wf, ⟨s, hs, vs, ls', he⟩ | ⟨ws, ⟨m, hm, vm, lm', um, he⟩ | ⟨wm, hour, hh, vh, he⟩⟩⟩ :=
    Timecode.increment_cases h <;> (rw [he]; dsimp only)
  · refine ⟨⟨⟨dh, dm, ds, hf⟩, lh, lm, ls, lf', fun hk => hskip ⟨hk.1, hk.2.1, by omega, hk.2.2.2⟩⟩, ?_⟩
    cases r <;> simp only [TcRate.fps] at * <;> split_ifs <;> omega
  · refine ⟨⟨⟨dh, dm, hs, zeroDigits⟩, lh, lm, ls', by omega, fun hk => by omega⟩, ?_⟩
    cases r <;> simp only [TcRate.fps, zeroValue] at * <;> split_ifs <;> omega
  · obtain ⟨startDigits, startValue⟩ := minuteStart_value r m
    refine ⟨⟨⟨dh, hm, zeroDigits, startDigits⟩, lh, lm', by omega, ?_, fun hk => ?_⟩, ?_⟩
    · rw [startValue]
      cases r <;> simp only [TcRate.fps] <;> split_ifs <;> omega
    · obtain ⟨hr, -, hle, hne⟩ := hk
      rw [startValue, if_pos ⟨hr, hne⟩] at hle
      omega
    · have passed : (if r = .df2997 ∧ t.ss.value = 59 ∧ t.ff.value = 29 ∧ (t.mm.value + 1) % 10 ≠ 0 then 2 else 0) =
          if r = .df2997 ∧ m.units ≠ 0 then 2 else 0 := by
        refine if_congr ⟨fun hc => ⟨hc.1, um ▸ hc.2.2.2⟩, fun hc => ⟨hc.1, by omega, ?_, um ▸ hc.2⟩⟩ rfl rfl
        rw [hc.1] at wf
        exact Nat.succ.inj wf
      rw [passed, startValue]
      have small : (if r = .df2997 ∧ m.units ≠ 0 then 2 else 0) ≤ 2 := by split_ifs <;> omega
      generalize (if r = .df2997 ∧ m.units ≠ 0 then 2 else 0) = start at small ⊢
      cases r <;> simp only [TcRate.fps, zeroValue] at * <;> omega
  · refine ⟨⟨⟨hh, zeroDigits, zeroDigits, zeroDigits⟩, by omega, by omega, by omega, by omega, fun hk => hk.2.2.2 zeroUnits⟩, ?_⟩
    cases r <;> simp only [TcRate.fps, zeroValue] at * <;> split_ifs <;> omega

end

/-! ### The meters (R171, R172) -/

/-- The segment of a peak, from its bit length and the bit below its highest (R171). -/
theorem segment_eq {p sg b h : Nat} (hz : p = 0 → sg = 0)
    (hp : p ≠ 0 → 2 ^ b ≤ 2 * p ∧ p < 2 ^ b ∧ h = (if b = 1 then 0 else p / 2 ^ (b - 2) % 2) ∧ sg = 2 * b + h - 23) :
    segment p = sg := by
  unfold segment
  by_cases hzero : p = 0
  · rw [if_pos hzero, hz hzero]
  · obtain ⟨hlow, hhigh, hbit, hsg⟩ := hp hzero
    have positive : 0 < b := by
      refine Nat.pos_of_ne_zero fun hb => ?_
      rw [hb] at hhigh
      omega
    obtain ⟨c, rfl⟩ : ∃ c, b = c + 1 := ⟨b - 1, by omega⟩
    have log : p.log2 = c := (Nat.log2_eq_iff hzero).2 ⟨by omega, hhigh⟩
    have length : bitLength p = c + 1 := (if_neg hzero).trans (congrArg (· + 1) log)
    rw [if_neg hzero]
    dsimp only
    rw [length, hsg, hbit, Nat.testBit_eq_decide_div_mod_eq]
    by_cases hc : c = 0
    · rw [hc]
      rfl
    · rw [if_neg (by omega : ¬c + 1 = 1), decide_eq_true (by omega : 2 ≤ c + 1), Bool.true_and]
      have two := Nat.mod_lt (p / 2 ^ (c + 1 - 2)) (show 0 < 2 by decide)
      by_cases hone : p / 2 ^ (c + 1 - 2) % 2 = 1
      · rw [hone]
        exact show 2 * (c + 1) + 1 - 1 - 22 = _ by omega
      · rw [decide_eq_false hone, show p / 2 ^ (c + 1 - 2) % 2 = 0 by omega]
        exact show 2 * (c + 1) + 0 - 1 - 22 = _ by omega

theorem Channel.frame_eq (c : Channel) :
    c.frame =
      if c.held ≤ segment c.peak then { c with peak := 0, held := segment c.peak, holdCount := 25, fallCount := 0 }
      else if 0 < c.holdCount then { c with peak := 0, holdCount := c.holdCount - 1 }
      else if c.fallCount = 0 then { c with peak := 0, fallCount := 1 }
      else { c with peak := 0, held := max (segment c.peak) (c.held - 1), fallCount := 0 } := by
  unfold Channel.frame
  dsimp only
  by_cases hf : c.fallCount = 0
  · rw [if_pos hf, if_pos (show c.fallCount + 1 < 2 by omega), hf]
  · rw [if_neg hf, if_neg (show ¬c.fallCount + 1 < 2 by omega)]

/-! ### The ring monitor's average (R131) -/

theorem RingMonitor.frame_average (m : RingMonitor) :
    (m.frame.rBpf : Int) = m.rBpf + Int.tdiv ((m.frameBytes : Int) - m.rBpf) 16 := by
  have within : 0 ≤ (m.rBpf : Int) + Int.tdiv ((m.frameBytes : Int) - m.rBpf) 16 := by
    obtain h | h := Int.le_total 0 ((m.frameBytes : Int) - m.rBpf)
    · have up := Int.tdiv_nonneg h (show (0 : Int) ≤ 16 by decide)
      omega
    · have down : Int.tdiv ((m.frameBytes : Int) - m.rBpf) 16 = -(((m.rBpf : Int) - m.frameBytes) / 16) := by
        rw [← Int.tdiv_eq_ediv_of_nonneg (by omega), ← Int.neg_tdiv, Int.neg_sub]
      omega
  exact Int.toNat_of_nonneg within

/-! ### The slot table (R42) -/

section

variable {m : SlotManager} {p : Part} {k : Nat}

/-- The part after a frame complete, with the card engine at rest (R42 to R44). -/
theorem Part.frameComplete_quiet (hq : p.recd.card.Quiet) (k : Nat) :
    ∃ b, p.stabbed.withSlots (p.completed k) = { p with
      stab := (p.stab.frame p.map.mx p.map.my p.lens.coord.table p.lens.zoom.pos).stab
      slots := (p.completed k).st
      bus := b } := by
  obtain ⟨b, hb⟩ := Part.stabbed_eq p
  have unmarked : SlotOut.frameMark ∉ (p.completed k).out := by
    unfold Part.completed
    dsimp only
    rw [Job.releaseOthers_eq]
    exact Job.releaseAll_unmarked (by simp) _
  obtain ⟨b', hb'⟩ := Part.deliverSlots_quiet (p := { p.stabbed with slots := (p.completed k).st }) (by rw [hb]; exact hq) unmarked
  refine ⟨b', ?_⟩
  unfold Part.withSlots
  rw [hb', hb]

/-- The READY slots that a frame complete releases (R42 step 5). -/
def SlotManager.readyOthers (m : SlotManager) : List Nat := m.completion.filter fun i => !m.attached i

theorem SlotManager.mem_readyOthers {i : Nat} : i ∈ m.readyOthers ↔ i ∈ m.completion ∧ m.attached i = false := by
  unfold SlotManager.readyOthers
  rw [List.mem_filter, Bool.not_eq_true']

/-- The slot table after a frame complete (R42). -/
theorem Part.completed_st (hk : k ∉ p.slots.completion) :
    let c := p.stab.frame p.map.mx p.map.my p.lens.coord.table p.lens.zoom.pos
    let n := (p.slots.frameCounter + 1) % 4294967296
    ∃ u x, (p.completed k).st =
      { p.slots with
        table := freed p.slots.readyOthers (p.slots.table.set k (.complete ⟨n, c.dx, c.dy, p.lens.zoom.pos, false, false⟩))
        freeOrder := p.slots.freeOrder ++ p.slots.readyOthers
        completion := (p.slots.completion.filter fun i => p.slots.attached i) ++ [k]
        frameCounter := n
        unshown := u
        skips := x } := by
  intro c n
  let m : SlotManager := p.slots.complete k p.lens.zoom.pos c.dx c.dy
  have released : (m.completion.filter fun i => decide (i ≠ k) && !m.attached i) = p.slots.readyOthers := by
    have last : [k].filter (fun i => decide (i ≠ k) && !m.attached i) = [] := by simp
    have others : (p.slots.completion.filter fun i => decide (i ≠ k) && !m.attached i) = p.slots.readyOthers := by
      refine List.filter_congr fun i hi => ?_
      have apart : i ≠ k := fun hik => hk (hik ▸ hi)
      rw [decide_eq_true apart, Bool.true_and]
      rfl
    rw [show m.completion = p.slots.completion ++ [k] from rfl, List.filter_append, last, others, List.append_nil]
  have kept : (p.slots.completion ++ [k]).filter (fun i => decide (i ∉ p.slots.readyOthers)) =
      (p.slots.completion.filter fun i => p.slots.attached i) ++ [k] := by
    have last : [k].filter (fun i => decide (i ∉ p.slots.readyOthers)) = [k] :=
      List.filter_eq_self.2 fun i hi => decide_eq_true fun hm => hk (List.mem_singleton.1 hi ▸ (SlotManager.mem_readyOthers.1 hm).1)
    rw [List.filter_append, last]
    refine congrArg (· ++ [k]) (List.filter_congr fun i hi => ?_)
    cases ha : p.slots.attached i with
    | true =>
      refine decide_eq_true fun hm => ?_
      rw [(SlotManager.mem_readyOthers.1 hm).2] at ha
      cases ha
    | false => exact decide_eq_false fun hn => hn (SlotManager.mem_readyOthers.2 ⟨hi, ha⟩)
  obtain ⟨u, x, after⟩ := Job.releaseAll_st (Job.start m) p.recording p.slots.readyOthers
  refine ⟨u, x, ?_⟩
  have completed : (p.completed k).st = ((Job.start m).releaseAll p.recording p.slots.readyOthers).st := by
    rw [← released]
    rfl
  rw [completed, after, ← kept]
  rfl

end

/-- Settles O16: the slot table, the other blocks' actions, and each of these by itself. -/
theorem frameCompleteActs : Obligations.FrameCompleteActs := by
  refine ⟨?_, fun n t => ?_, ?_, fun i => ?_, fun m => ⟨rfl, RingMonitor.frame_average m⟩, fun c sg b h hz hp => ?_⟩
  · intro s a k o last data enables h hk hsize hlast hlaws hq c n
    have granted := exec_linkGrant_completes h hk (completes_of_lastByte hsize hlast)
    obtain ⟨b, hb⟩ := Part.frameComplete_quiet (p := s.part.linkGranted) hq k
    have fresh : k ∉ s.part.slots.completion := fun hm => by
      obtain ⟨f, hf⟩ := (hlaws.complete k).1 hm
      rw [hk] at hf
      cases hf
    obtain ⟨u, x, slots⟩ := Part.completed_st (p := s.part.linkGranted) fresh
    have unreleased : k ∉ s.part.slots.readyOthers := fun hm => fresh (SlotManager.mem_readyOthers.1 hm).1
    have frame : s.part.linkGranted.frameComplete k = _ := (Part.frameComplete_eq k s.part.linkGranted).trans (by rw [hb, slots])
    have panned := Part.frameComplete_pans (p := s.part.linkGranted) k
    rw [frame] at granted panned
    refine ⟨_, granted, rfl, rfl, rfl, ?_, rfl, fun i hi ha => ?_, fun i hik hi => ?_, rfl, rfl, rfl, rfl, rfl, fun i => ?_, rfl, rfl,
      Bus.status_mem_requestStatus _, rfl, panned⟩
    · exact (freed_of_not_mem unreleased _).trans (List.getElem?_set_self (SlotManager.lt_of_getElem? hk))
    · obtain ⟨f, hf⟩ := (hlaws.complete i).1 hi
      exact freed_of_mem (SlotManager.mem_readyOthers.2 ⟨hi, ha⟩) (by rw [List.length_set]; exact SlotManager.lt_of_getElem? hf)
    · have keeps : i ∉ s.part.slots.readyOthers := fun hm => by
        obtain ⟨hmem, hoff⟩ := SlotManager.mem_readyOthers.1 hm
        obtain h | h := hi
        · exact h hmem
        · rw [hoff] at h
          cases h
      exact (freed_of_not_mem keeps _).trans (List.getElem?_set_ne (Ne.symm hik))
    · exact channelsMap_getElem ..
  · unfold TimecodeUnit.frame
    dsimp only
    refine ⟨rfl, rfl, rfl, rfl, List.getLast?_concat .., ?_⟩
    split_ifs <;> rfl
  · intro r t hv fps v frames passed
    have step := Timecode.increment_valid hv
    have rate : r.fps = fps := by cases r <;> rfl
    rw [← rate]
    exact step
  · refine ⟨⟨rfl, rfl, rfl⟩, fun hlt => ?_, fun hgt => ?_, fun heq => ?_⟩
    · exact if_pos hlt
    · have down : i.frame.duty = max i.target (i.duty - i.step) := (if_neg (by omega)).trans (if_pos hgt)
      rw [down]
      omega
    · have stays : i.frame.duty = i.duty := (if_neg (by omega)).trans (if_neg (by omega))
      rw [stays, heq]
  · have seg := segment_eq hz hp
    exact ⟨seg, by rw [Channel.frame_eq, seg]⟩

end Sys2Proof.Machine

end

section
/-! PROOFS. REC_START and REC_STOP where no clip opens (08 section 8.5): their judgement by the record state, and the take. -/

namespace Sys2Proof.Machine

/-! ### A recording command at its take (R22, R23) -/

section

variable {s : State} {slot : CmdSlot} {kind : Byte} {f : RegionMap → Recorder → RecAnswer} {r : Recorder} {out : List RecOut}
  {v : Verdict} {j : RecWork} {c : CardEngine} {k : OpenClip}

/-- A recording command that is not refused: its work and what the card engine then does by itself are delivered before the
outcome (R23; log 59). -/
theorem State.offered_rec (h : Ready slot s.part) (hv : (f s.part.map s.part.recd).2 = v) (hnr : v.code.refused = false)
    (hf : (f s.part.map s.part.recd).1.pump s.part.map = ⟨r, out⟩) :
    s.offered slot (fun p => p.takeRec slot kind f) =
      .next (s.onPart fun p => (fun q : Part => { q with bus := q.bus.answer slot v 0 })
        (out.foldl Part.deliverRec { p with bus := p.bus.beginTake slot kind, recd := r })) := by
  let p1 : Part := { s.part with bus := s.part.bus.beginTake slot kind }
  have pumped : p1.onRecorder (fun r => (f p1.map r).1) =
      out.foldl Part.deliverRec { p1 with recd := r } := Part.onRecorder_pumped (p := p1) hf
  have carried : p1.onRecCommand (f p1.map) = (out.foldl Part.deliverRec { p1 with recd := r }, v) := by
    rw [Part.onRecCommand_eq, show (f p1.map p1.recd).2 = v from hv, if_neg (by rw [hnr]; exact Bool.false_ne_true), pumped]
  exact State.offered_take (carry := fun p => p.onRecCommand (f p.map)) h carried

/-- One after which the card engine has nothing to do by itself. -/
theorem State.offered_rec_rests (h : Ready slot s.part) (hnr : v.code.refused = false)
    (hf : f s.part.map s.part.recd = (⟨r, out⟩, v)) (hr : r.card.Rests) :
    s.offered slot (fun p => p.takeRec slot kind f) =
      .next (s.onPart fun p => (fun q : Part => { q with bus := q.bus.answer slot v 0 })
        (out.foldl Part.deliverRec { p with bus := p.bus.beginTake slot kind, recd := r })) :=
  State.offered_rec h (by rw [hf]) hnr (by rw [hf]; exact Job.pump_rests (j := ⟨r, out⟩) hr _)

theorem State.offered_rec_refused (h : Ready slot s.part) (hv : (f s.part.map s.part.recd).2 = v) (hr : v.code.refused = true) :
    s.offered slot (fun p => p.takeRec slot kind f) = .next (s.onPart (Part.takenOnly slot kind v)) := by
  let p1 : Part := { s.part with bus := s.part.bus.beginTake slot kind }
  have carried : p1.onRecCommand (f p1.map) = (p1, v) := by
    rw [Part.onRecCommand_eq, show (f p1.map p1.recd).2 = v from hv, if_pos hr]
  exact (State.offered_take (carry := fun p => p.onRecCommand (f p.map)) h carried).trans (congrArg _ (State.onPart_congr rfl))

/-! ### The judgement (R141, R142) -/

variable {map : RegionMap}

theorem Recorder.recStart_ejecting (h : r.card.ejectSlot ≠ none) : r.recStart map slot = (.start r, .refuse .busy) :=
  if_pos (Option.isSome_iff_ne_none.2 h)

theorem Recorder.recStart_free (h : r.card.ejectSlot = none) : r.recStart map slot = (Job.start r).takeStart map (.slot slot) :=
  if_neg (by rw [h]; exact Bool.false_ne_true)

/-- The slot that a start arms with (R141). -/
def StartSource.armSlot : StartSource → Option CmdSlot
  | .slot s => some s
  | .toggle => none

theorem Job.takeStart_idle (source : StartSource) (h : j.st.card.recState = .idle) :
    j.takeStart map source = (j, .refuse j.st.card.state.idleRefusal) := by
  unfold Job.takeStart
  dsimp only
  rw [h]

theorem Job.takeStart_arms (source : StartSource) (h : j.st.card.recState = .standby) (hr : j.st.ring.hasRetained = false) :
    j.takeStart map source = (⟨{ j.st with card := { j.st.card with startSlot := source.armSlot, recState := .armed } },
      j.out ++ [.bus .status, .recState .armed]⟩, .pending) := by
  have arms : j.startFromStandby map source =
      (⟨{ j.st with card := { j.st.card with startSlot := source.armSlot, recState := .armed } },
        j.out ++ [.bus .status, .recState .armed]⟩, false) := by
    have waits : j.startFromStandby map source =
        ((j.card fun c => { c with startSlot := source.armSlot }).setRec .armed, false) := by
      unfold Job.startFromStandby
      rw [hr]
      cases source <;> rfl
    rw [waits, Job.setRec_eq]
    rw [show (j.card fun c => { c with startSlot := source.armSlot }).st.card.recState = .standby from h]
    rfl
  unfold Job.takeStart
  dsimp only
  rw [h]
  dsimp only
  rw [arms]
  rfl

/-- In STANDBY with a RETAINED VIDEO_KEY a start opens a clip (R141). -/
theorem Job.takeStart_opens (source : StartSource) (h : j.st.card.recState = .standby) (hr : j.st.ring.hasRetained = true) :
    j.takeStart map source = (j.startRecording map, .done) := by
  have opens : j.startFromStandby map source = (j.startRecording map, true) := if_pos hr
  unfold Job.takeStart
  dsimp only
  rw [h]
  dsimp only
  rw [opens, if_pos rfl]

theorem Job.takeStart_going (source : StartSource) (h : j.st.card.recState = .armed ∨ j.st.card.recState = .recording) :
    j.takeStart map source = (j, .done) := by
  unfold Job.takeStart
  obtain h | h := h <;> (dsimp only; rw [h])

theorem Job.takeStart_pends (source : StartSource) (h : j.st.card.recState = .stopping ∨ j.st.card.recState = .closing)
    (hp : j.st.card.pendingStart = none) :
    j.takeStart map source = (j.card fun c => { c with pendingStart := some source }, .pending) := by
  unfold Job.takeStart
  obtain h | h := h <;> (dsimp only; rw [h, hp]; rfl)

theorem Job.takeStart_waits (source : StartSource) (h : j.st.card.recState = .stopping ∨ j.st.card.recState = .closing)
    (hp : j.st.card.pendingStart ≠ none) : j.takeStart map source = (j, .done) := by
  have waits : j.st.card.pendingStart.isSome = true := Option.isSome_iff_ne_none.2 hp
  unfold Job.takeStart
  obtain h | h := h <;> (dsimp only; rw [h]; exact if_pos waits)

theorem Job.takeStop_none (stop : Option CmdSlot) (h : j.st.card.recState = .idle ∨ j.st.card.recState = .standby) :
    j.takeStop stop = (j, .done) := by
  unfold Job.takeStop
  obtain h | h := h <;> rw [h]

theorem Job.takeStop_disarms (stop : Option CmdSlot) (h : j.st.card.recState = .armed) :
    j.takeStop stop = (⟨{ j.st with card := { j.st.card with recState := .standby, startSlot := none } },
      j.out ++ [.bus .status, .recState .standby] ++ slotEnd j.st.card.startSlot .aborted 0⟩, .done) := by
  unfold Job.takeStop
  rw [h]
  dsimp only
  rw [Job.endStart_eq, Job.setRec_eq, h]
  rfl

theorem Job.takeStop_stops (stop : Option CmdSlot) (h : j.st.card.recState = .recording) :
    j.takeStop stop = (⟨{ j.st with card := { j.st.card with recState := .stopping, stopSlot := stop } },
      j.out ++ [.bus .status, .recState .stopping, .bus (.raise .recStopped)]⟩, .pending) := by
  unfold Job.takeStop
  rw [h]
  dsimp only
  rw [Job.setRec_eq, h]
  rfl

theorem Job.takeStop_drops (stop : Option CmdSlot) (h : j.st.card.recState = .stopping ∨ j.st.card.recState = .closing) :
    j.takeStop stop = (⟨{ j.st with card := { j.st.card with pendingStart := none } },
      j.out ++ slotEnd j.st.card.pendingSlot .aborted 0⟩, .done) := by
  unfold Job.takeStop
  obtain h | h := h <;> (rw [h]; exact congrArg (·, Verdict.done) (Job.dropPendingStart_eq ..))

end

/-- What a start refused in IDLE is answered (R141). -/
theorem CardState.idleRefusal_eq (c : CardState) :
    c.idleRefusal = match c with
      | .writeProtected => .cardProtected
      | .full => .cardFull
      | _ => .noCard := by cases c <;> rfl

/-- The first part of O42: the takes of REC_START and REC_STOP by which no clip opens. -/
theorem recCommands_byState {slot : CmdSlot} {s : State} (hready : Ready slot s.part) :
    let c := s.part.recd.card
    let quiet := s.part.lens.zoom.quiet
    let took (kind : Byte) (asked : List Out) (v : Verdict) (f : CardEngine → CardEngine) (quiet : Bool) :
        Host.Outcome State Fault Refusal := .next (s.onPart fun p =>
      { p.afterTake slot kind asked v with
        recd := { p.recd with card := f p.recd.card }
        lens := { p.lens with zoom := { p.lens.zoom with quiet := quiet } } })
    (c.ejectSlot ≠ none →
      exec (.recStart slot) s = .next (s.onPart (Part.takenOnly slot 0x31 (.refuse .busy)))) ∧
    (c.ejectSlot = none → c.recState = .idle →
      exec (.recStart slot) s = .next (s.onPart (Part.takenOnly slot 0x31 (.refuse (match c.state with
        | .writeProtected => .cardProtected
        | .full => .cardFull
        | _ => .noCard))))) ∧
    (c.Quiet →
      (c.ejectSlot = none →
        (c.recState = .standby → s.part.recd.ring.hasRetained = false → exec (.recStart slot) s =
          took 0x31 [.status] .pending (fun c => { c with recState := .armed, startSlot := some slot }) true) ∧
        (c.recState = .armed → exec (.recStart slot) s = took 0x31 [] .done id quiet)) ∧
      (c.recState = .idle ∨ c.recState = .standby → exec (.recStop slot) s = took 0x32 [] .done id quiet) ∧
      (c.recState = .armed →
        (c.startSlot = none → exec (.recStop slot) s =
          took 0x32 [.status] .done (fun c => { c with recState := .standby }) false) ∧
        ∀ k, c.startSlot = some k → exec (.recStop slot) s =
          took 0x32 [.status, .finish k .aborted 0] .done
            (fun c => { c with recState := .standby, startSlot := none }) false)) ∧
    ∀ k : OpenClip, c.Waits k →
      (c.recState = .recording →
        (c.ejectSlot = none → exec (.recStart slot) s = took 0x31 [] .done id quiet) ∧
        exec (.recStop slot) s = took 0x32 [.status, .raise .recStopped] .pending
          (fun c => { c with recState := .stopping, stopSlot := some slot }) true) ∧
      (c.recState = .stopping ∨ c.recState = .closing →
        (c.ejectSlot = none →
          (c.pendingStart = none → exec (.recStart slot) s =
            took 0x31 [] .pending (fun c => { c with pendingStart := some (.slot slot) }) quiet) ∧
          (c.pendingStart ≠ none → exec (.recStart slot) s = took 0x31 [] .done id quiet)) ∧
        (c.pendingStart = none ∨ c.pendingStart = some .toggle → exec (.recStop slot) s =
          took 0x32 [] .done (fun c => { c with pendingStart := none }) quiet) ∧
        ∀ n, c.pendingStart = some (.slot n) → exec (.recStop slot) s =
          took 0x32 [.finish n .aborted 0] .done (fun c => { c with pendingStart := none }) quiet) := by
  intro c quiet took
  have started {r : Recorder} {out : List RecOut} {v : Verdict} (he : c.ejectSlot = none)
      (hf : (Job.start s.part.recd).takeStart s.part.map (.slot slot) = (⟨r, out⟩, v)) (hnr : v.code.refused = false)
      (hr : r.card.Rests) : exec (.recStart slot) s =
        .next (s.onPart fun p => (fun q : Part => { q with bus := q.bus.answer slot v 0 })
          (out.foldl Part.deliverRec { p with bus := p.bus.beginTake slot 0x31, recd := r })) :=
    State.offered_rec_rests hready hnr ((Recorder.recStart_free he).trans hf) hr
  have stopped {r : Recorder} {out : List RecOut} {v : Verdict}
      (hf : (Job.start s.part.recd).takeStop (some slot) = (⟨r, out⟩, v)) (hnr : v.code.refused = false)
      (hr : r.card.Rests) : exec (.recStop slot) s =
        .next (s.onPart fun p => (fun q : Part => { q with bus := q.bus.answer slot v 0 })
          (out.foldl Part.deliverRec { p with bus := p.bus.beginTake slot 0x32, recd := r })) :=
    State.offered_rec_rests (f := fun _ => Recorder.recStop slot) hready hnr hf hr
  refine ⟨fun he => ?_, fun he hi => ?_, fun hq => ⟨fun he => ⟨fun hs hr => ?_, fun ha => ?_⟩, fun hi => ?_,
    fun ha => ⟨fun hs => ?_, fun k hs => ?_⟩⟩, fun k hw => ⟨fun hr => ⟨fun he => ?_, ?_⟩,
    fun hc => ⟨fun he => ⟨fun hp => ?_, fun hp => ?_⟩, fun hp => ?_, fun n hp => ?_⟩⟩⟩
  · exact State.offered_rec_refused (f := fun m => Recorder.recStart m slot) hready (congrArg Prod.snd (Recorder.recStart_ejecting he)) rfl
  · have judged : (s.part.recd.recStart s.part.map slot).2 = .refuse c.state.idleRefusal := by
      rw [Recorder.recStart_free he, Job.takeStart_idle _ hi]
      rfl
    have refused : (Verdict.refuse c.state.idleRefusal).code.refused = true := by cases c.state <;> rfl
    rw [← CardState.idleRefusal_eq]
    exact State.offered_rec_refused (f := fun m => Recorder.recStart m slot) hready judged refused
  · exact (started he (Job.takeStart_arms (.slot slot) hs hr) rfl (.inl hq)).trans (congrArg _ (State.onPart_congr rfl))
  · exact (started he (Job.takeStart_going _ (.inl ha)) rfl (.inl hq)).trans (congrArg _ (State.onPart_congr rfl))
  · exact (stopped (Job.takeStop_none _ hi) rfl (.inl hq)).trans (congrArg _ (State.onPart_congr rfl))
  · have disarmed := Job.takeStop_disarms (j := Job.start s.part.recd) (some slot) ha
    have hs : (Job.start s.part.recd : RecWork).st.card.startSlot = none := hs
    have unset : ({ s.part.recd.card with recState := .standby, startSlot := none } : CardEngine) =
        { s.part.recd.card with recState := .standby } := by rw [← show c.startSlot = none from hs]
    have taken := stopped disarmed rfl (.inl hq)
    rw [show (Job.start s.part.recd : RecWork).st.card = s.part.recd.card from rfl, unset,
      show s.part.recd.card.startSlot = none from hs] at taken
    exact taken.trans (congrArg _ (State.onPart_congr rfl))
  · have disarmed := Job.takeStop_disarms (j := Job.start s.part.recd) (some slot) ha
    rw [show (Job.start s.part.recd : RecWork).st.card.startSlot = some k from hs] at disarmed
    exact (stopped disarmed rfl (.inl hq)).trans (congrArg _ (State.onPart_congr rfl))
  · exact (started he (Job.takeStart_going _ (.inr hr)) rfl (.inr ⟨k, hw⟩)).trans (congrArg _ (State.onPart_congr rfl))
  · exact (stopped (Job.takeStop_stops _ hr) rfl (.inr ⟨k, hw.stops hr⟩)).trans (congrArg _ (State.onPart_congr rfl))
  · exact (started he (Job.takeStart_pends (.slot slot) hc hp) rfl (.inr ⟨k, hw⟩)).trans (congrArg _ (State.onPart_congr rfl))
  · exact (started he (Job.takeStart_waits _ hc hp) rfl (.inr ⟨k, hw⟩)).trans (congrArg _ (State.onPart_congr rfl))
  · have dropped := Job.takeStop_drops (j := Job.start s.part.recd) (some slot) hc
    have none : (Job.start s.part.recd : RecWork).st.card.pendingSlot = none := by
      unfold CardEngine.pendingSlot
      obtain h | h := hp <;> rw [show (Job.start s.part.recd : RecWork).st.card.pendingStart = _ from h]
    rw [none] at dropped
    exact (stopped dropped rfl (.inr ⟨k, hw⟩)).trans (congrArg _ (State.onPart_congr rfl))
  · have dropped := Job.takeStop_drops (j := Job.start s.part.recd) (some slot) hc
    have named : (Job.start s.part.recd : RecWork).st.card.pendingSlot = some n := by
      unfold CardEngine.pendingSlot
      rw [show (Job.start s.part.recd : RecWork).st.card.pendingStart = _ from hp]
    rw [named] at dropped
    exact (stopped dropped rfl (.inr ⟨k, hw⟩)).trans (congrArg _ (State.onPart_congr rfl))

end Sys2Proof.Machine

end

section
/-! PROOFS. A clip that opens (08 section 8.5): its directory work, the joining of the RETAINED entries, and REC_START and REC_STOP
with a clip. -/

namespace Sys2Proof.Machine

/-! ### The directory work of the card engine (R136, R144) -/

section

variable {j k l : RecWork} {map : RegionMap}

/-- The recording side's work has gone on by mirror writes and units alone: the mirror, the free units, the open clip record, opened as
before, and demands on the bus. -/
def Job.Directs (j k : RecWork) : Prop :=
  ∃ m n free clip, ∃ asked : List Out, k = ⟨{ j.st with card :=
      { j.st.card with mirror := m, mirrorWrites := n, freeUnits := free, clip := clip } }, j.out ++ asked.map RecOut.bus⟩ ∧
    clip.map OpenClip.opened = j.st.card.clip.map OpenClip.opened

namespace Job.Directs

theorem refl (j : RecWork) : j.Directs j := ⟨_, _, _, _, [], by rw [List.map_nil, List.append_nil], rfl⟩

theorem trans (h : j.Directs k) (h' : k.Directs l) : j.Directs l := by
  obtain ⟨m, n, free, clip, asked, rfl, opened⟩ := h
  obtain ⟨m', n', free', clip', asked', rfl, opened'⟩ := h'
  exact ⟨m', n', free', clip', asked ++ asked', by rw [List.map_append, List.append_assoc], opened'.trans opened⟩

theorem mirrorPut (j : RecWork) (map : RegionMap) (a : Nat) (bytes : List Byte) : j.Directs (j.mirrorPut map a bytes) := by
  unfold Job.mirrorPut
  split
  · exact .refl j
  · exact ⟨_, _, _, _, [_], rfl, rfl⟩

theorem foldl {α : Type} {f : RecWork → α → RecWork} (h : ∀ (j : RecWork) x, j.Directs (f j x)) (xs : List α) (j : RecWork) :
    j.Directs (xs.foldl f j) := by
  induction xs generalizing j with
  | nil => exact .refl j
  | cons x xs ih => exact (h j x).trans (ih _)

theorem tidyDirectory (j : RecWork) (map : RegionMap) : j.Directs (j.tidyDirectory map) := by
  unfold Job.tidyDirectory Job.tidyMap Job.tidyEntries Job.tidyHeader Job.setMap
  exact ((mirrorPut ..).trans (foldl (fun j _ => mirrorPut ..) _ _)).trans ((mirrorPut ..).trans (mirrorPut ..))

theorem allocate (j : RecWork) (map : RegionMap) (relocated : Bool) : j.Directs (j.allocate map relocated).1 := by
  unfold Job.allocate
  split
  next u c _ _ =>
    have chained : (j.setMap map u mapEnd).Directs
        (match c.chain.getLast? with
          | some last => (j.setMap map u mapEnd).setMap map last u
          | none => j.setMap map u mapEnd) := by
      split
      · exact mirrorPut ..
      · exact .refl _
    have counted (j : RecWork) (f : OpenClip → OpenClip) (hf : ∀ c, (f c).opened = c.opened) :
        j.Directs ((j.card fun k => { k with freeUnits := k.freeUnits - 1 }).clip f) :=
      ⟨_, _, _, _, [], by rw [List.map_nil, List.append_nil]; rfl, by
        rw [Option.map_map]
        exact congrArg (Option.map · j.st.card.clip) (funext hf)⟩
    exact ((mirrorPut ..).trans chained).trans (counted _ _ fun _ => rfl)
  next => exact .refl j

end Job.Directs

/-- What opening a clip changes and hands over (R144). -/
theorem Job.openClip_eq (j : RecWork) (map : RegionMap) : ∃ m n free clip, ∃ asked : List Out,
    j.openClip map = ⟨{ j.st with card :=
        { j.st.card with
          mirror := m
          mirrorWrites := n
          freeUnits := free
          clip := clip
          clipNumber := j.st.card.image.readNat 0x10 2
          dirJobs := j.st.card.dirJobs ++ [⟨.opening, 0, 25, [], false⟩] } }, j.out ++ asked.map RecOut.bus⟩ ∧
      clip.map OpenClip.opened = some false := by
  unfold Job.openClip
  extract_lets c number entry j1 j2 j3 j4
  have entered : j3.Directs j4 := by
    unfold j4
    split
    · exact .mirrorPut ..
    · exact .refl _
  obtain ⟨m, n, free, clip, asked, worked, opened⟩ :=
    (((Job.Directs.mirrorPut j1 map _ _).trans (.allocate j2 map false)).trans entered).trans (.tidyDirectory j4 map)
  rw [worked]
  exact ⟨m, n, free, clip, asked, rfl, opened⟩

/-! ### The RETAINED entries join (R125, R127) -/

theorem Recorder.formStamp_eq (e : QueueEntry) (r : Recorder) :
    ∃ t v, (r.formStamp e).2 = { r with tc := t, ring := { r.ring with lastVideo := v } } := by
  unfold Recorder.formStamp
  dsimp only
  split
  · exact ⟨_, _, rfl⟩
  · split
    · exact ⟨_, _, rfl⟩
    · exact ⟨_, _, rfl⟩

/-- The stamp write of an entry that joins. -/
def QueueEntry.stampWrite (map : RegionMap) (e : QueueEntry) (s : Stamp) : PartReq :=
  .stamp e.number (map.ringBase + e.offset) s.timecode s.rateMode s.estimated e.overwritten

theorem Job.stampEntry_eq (j : RecWork) (map : RegionMap) (e : QueueEntry) : ∃ t v s joined,
    j.stampEntry map e = ⟨{ j.st with tc := t, ring := { j.st.ring with
        lastVideo := v
        queue := j.st.ring.queue.map fun x => if x.number = e.number then joined else x } },
      j.out ++ [.bus (.request (e.stampWrite map s))]⟩ ∧ joined.state = .joined := by
  obtain ⟨t, v, formed⟩ := Recorder.formStamp_eq e j.st
  unfold Job.stampEntry
  dsimp only
  rw [formed]
  exact ⟨t, v, (j.st.formStamp e).1,
    { e with state := .joined, stamp := some (j.st.formStamp e).1, stampsWaiting := e.stampsWaiting + 1 }, rfl, rfl⟩

theorem Job.stampEntries_eq (es : List QueueEntry) (j : RecWork) (map : RegionMap) : ∃ t v q, ∃ stamps : List PartReq,
    es.foldl (fun j e => j.stampEntry map e) j = ⟨{ j.st with tc := t, ring := { j.st.ring with lastVideo := v, queue := q } },
      j.out ++ stamps.map fun r => .bus (.request r)⟩ ∧
    q.length = j.st.ring.queue.length ∧
    (∀ x ∈ q, x.state = .retained → x ∈ j.st.ring.queue ∧ ∀ e ∈ es, x.number ≠ e.number) ∧
    ∀ e ∈ es, ∃ s, e.stampWrite map s ∈ stamps := by
  induction es generalizing j with
  | nil => exact ⟨_, _, _, [], by rw [List.map_nil, List.append_nil]; rfl, rfl, fun x hx _ => ⟨hx, nofun⟩, nofun⟩
  | cons e es ih =>
    obtain ⟨t, v, s, joined, entered, hj⟩ := Job.stampEntry_eq j map e
    obtain ⟨t', v', q, stamps, rest, length, left, written⟩ := ih (j.stampEntry map e)
    rw [entered] at rest length left
    refine ⟨t', v', q, e.stampWrite map s :: stamps, ?_, length.trans (List.length_map _), fun x hx hr => ?_, fun x hx => ?_⟩
    · rw [List.foldl_cons, entered, rest, List.map_cons, List.append_assoc]
      rfl
    · obtain ⟨hold, apart⟩ := left x hx hr
      obtain ⟨y, hy, hxy⟩ := List.mem_map.1 hold
      by_cases hn : y.number = e.number
      · rw [if_pos hn] at hxy
        rw [← hxy, hj] at hr
        cases hr
      · rw [if_neg hn] at hxy
        rw [← hxy] at apart ⊢
        exact ⟨hy, List.forall_mem_cons.2 ⟨hn, apart⟩⟩
    · obtain rfl | hx := List.mem_cons.1 hx
      · exact ⟨s, List.mem_cons_self ..⟩
      · obtain ⟨s', hs'⟩ := written x hx
        exact ⟨s', List.mem_cons_of_mem _ hs'⟩

/-- Every RETAINED entry joins, each with its stamp write requested (R125, R127). -/
theorem Job.joinRetained_eq (j : RecWork) (map : RegionMap) : ∃ t v q, ∃ stamps : List PartReq,
    j.joinRetained map = ⟨{ j.st with tc := t, ring := { j.st.ring with lastVideo := v, queue := q } },
      j.out ++ stamps.map fun r => .bus (.request r)⟩ ∧
    q.length = j.st.ring.queue.length ∧ (∀ x ∈ q, x.state ≠ .retained) ∧
    ∀ e ∈ j.st.ring.queue, e.state = .retained → ∃ s, e.stampWrite map s ∈ stamps := by
  have listed {e : QueueEntry} (he : e ∈ j.st.ring.queue) (hr : e.state = .retained) :
      e ∈ j.st.ring.queue.filter QueueEntry.isRetained := List.mem_filter.2 ⟨he, decide_eq_true hr⟩
  obtain ⟨t, v, q, stamps, joined, length, left, written⟩ :=
    Job.stampEntries_eq (j.st.ring.queue.filter QueueEntry.isRetained) j map
  refine ⟨t, v, q, stamps, joined, length, fun x hx hr => ?_, fun e he hr => written e (listed he hr)⟩
  obtain ⟨hold, apart⟩ := left x hx hr
  exact apart x (listed hold hr) rfl

/-! ### The card engine by itself while its clip reads nothing -/

theorem Job.stopProgress_going (h : j.st.card.recState ≠ .stopping) (map : RegionMap) : j.stopProgress map = j := by
  unfold Job.stopProgress
  split
  · rfl
  · rw [decide_eq_false h, Bool.false_and, Bool.false_and, Bool.false_and, if_neg Bool.false_ne_true]

theorem Job.makeRequest_unchunked (h : j.requestChunk map = j) :
    ∃ r, j.makeRequest map = j.card fun c => { c with request := r } := by
  unfold Job.makeRequest
  dsimp only
  rw [h]
  split
  · exact ⟨j.st.card.request, rfl⟩
  · split
    · split
      · split
        · exact ⟨_, rfl⟩
        · exact ⟨j.st.card.request, rfl⟩
      · exact ⟨j.st.card.request, rfl⟩
    · exact ⟨j.st.card.request, rfl⟩

variable {c : OpenClip}

/-- A clip whose opening WRITE has not answered reads no chunk bytes and takes no further unit. -/
theorem Job.pump_unopened (h : j.st.card.recState ≠ .stopping) (hc : j.st.card.clip = some c) (ho : c.opened = false)
    (map : RegionMap) : ∃ r m f a b, j.pump map = j.card fun c => c.busied r m f a b := by
  have unit : j.nextUnit map = j := by
    unfold Job.nextUnit
    split
    next hx _ =>
      obtain rfl := Option.some.inj (hc.symm.trans hx)
      rw [ho, Bool.false_and, Bool.false_and, if_neg Bool.false_ne_true]
    next => rfl
  have chunk : j.requestChunk map = j := by
    unfold Job.requestChunk
    split
    next hx _ =>
      obtain rfl := Option.some.inj (hc.symm.trans hx)
      rw [ho, Bool.false_and, Bool.false_and, Bool.false_and, if_neg Bool.false_ne_true]
    next => rfl
  obtain ⟨r, hr⟩ := Job.makeRequest_unchunked chunk
  obtain ⟨m, f, a, b, hi⟩ := Job.issue_frame (j.makeRequest map)
  unfold Job.pump
  rw [Job.stopProgress_going h, unit, hi, hr]
  exact ⟨r, m, f, a, b, rfl⟩

/-- With a CARD request waiting and a unit that is live the card engine only issues card commands. -/
theorem Job.pump_requested (hr : j.st.card.request ≠ none) (hc : j.st.card.clip = some c) (hl : c.live = true) (map : RegionMap) :
    ∃ m f a b, j.pump map = j.card fun c => c.busied c.request m f a b := by
  have waits : j.st.card.request.isNone = false := by
    cases h : j.st.card.request with
    | none => exact absurd h hr
    | some r => rfl
  have stops : j.stopProgress map = j := by
    unfold Job.stopProgress
    split
    · rfl
    · rw [waits, Bool.and_false, Bool.false_and, if_neg Bool.false_ne_true]
  have unit : j.nextUnit map = j := by
    unfold Job.nextUnit
    split
    next hx _ =>
      obtain rfl := Option.some.inj (hc.symm.trans hx)
      rw [hl, Bool.not_true, Bool.and_false, Bool.false_and, if_neg Bool.false_ne_true]
    next => rfl
  have request : j.makeRequest map = j := by
    unfold Job.makeRequest
    exact if_pos (Option.isSome_iff_ne_none.2 hr)
  unfold Job.pump
  rw [stops, unit, request]
  exact Job.issue_frame j

end

/-! ### What reaches the bus -/

theorem Part.deliverAll_bus (asked : List Out) (p : Part) :
    (asked.map RecOut.bus).foldl Part.deliverRec p = { p with bus := p.bus.meetAll asked } := by
  induction asked generalizing p with
  | nil => rfl
  | cons o asked ih => exact ih _

theorem Part.deliverAll_requests (rs : List PartReq) (p : Part) :
    (rs.map fun r => RecOut.bus (.request r)).foldl Part.deliverRec p =
      { p with bus := { p.bus with partQ := p.bus.partQ ++ rs } } := by
  induction rs generalizing p with
  | nil => rw [List.append_nil]; rfl
  | cons r rs ih =>
    refine (ih _).trans ?_
    change ({ p with bus := { p.bus with partQ := (p.bus.partQ ++ [r]) ++ rs } } : Part) = _
    rw [List.append_assoc]
    rfl

end Sys2Proof.Machine

end

section
/-! PROOFS. REC_START and REC_STOP (08 section 8.5). -/

namespace Sys2Proof.Machine

section

variable {j : RecWork} {map : RegionMap} {p : Part}

/-- The change into RECORDING: a clip opens, the record state changes, and every RETAINED entry joins (R125, R137, R144). -/
theorem Job.startRecording_eq (j : RecWork) (map : RegionMap) :
    ∃ m n free clip t v q, ∃ asked : List Out, ∃ stamps : List PartReq,
    j.startRecording map = ⟨{
        ring := { j.st.ring with lastVideo := v, queue := q }
        card := { j.st.card with
          mirror := m
          mirrorWrites := n
          freeUnits := free
          clip := some clip
          clipNumber := j.st.card.image.readNat 0x10 2
          dirJobs := j.st.card.dirJobs ++ [⟨.opening, 0, 25, [], false⟩]
          recState := .recording }
        tc := t },
      j.out ++ asked.map RecOut.bus ++ recChange j.st.card.recState .recording ++ stamps.map fun r => .bus (.request r)⟩ ∧
    clip.opened = false ∧ q.length = j.st.ring.queue.length ∧ (∀ x ∈ q, x.state ≠ .retained) ∧
    ∀ e ∈ j.st.ring.queue, e.state = .retained → ∃ s, e.stampWrite map s ∈ stamps := by
  obtain ⟨m, n, free, clip, asked, opens, opened⟩ := Job.openClip_eq j map
  cases clip with
  | none => cases opened
  | some clip =>
    obtain ⟨t, v, q, stamps, joined, length, left, written⟩ := Job.joinRetained_eq ((j.openClip map).setRec .recording) map
    unfold Job.startRecording
    rw [joined]
    rw [Job.setRec_eq, opens] at length written ⊢
    exact ⟨m, n, free, clip, t, v, q, asked, stamps, rfl, Option.some.inj opened, length, left, written⟩

theorem Part.deliverAll_recChange (hz : p.lens.zoom.pendingMove = none) (hf : p.lens.focus.pendingMove = none) :
    (recChange .standby .recording).foldl Part.deliverRec p =
      { p with bus := p.bus.meetAll [.status, .raise .recStarted], lens := p.lens.recordState .recording } := by
  have marked : (Job.start (p.lens.recordState .recording)).mark .recStarted = Job.start (p.lens.recordState .recording) :=
    Job.mark_none (j := Job.start (p.lens.recordState .recording)) hz hf _
  change Part.lensJob (fun j => j.mark .recStarted)
    { p with bus := p.bus.meetAll [.status, .raise .recStarted], lens := p.lens.recordState .recording } = _
  unfold Part.lensJob
  dsimp only
  rw [marked]
  rfl

/-- The change into RECORDING delivered while no move waits: its demands on the bus, the zoom's quiet flag, and the stamp writes at
the end of the PART class (R107, R127, R137). -/
theorem Part.deliverAll_recording (hz : p.lens.zoom.pendingMove = none) (hf : p.lens.focus.pendingMove = none) (asked : List Out)
    (stamps : List PartReq) :
    (asked.map RecOut.bus ++ recChange .standby .recording ++ stamps.map fun r => RecOut.bus (.request r)).foldl Part.deliverRec p =
      { p with
        bus := { (p.bus.meetAll asked).meetAll [.status, .raise .recStarted] with
          partQ := ((p.bus.meetAll asked).meetAll [.status, .raise .recStarted]).partQ ++ stamps }
        lens := p.lens.recordState .recording } := by
  rw [List.foldl_append, List.foldl_append, Part.deliverAll_bus,
    Part.deliverAll_recChange (p := { p with bus := p.bus.meetAll asked }) hz hf, Part.deliverAll_requests]

theorem Bus.answer_shows {b : Bus} {f : Factor} (h : b.Shows f) (slot : CmdSlot) (v : Verdict) (ack : Word) :
    (b.answer slot v ack).Shows f := h

end

/-- A REC_START in STANDBY that opens a clip (R141, R144). -/
theorem recStart_opens {slot : CmdSlot} {s : State} (hready : Ready slot s.part)
    (hs : s.part.recd.card.recState = .standby) (he : s.part.recd.card.ejectSlot = none)
    (hr : s.part.recd.ring.hasRetained = true) (hz : s.part.lens.zoom.pendingMove = none)
    (hf : s.part.lens.focus.pendingMove = none) :
    ∃ t, exec (.recStart slot) s = .next t ∧ t.mem = s.mem ∧ t.part.recd.card.recState = .recording ∧
      t.part.bus.cmd.slots[slot].last = .done ∧ t.part.recd.card.clip ≠ none ∧
      t.part.recd.card.clipNumber = s.part.recd.card.image.readNat 0x10 2 ∧
      t.part.bus.report.pending &&& Factor.recStarted.bit ≠ 0 ∧ t.part.lens.zoom.quiet = true ∧
      t.part.recd.ring.queue.length = s.part.recd.ring.queue.length ∧
      (∀ e ∈ t.part.recd.ring.queue, e.state ≠ .retained) ∧
      (∀ e ∈ s.part.recd.ring.queue, e.state = .retained → ∃ q ∈ t.part.bus.partQ, ∃ tc rm est,
        q = .stamp e.number (s.part.map.ringBase + e.offset) tc rm est e.overwritten) := by
  obtain ⟨m, n, free, clip, t, v, q, asked, stamps, opens, unopened, length, left, written⟩ :=
    Job.startRecording_eq (Job.start s.part.recd) s.part.map
  have judged : s.part.recd.recStart s.part.map slot = ((Job.start s.part.recd).startRecording s.part.map, .done) :=
    (Recorder.recStart_free he).trans (Job.takeStart_opens _ hs hr)
  obtain ⟨r, pumped, recState, hasClip, number, queue⟩ : ∃ r : Recorder,
      ((Job.start s.part.recd).startRecording s.part.map).pump s.part.map = ⟨r, asked.map RecOut.bus ++
        recChange .standby .recording ++ stamps.map fun r => RecOut.bus (.request r)⟩ ∧
      r.card.recState = .recording ∧ r.card.clip = some clip ∧
      r.card.clipNumber = s.part.recd.card.image.readNat 0x10 2 ∧ r.ring.queue = q := by
    have recording : ((Job.start s.part.recd).startRecording s.part.map).st.card.recState ≠ .stopping :=
      ne_of_eq_of_ne (congrArg (·.st.card.recState) opens) RecState.noConfusion
    obtain ⟨request, mount, inFlight, a, b, pumped⟩ :=
      Job.pump_unopened (j := (Job.start s.part.recd).startRecording s.part.map) (c := clip)
        recording (congrArg (·.st.card.clip) opens) unopened s.part.map
    rw [pumped, opens, show (Job.start s.part.recd : RecWork).st.card.recState = .standby from hs]
    exact ⟨_, rfl, rfl, rfl, rfl, rfl⟩
  rw [← show (s.part.recd.recStart s.part.map slot).1 = (Job.start s.part.recd).startRecording s.part.map from
    by rw [judged]] at pumped
  have taken : exec (.recStart slot) s = _ := State.offered_rec (kind := 0x31) (f := fun m => Recorder.recStart m slot)
    (v := .done) hready (by rw [judged]) rfl pumped
  have started := Part.deliverAll_recording
    (p := { s.part with bus := s.part.bus.beginTake slot 0x31, recd := r }) hz hf asked stamps
  have shown : ((((s.part.bus.beginTake slot 0x31).meetAll asked).meetAll [.status, .raise .recStarted]).Shows .recStarted) :=
    Bus.shows_raise .recStarted _
  have stamped {x : PartReq} (h : x ∈ stamps) (b : Bus) :
      x ∈ (({ b with partQ := b.partQ ++ stamps } : Bus).answer slot .done 0).partQ :=
    Bus.mem_partQ_answer (List.mem_append_right _ h) ..
  refine ⟨_, taken, rfl, ?_⟩
  dsimp only [State.onPart]
  rw [started]
  rw [queue, recState, hasClip, number]
  refine ⟨rfl, Bus.answer_last .., nofun, rfl, Bus.answer_shows shown slot .done 0, rfl, length, left, fun e he hr => ?_⟩
  obtain ⟨st, hst⟩ := written e he hr
  exact ⟨_, stamped hst _, _, _, _, rfl⟩

/-- A REC_STOP in RECORDING, with a CARD request waiting (R142). -/
theorem recStop_stops {slot : CmdSlot} {s : State} {k : OpenClip} (hready : Ready slot s.part)
    (hr : s.part.recd.card.recState = .recording) (hq : s.part.recd.card.request ≠ none)
    (hc : s.part.recd.card.clip = some k) (hl : k.live = true) :
    ∃ t, exec (.recStop slot) s = .next t ∧ t.mem = s.mem ∧ t.part.recd.card.recState = .stopping ∧
      t.part.recd.card.stopSlot = some slot ∧ t.part.bus.cmd.slots[slot].last = .pending ∧
      t.part.bus.report.pending &&& Factor.recStopped.bit ≠ 0 ∧ t.part.recd.ring.queue = s.part.recd.ring.queue := by
  have judged := Job.takeStop_stops (j := Job.start s.part.recd) (some slot) hr
  obtain ⟨mount, inFlight, a, b, pumped⟩ := Job.pump_requested
    (j := ⟨{ s.part.recd with card := { s.part.recd.card with recState := .stopping, stopSlot := some slot } },
      [.bus .status, .recState .stopping, .bus (.raise .recStopped)]⟩) hq hc hl s.part.map
  have taken := State.offered_rec (kind := 0x32) (f := fun _ r => Recorder.recStop slot r) hready (congrArg Prod.snd judged) rfl
    ((congrArg (fun a : RecAnswer => a.1.pump s.part.map) judged).trans pumped)
  have raised : RecOut.bus (.raise .recStopped) ∈ [.bus .status, .recState .stopping, RecOut.bus (.raise .recStopped)] :=
    List.mem_of_getLast? rfl
  refine ⟨_, taken, rfl, ?_⟩
  dsimp only [State.onPart]
  refine ⟨?_, ?_, Bus.answer_last .., Bus.answer_shows (f := .recStopped) (Part.deliverAll_raised raised _) slot .pending 0, ?_⟩
  · rw [Part.deliverAll_recd]; rfl
  · rw [Part.deliverAll_recd]; rfl
  · rw [Part.deliverAll_recd]

/-- Settles O42, by the record state: each judgement is an equation of its own, and an opening clip's work is delivered in order. -/
theorem recCommandsActByTheRecordState : Obligations.RecCommandsActByTheRecordState := by
  unfold Obligations.RecCommandsActByTheRecordState
  refine ⟨fun slot s hready => recCommands_byState hready, fun slot s hready =>
    ⟨fun hs he hr _ hz hf => recStart_opens hready hs he hr hz hf, fun k hr hq hc hl => recStop_stops hready hr hq hc hl⟩⟩

end Sys2Proof.Machine

end

section
/-! PROOFS. How the card engine's commands end (08 sections 8.3, 8.4, 8.8, 8.9): the outcomes that reach their slots, the answers to a
directory WRITE, a fault, and the end of a close. -/

namespace Sys2Proof.Machine

/-! ### The outcomes that reach the slots (R24) -/

section

variable {b : Bus} {p : Part} {k : CmdSlot} {code : OutcomeCode} {out : List RecOut}

/-- A part of the recording side's work that ends commands with this outcome code alone. -/
def RecOut.Ends (code : OutcomeCode) : RecOut → Prop
  | .bus (.finish _ c _) => c = code
  | .bus _ => True
  | .recState _ => True
  | .recStarted => False

theorem Bus.answer_slot_other {slot : CmdSlot} (h : k ≠ slot) (v : Verdict) (ack : Word) (b : Bus) :
    (b.answer slot v ack).cmd.slots[k] = b.cmd.slots[k] := by
  have apart : (slot : Nat) ≠ k := fun he => h (Fin.ext he.symm)
  simp [Bus.answer, Bus.request, apart]

theorem Part.last_deliverRec {o : RecOut} (ho : o.Ends code) (h : p.bus.cmd.slots[k].last = code) :
    (p.deliverRec o).bus.cmd.slots[k].last = code := by
  cases o with
  | recState r => exact h
  | recStarted => exact ho.elim
  | bus o =>
    cases o with
    | finish slot c d =>
      obtain rfl : c = code := ho
      by_cases hk : k = slot
      · subst hk
        exact Bus.answer_last ..
      · change ((p.bus.answer slot _ 0).cmd.slots[k]).last = _
        rw [Bus.answer_slot_other hk]
        exact h
    | raise f => exact (congrArg (fun c : CommandUnit => c.slots[k].last) (Bus.raise_cmd ..)).trans h
    | status => exact (congrArg (fun c : CommandUnit => c.slots[k].last) (Bus.requestStatus_cmd _)).trans h
    | request r => exact h
    | overwrite n => exact h

theorem Part.last_deliverAll (hall : ∀ o ∈ out, o.Ends code) (h : p.bus.cmd.slots[k].last = code) :
    (out.foldl Part.deliverRec p).bus.cmd.slots[k].last = code := by
  induction out generalizing p with
  | nil => exact h
  | cons o out ih =>
    obtain ⟨ho, hall⟩ := List.forall_mem_cons.1 hall
    exact ih hall (Part.last_deliverRec ho h)

/-- A command that the recording side ends has its outcome once the work is delivered. -/
theorem Part.deliverAll_finished {d : Nat} (h : .bus (.finish k code d) ∈ out) (hall : ∀ o ∈ out, o.Ends code) (p : Part) :
    (out.foldl Part.deliverRec p).bus.cmd.slots[k].last = code := by
  induction out generalizing p with
  | nil => cases h
  | cons o out ih =>
    obtain ⟨ho, rest⟩ := List.forall_mem_cons.1 hall
    obtain rfl | h := List.mem_cons.1 h
    · exact Part.last_deliverAll rest (p := p.deliverRec (.bus (.finish k code d))) (Bus.answer_last ..)
    · exact ih h rest _

theorem slotEnd_ends (slot : Option CmdSlot) (code : OutcomeCode) (d : Nat) : ∀ o ∈ slotEnd slot code d, o.Ends code := by
  cases slot with
  | none => exact nofun
  | some k => exact List.forall_mem_singleton.2 rfl

theorem mem_slotEnd {slot : Option CmdSlot} (h : slot = some k) (code : OutcomeCode) (d : Nat) :
    .bus (.finish k code d) ∈ slotEnd slot code d := by
  rw [h]
  exact List.mem_singleton.2 rfl

theorem recChange_ends {old new : RecState} (h : new = old ∨ new ≠ .recording) (code : OutcomeCode) :
    ∀ o ∈ recChange old new, o.Ends code := by
  unfold recChange
  by_cases hs : new = old
  · rw [if_pos hs]
    exact nofun
  · rw [if_neg hs, if_neg (h.resolve_left hs), List.append_nil]
    split
    · exact List.forall_mem_cons.2 ⟨trivial, List.forall_mem_cons.2 ⟨trivial, List.forall_mem_singleton.2 trivial⟩⟩
    · exact List.forall_mem_cons.2 ⟨trivial, List.forall_mem_singleton.2 trivial⟩

theorem CardEngine.recAfter_or (s : CardState) (c : CardEngine) :
    c.recAfter s = c.recState ∨ c.recAfter s = .standby ∨ c.recAfter s = .idle := by
  unfold CardEngine.recAfter
  split_ifs
  · exact .inl rfl
  · exact .inr (.inl rfl)
  · exact .inl rfl
  · exact .inr (.inr rfl)
  · exact .inl rfl

theorem CardEngine.cardChange_ends (s : CardState) (c : CardEngine) (code : OutcomeCode) : ∀ o ∈ c.cardChange s, o.Ends code := by
  unfold CardEngine.cardChange
  split
  · exact nofun
  · have change : c.recAfter s = c.recState ∨ c.recAfter s ≠ .recording := by
      obtain h | h | h := c.recAfter_or s
      · exact .inl h
      · exact .inr (by rw [h]; exact nofun)
      · exact .inr (by rw [h]; exact nofun)
    exact List.forall_mem_cons.2 ⟨trivial, recChange_ends change code⟩

end

/-! ### Events at the card engine -/

section

variable {s : State} {j : RecWork} {map : RegionMap} {d : DirJob} {ds : List DirJob} {first count : Nat}

theorem State.onCard_pumped {f : RegionMap → RecWork → RecWork} {r : Recorder} {out : List RecOut}
    (h : (f s.part.map (Job.start s.part.recd)).pump s.part.map = ⟨r, out⟩) :
    s.onCard f = s.onPart fun p => out.foldl Part.deliverRec { p with recd := r } :=
  State.onPart_congr (Part.onRecorder_pumped (p := s.part) (f := fun r => f s.part.map (Job.start r)) h)

/-- An event after which the card engine has nothing to do by itself. -/
theorem State.onCard_rests {f : RegionMap → RecWork → RecWork} {r : Recorder} {out : List RecOut}
    (h : f s.part.map (Job.start s.part.recd) = ⟨r, out⟩) (hr : r.card.Rests) :
    s.onCard f = s.onPart fun p => out.foldl Part.deliverRec { p with recd := r } :=
  State.onCard_pumped (by rw [h]; exact Job.pump_rests (j := ⟨r, out⟩) hr _)

/-- The answer to a directory WRITE in flight. -/
theorem Job.writeAnswer_directory (h : j.st.card.inFlight = some ⟨.writeDir first count, false⟩) (ok : Bool) :
    j.writeAnswer map ok = if ok then j.landed.directoryWritten map else j.landed.directoryFailed map := by
  unfold Job.writeAnswer
  rw [h]
  rfl

theorem Job.directoryWritten_cons (h : j.st.card.dirJobs = d :: ds) :
    j.directoryWritten map = match d.purpose with
      | .damaged => (j.card fun c => { c with dirJobs := ds }).finishMount
      | .formatHead => j.card fun c => { c with dirJobs := ds }
      | .formatMap => (j.card fun c => { c with dirJobs := ds }).formatComplete
      | .opening => (j.card fun c => { c with dirJobs := ds }).clip fun c => { c with opened := true }
      | .closeHead => j.card fun c => { c with dirJobs := ds }
      | .closeMap => (j.card fun c => { c with dirJobs := ds }).closeComplete map := by
  unfold Job.directoryWritten
  rw [h] <;> rfl

theorem Job.directoryFailed_cons (h : j.st.card.dirJobs = d :: ds) (hr : d.retried = true) :
    j.directoryFailed map = match d.purpose with
      | .damaged | .formatHead | .formatMap => j.plainFault
      | .opening | .closeHead | .closeMap => j.clipFault map := by
  unfold Job.directoryFailed
  rw [h]
  dsimp only
  rw [hr]
  rfl

/-! ### Faults and ends -/

theorem Job.eq_mk {r : Recorder} {out : List RecOut} (hs : j.st = r) (ho : j.out = out) : j = ⟨r, out⟩ := by
  cases j
  cases hs
  cases ho
  rfl

/-- A FAULT with no clip open (R138, R140). -/
theorem Job.plainFault_eq (j : RecWork) : j.plainFault =
    ⟨{ j.st with card := { j.st.card.dropDirectory with
        state := .fault
        recState := j.st.card.recAfter .fault
        formatSlot := none } },
      j.out ++ j.st.card.cardChange .fault ++ [.bus (.raise .cardFault)] ++ slotEnd j.st.card.formatSlot .failed 1⟩ := by
  unfold Job.plainFault
  rw [Job.endFormat_eq, Job.setCard_eq]
  rfl

/-- A FAULT that ends the open clip (R149). -/
theorem Job.clipFault_eq {k : OpenClip} (h : j.st.card.clip = some k) (map : RegionMap) : j.clipFault map =
    ⟨{ j.st with
        ring := j.st.ring.discard map.ringSize
        card := { j.st.card.clipLost.dropDirectory with
          state := .fault
          recState := .idle
          startSlot := none
          pendingStart := none
          stopSlot := none
          ejectSlot := none } },
      j.out ++ j.st.card.cardChange .fault ++ [.bus (.raise .cardFault)] ++
        [.bus (.request (.lastClip (({ k with flags := { k.flags with endedFault := true } } : OpenClip).entryBytes
          j.st.card.unitTotal 1)))] ++ recChange (j.st.card.recAfter .fault) .idle ++
        slotEnd j.st.card.startSlot .failed 1 ++ slotEnd j.st.card.pendingSlot .failed 1 ++
        slotEnd j.st.card.stopSlot .failed 1 ++ slotEnd j.st.card.ejectSlot .failed 1⟩ := by
  let f : RecWork := ⟨{ j.st with card := { j.st.card with state := .fault, recState := j.st.card.recAfter .fault } },
    j.out ++ j.st.card.cardChange .fault ++ [.bus (.raise .cardFault)]⟩
  have faulted : (j.setCard .fault).ask (.raise .cardFault) = f := by
    rw [Job.setCard_eq]
    rfl
  have lost : f.loseClip map (fun f => { f with endedFault := true }) =
      ⟨{ j.st with
          ring := j.st.ring.discard map.ringSize
          card := { j.st.card.clipLost with state := .fault, recState := j.st.card.recAfter .fault } },
        j.out ++ j.st.card.cardChange .fault ++ [.bus (.raise .cardFault)] ++
        [.bus (.request (.lastClip (({ k with flags := { k.flags with endedFault := true } } : OpenClip).entryBytes
          j.st.card.unitTotal 1)))]⟩ :=
    Job.eq_mk (Job.loseClip_st (j := f) map _) (Job.loseClip_out (j := f) (map := map) h _)
  unfold Job.clipFault
  dsimp only
  rw [faulted, lost, Job.endEject_eq, Job.endStop_eq, Job.dropPendingStart_eq, Job.endStart_eq, Job.setRec_eq]
  rfl

/-- A format that is complete (R140). -/
theorem Job.formatComplete_eq (j : RecWork) : j.formatComplete =
    ⟨{ j.st with card := { j.st.card with
        freeUnits := j.st.card.unitTotal
        state := .ready
        recState := j.st.card.recAfter .ready
        formatSlot := none } },
      j.out ++ j.st.card.cardChange .ready ++ slotEnd j.st.card.formatSlot .done 0⟩ := by
  unfold Job.formatComplete
  rw [Job.endFormat_eq, Job.setCard_eq]
  rfl

/-- An eject that is carried out (R154). -/
theorem Job.ejectNow_eq (j : RecWork) : j.ejectNow =
    ⟨{ j.st with card := { j.st.card.dropDirectory.dropMirrors with ejected := true, state := .absent, recState := .idle } },
      j.out ++ j.st.card.cardChange .absent ++ recChange (j.st.card.recAfter .absent) .idle⟩ := by
  unfold Job.ejectNow
  dsimp only
  rw [Job.setRec_eq, Job.setCard_eq]
  rfl

end

end Sys2Proof.Machine

end

section
/-! PROOFS. The end of a close (08 section 8.9). -/

namespace Sys2Proof.Machine

section

variable {j : RecWork} {map : RegionMap} {k : OpenClip}

/-- No further clip can be opened on the card (R150, R152). -/
def CardEngine.Exhausted (c : CardEngine) : Prop := c.state = .full ∨ c.freeUnits = 0 ∨ c.freeEntry = none

/-- The clip is closed, and what it leaves: the card state, the record state and what else is handed over (R152). -/
structure CardEngine.ClosedFrom (old new : CardEngine) (out : List RecOut) : Prop where
  clip : new.clip = none
  quiet : old.dirJobs = [] → old.mountCmd = none → new.dirJobs = [] ∧ new.mountCmd = none
  stopSlot : new.stopSlot = none
  ejectSlot : new.ejectSlot = none
  ends : ∀ o ∈ out, o.Ends .done
  stopped : ∀ n, old.stopSlot = some n → .bus (.finish n .done 0) ∈ out
  ejected : ∀ n, old.ejectSlot = some n → .bus (.finish n .done 0) ∈ out
  goesOn : old.ejectSlot = none → ¬old.Exhausted → new.state = old.state ∧ new.recState = .standby
  full : old.ejectSlot = none → old.Exhausted → new.state = .full ∧ new.recState = .idle
  gone : old.ejectSlot ≠ none → new.state = .absent ∧ new.recState = .idle ∧ new.ejected = true

/-- The record state and the card state at the end of a close (R150, R152). -/
def Job.rested (j : RecWork) : RecWork :=
  if decide (j.st.card.state = .full) || decide (j.st.card.freeUnits = 0) || decide (j.st.card.freeEntry = none) then
    (j.setCard .full).setRec .idle
  else j.setRec .standby

theorem Job.rested_eq (j : RecWork) : ∃ st rs o,
    j.rested = ⟨{ j.st with card := { j.st.card with state := st, recState := rs } }, j.out ++ o⟩ ∧
    (∀ x ∈ o, x.Ends .done) ∧ (j.st.card.Exhausted → st = .full ∧ rs = .idle) ∧
    (¬j.st.card.Exhausted → st = j.st.card.state ∧ rs = .standby) := by
  have test : (decide (j.st.card.state = .full) || decide (j.st.card.freeUnits = 0) || decide (j.st.card.freeEntry = none)) = true ↔
      j.st.card.Exhausted := by
    rw [Bool.or_eq_true, Bool.or_eq_true, decide_eq_true_iff, decide_eq_true_iff, decide_eq_true_iff, or_assoc]
    rfl
  unfold Job.rested
  by_cases he : j.st.card.Exhausted
  · rw [if_pos (test.2 he), Job.setRec_eq, Job.setCard_eq]
    exact ⟨.full, .idle, j.st.card.cardChange .full ++ recChange (j.st.card.recAfter .full) .idle, by rw [List.append_assoc],
      List.forall_mem_append.2 ⟨CardEngine.cardChange_ends _ _ _, recChange_ends (new := .idle) (.inr nofun) _⟩, fun _ => ⟨rfl, rfl⟩, fun h => absurd he h⟩
  · rw [if_neg (mt test.1 he), Job.setRec_eq]
    exact ⟨j.st.card.state, .standby, recChange j.st.card.recState .standby, rfl, recChange_ends (new := .standby) (.inr nofun) _,
      fun h => absurd h he, fun _ => ⟨rfl, rfl⟩⟩

/-- The end of a close with no start pending (R152, R154). -/
theorem Job.closeComplete_closes (hc : j.st.card.clip = some k) (map : RegionMap)
    (hp : j.st.card.pendingStart = none) : ∃ c out, j.closeComplete map = ⟨{ j.st with card := c }, j.out ++
        [.bus (.raise .clipClosed), .bus (.request (.lastClip (k.entryBytes j.st.card.unitTotal 2)))] ++ out⟩ ∧
      j.st.card.ClosedFrom c out := by
  let shown : RecWork := ⟨{ j.st with card := { j.st.card with clip := none } },
    j.out ++ [.bus (.raise .clipClosed), .bus (.request (.lastClip (k.entryBytes j.st.card.unitTotal 2)))]⟩
  have first : ((j.ask (.raise .clipClosed)).lastClip 2).card (fun c => { c with clip := none }) = shown := by
    unfold Job.lastClip
    rw [show (j.ask (.raise .clipClosed)).st.card.clip = some k from hc]
    simp only [shown, Job.ask, Job.emit, Job.card, Job.change, List.append_assoc, List.singleton_append]
  have closed : j.closeComplete map = ((if (shown.rested.endStop .done 0).st.card.ejectSlot.isSome then
      (shown.rested.endStop .done 0).ejectNow.endEject .done 0 else shown.rested.endStop .done 0).takePendingStart map) := by
    unfold Job.closeComplete
    rw [first]
    rfl
  have nothingPends (j : RecWork) (h : j.st.card.pendingStart = none) : j.takePendingStart map = j := by
    unfold Job.takePendingStart
    rw [h]
  obtain ⟨st, rs, o, rests, ends, full, goesOn⟩ := Job.rested_eq shown
  let ended : RecWork := ⟨{ j.st with card := { j.st.card with clip := none, state := st, recState := rs, stopSlot := none } },
    shown.out ++ o ++ slotEnd j.st.card.stopSlot .done 0⟩
  have stops : shown.rested.endStop .done 0 = ended := by
    rw [rests, Job.endStop_eq]
  have allEnd := List.forall_mem_append.2 ⟨ends, slotEnd_ends j.st.card.stopSlot .done 0⟩
  rw [closed, stops]
  by_cases he : j.st.card.ejectSlot = none
  · have stays : ended.st.card.ejectSlot.isSome = false := congrArg Option.isSome he
    rw [stays, if_neg Bool.false_ne_true, nothingPends ended hp]
    refine ⟨_, o ++ slotEnd j.st.card.stopSlot .done 0, by rw [← List.append_assoc], ?_⟩
    exact {
      clip := rfl
      quiet := fun hd hm => ⟨hd, hm⟩
      stopSlot := rfl
      ejectSlot := he
      ends := allEnd
      stopped := fun n hn => List.mem_append_right _ (mem_slotEnd hn ..)
      ejected := fun n hn => by rw [he] at hn; cases hn
      goesOn := fun _ h => goesOn h
      full := fun _ h => full h
      gone := fun h => absurd he h }
  · have goes : ended.st.card.ejectSlot.isSome = true := Option.isSome_iff_ne_none.2 he
    let tail : List RecOut := ended.st.card.cardChange .absent ++ recChange (ended.st.card.recAfter .absent) .idle ++
      slotEnd j.st.card.ejectSlot .done 0
    let last : CardEngine := { ended.st.card.dropDirectory.dropMirrors with
      ejected := true, state := .absent, recState := .idle, ejectSlot := none }
    have gone : ended.ejectNow.endEject .done 0 = ⟨{ j.st with card := last }, ended.out ++ tail⟩ := by
      rw [Job.endEject_eq, Job.ejectNow_eq]
      exact congrArg (Job.mk _) (by simp only [tail, List.append_assoc]; rfl)
    have tailEnds : ∀ x ∈ tail, x.Ends .done :=
      List.forall_mem_append.2 ⟨List.forall_mem_append.2 ⟨CardEngine.cardChange_ends _ _ _,
        recChange_ends (new := .idle) (.inr nofun) _⟩, slotEnd_ends _ _ _⟩
    rw [goes, if_pos rfl, gone, nothingPends ⟨{ j.st with card := last }, ended.out ++ tail⟩ hp]
    refine ⟨last, (o ++ slotEnd j.st.card.stopSlot .done 0) ++ tail, by simp only [ended, shown, List.append_assoc], ?_⟩
    exact {
      clip := rfl
      quiet := fun _ _ => ⟨rfl, rfl⟩
      stopSlot := rfl
      ejectSlot := rfl
      ends := List.forall_mem_append.2 ⟨allEnd, tailEnds⟩
      stopped := fun n hn => List.mem_append_left _ (List.mem_append_right _ (mem_slotEnd hn ..))
      ejected := fun m hm => List.mem_append_right _ (List.mem_append_right _ (mem_slotEnd hm ..))
      goesOn := fun h => absurd h he
      full := fun h => absurd h he
      gone := fun _ => ⟨rfl, rfl, rfl⟩ }

end

end Sys2Proof.Machine

end

section
/-! PROOFS. CARD_FORMAT and CARD_EJECT (08 sections 8.4 and 8.10). -/

namespace Sys2Proof.Machine

section

variable {s : State} {slot : CmdSlot} {r : Recorder} {map : RegionMap}

/-! ### The directory of an empty card (12.4) -/

theorem headerBytes_length (units next : Nat) : (headerBytes units next).length = 0x200 := by
  unfold headerBytes
  simp only [List.length_append, leBytes_length, List.length_replicate]
  rfl

theorem List.getD_append_zeros (bs : List Byte) (n x : Nat) :
    (bs ++ List.replicate n (0 : Byte)).getD x 0 = if x < bs.length then bs.getD x 0 else 0 := by
  rw [List.getD_eq_getElem?_getD, List.getElem?_append]
  split
  · rw [List.getD_eq_getElem?_getD]
  · rw [List.getElem?_replicate]
    split <;> rfl

/-- What the mirror of a header followed by zeros reads as. -/
theorem Memory.read_header (units next n x : Nat) :
    (Memory.writeBytes [] 0 (headerBytes units next ++ List.replicate n 0)).read x =
      if x < 0x200 then (headerBytes units next).getD x 0 else 0 := by
  rw [Memory.read_writeBytes rfl, Nat.sub_zero, List.getD_append_zeros, List.length_append, headerBytes_length]
  by_cases hx : x < 0x200
  · rw [if_pos hx, if_pos ⟨Nat.zero_le x, by omega⟩]
  · rw [if_neg hx]
    split <;> rfl

/-! ### CARD_FORMAT (R140) -/

/-- The card may be formatted: its state, a record state at rest, and no eject in progress. -/
def CardEngine.Formattable (c : CardEngine) : Prop :=
  (c.state = .unformatted ∨ c.state = .ready ∨ c.state = .full) ∧ (c.recState = .idle ∨ c.recState = .standby) ∧ c.ejectSlot = none

theorem Recorder.cardFormat_refused (v : Verdict)
    (h : firstFailure [ownerTest (decide (r.card.state ≠ .absent)) .noCard,
      ownerTest (decide (r.card.state ≠ .writeProtected)) .cardProtected,
      ownerTest ((decide (r.card.state = .unformatted) || decide (r.card.state = .ready) || decide (r.card.state = .full)) &&
        (decide (r.card.recState = .idle) || decide (r.card.recState = .standby)) && r.card.ejectSlot.isNone) .busy] = some v) :
    (r.cardFormat map slot).2 = v := by
  unfold Recorder.cardFormat
  dsimp only at h ⊢
  rw [h]

theorem CardEngine.formattable_iff {c : CardEngine} :
    ((decide (c.state = .unformatted) || decide (c.state = .ready) || decide (c.state = .full)) &&
      (decide (c.recState = .idle) || decide (c.recState = .standby)) && c.ejectSlot.isNone) = true ↔ c.Formattable := by
  simp only [CardEngine.Formattable, Bool.and_eq_true, Bool.or_eq_true, decide_eq_true_eq, Option.isNone_iff_eq_none, and_assoc, or_assoc]

/-- A format begins: the card state, the mirror of an empty directory and the two directory WRITEs (R140). -/
theorem Recorder.cardFormat_begins (h : r.card.Formattable) : r.cardFormat map slot =
    (⟨{ r with card := { r.card with
        state := .formatting
        recState := r.card.recAfter .formatting
        formatSlot := some slot
        mirror := some (Memory.writeBytes [] 0 (headerBytes r.card.unitTotal 1 ++ List.replicate (280 * 512) 0))
        mirrorWrites := r.card.mirrorWrites + 1
        dirJobs := r.card.dirJobs ++ [⟨.formatHead, 0, 256, [], false⟩] ++ [⟨.formatMap, 256, 25, [], false⟩] } },
      r.card.cardChange .formatting ++ [.bus (.request (.mirror (map.privBase + 0)
        (headerBytes r.card.unitTotal 1 ++ List.replicate (280 * 512) 0)))]⟩, .pending) := by
  have present : r.card.state ≠ .absent ∧ r.card.state ≠ .writeProtected := by
    obtain ⟨h | h | h, -⟩ := h <;> rw [h] <;> exact ⟨nofun, nofun⟩
  have passed : firstFailure [ownerTest (decide (r.card.state ≠ .absent)) .noCard,
      ownerTest (decide (r.card.state ≠ .writeProtected)) .cardProtected,
      ownerTest ((decide (r.card.state = .unformatted) || decide (r.card.state = .ready) || decide (r.card.state = .full)) &&
        (decide (r.card.recState = .idle) || decide (r.card.recState = .standby)) && r.card.ejectSlot.isNone) .busy] = none := by
    rw [CardEngine.formattable_iff.2 h, decide_eq_true present.1, decide_eq_true present.2]
    rfl
  unfold Recorder.cardFormat
  dsimp only
  rw [passed]
  dsimp only
  rw [Job.setCard_eq]
  rfl

/-! ### CARD_EJECT (R154) -/

theorem Recorder.cardEject_refused (v : Verdict)
    (h : firstFailure [ownerTest (decide (r.card.state ≠ .absent)) .noCard,
      ownerTest (decide (r.card.state ≠ .mounting) && decide (r.card.state ≠ .formatting) && r.card.ejectSlot.isNone) .busy] =
        some v) : (r.cardEject slot).2 = v := by
  unfold Recorder.cardEject
  dsimp only at h ⊢
  rw [h]

/-- An eject that is not refused, by the record state (R154). -/
theorem Recorder.cardEject_accepted (ha : r.card.state ≠ .absent) (hm : r.card.state ≠ .mounting)
    (hf : r.card.state ≠ .formatting) (he : r.card.ejectSlot = none) : r.cardEject slot =
      match r.card.recState with
      | .recording => (((Job.start r).setRec .stopping).card fun c => { c with ejectSlot := some slot }, .pending)
      | .stopping | .closing =>
        (((Job.start r).dropPendingStart .aborted 0).card fun c => { c with ejectSlot := some slot }, .pending)
      | .armed => ((((Job.start r).setRec .standby).endStart .aborted 0).ejectNow, .done)
      | .idle | .standby => ((Job.start r).ejectNow, .done) := by
  have passed : firstFailure [ownerTest (decide (r.card.state ≠ .absent)) .noCard,
      ownerTest (decide (r.card.state ≠ .mounting) && decide (r.card.state ≠ .formatting) && r.card.ejectSlot.isNone) .busy] =
        none := by
    rw [decide_eq_true ha, decide_eq_true hm, decide_eq_true hf, he]
    rfl
  unfold Recorder.cardEject
  dsimp only
  rw [passed] <;> cases r.card.recState <;> rfl

end

end Sys2Proof.Machine

end

section
/-! PROOFS. CARD_FORMAT, CARD_EJECT and the answers that end a format or a clip (08 sections 8.4, 8.8 to 8.10). -/

namespace Sys2Proof.Machine

section

variable {s : State} {slot : CmdSlot}

/-- What a recording command that is not refused leaves. -/
theorem State.offered_rec_leaves {kind : Byte} {f : RegionMap → Recorder → RecAnswer} {r : Recorder} {out : List RecOut}
    {v : Verdict} (h : Ready slot s.part) (hv : (f s.part.map s.part.recd).2 = v) (hnr : v.code.refused = false)
    (hf : (f s.part.map s.part.recd).1.pump s.part.map = ⟨r, out⟩) :
    ∃ t, s.offered slot (fun p => p.takeRec slot kind f) = .next t ∧ t.mem = s.mem ∧ t.part.recd = r ∧
      t.part.slots = s.part.slots ∧ t.part.map = s.part.map ∧
      t.part.bus = (out.foldl Part.deliverRec { s.part with bus := s.part.bus.beginTake slot kind, recd := r }).bus.answer slot v 0 := by
  refine ⟨_, State.offered_rec h hv hnr hf, rfl, Part.deliverAll_recd .., ?_, ?_, rfl⟩
  all_goals
    obtain ⟨b, l, delivered⟩ := Part.deliverAll_frame out { s.part with bus := s.part.bus.beginTake slot kind, recd := r }
    dsimp only [State.onPart]
    rw [delivered]

theorem CardEngine.image_eq {c : CardEngine} {m : Memory} (h : c.mirror = some m) : c.image = m := by
  unfold CardEngine.image
  rw [h]
  rfl

/-- What a CARD_FORMAT does (R140). -/
theorem cardFormat_takes (hready : Ready slot s.part) :
    let c := s.part.recd.card
    let ok : Prop := (c.state = .unformatted ∨ c.state = .ready ∨ c.state = .full) ∧
      (c.recState = .idle ∨ c.recState = .standby) ∧ c.ejectSlot = none
    let refused (code : OutcomeCode) : Prop :=
      exec (.cardFormat slot) s = .next (s.onPart (Part.takenOnly slot 0x33 (.refuse code)))
    (c.state = .absent → refused .noCard) ∧ (c.state = .writeProtected → refused .cardProtected) ∧
    (c.state ≠ .absent → c.state ≠ .writeProtected → ¬ok → refused .busy) ∧
    (ok → c.Quiet → ∃ t, exec (.cardFormat slot) s = .next t ∧ t.mem = s.mem ∧
      t.part.recd.card.state = .formatting ∧ t.part.recd.card.recState = .idle ∧
      t.part.recd.card.formatSlot = some slot ∧ t.part.bus.cmd.slots[slot].last = .pending ∧
      t.part.recd.card.dirJobs.map DirJob.first = [0, 256] ∧ t.part.recd.card.dirJobs.map DirJob.count = [256, 25] ∧
      (∀ x, t.part.recd.card.image.read x =
        if x < 0x200 then (headerBytes c.unitTotal 1).getD x 0 else 0) ∧
      t.part.recd.ring = s.part.recd.ring ∧ t.part.slots = s.part.slots ∧ t.part.map = s.part.map) := by
  intro c ok refused
  have refuses {code : OutcomeCode} (h : (s.part.recd.cardFormat s.part.map slot).2 = .refuse code)
      (hr : (Verdict.refuse code).code.refused = true) : refused code :=
    State.offered_rec_refused (f := fun m => Recorder.cardFormat m slot) hready h hr
  refine ⟨fun ha => refuses (Recorder.cardFormat_refused _ ?_) rfl, fun hw => refuses (Recorder.cardFormat_refused _ ?_) rfl,
    fun ha hw hno => refuses (Recorder.cardFormat_refused _ ?_) rfl, fun hok hq => ?_⟩
  · rw [decide_eq_false (not_not_intro ha)]
    rfl
  · rw [hw]
    rfl
  · rw [decide_eq_true ha, decide_eq_true hw, Bool.eq_false_iff.2 (mt CardEngine.formattable_iff.1 hno)]
    rfl
  · have begins := Recorder.cardFormat_begins (map := s.part.map) (slot := slot) hok
    have idle : s.part.recd.card.recAfter .formatting = .idle := by
      unfold CardEngine.recAfter
      obtain ⟨hs, hr, -⟩ := hok
      have other : CardState.formatting ≠ s.part.recd.card.state := by
        obtain h | h | h := hs <;> (rw [show s.part.recd.card.state = _ from h]; exact nofun)
      obtain h | h := hr <;> simp [other, show s.part.recd.card.recState = _ from h]
    obtain ⟨-, hd, -⟩ := hq
    rw [idle, show s.part.recd.card.dirJobs = [] from hd] at begins
    obtain ⟨request, mount, inFlight, a, b, pumped⟩ :=
      Job.pump_undrained_frame (j := (s.part.recd.cardFormat s.part.map slot).1) (by rw [begins]; rfl) s.part.map
    obtain ⟨t, taken, mem, recd, slots, map, bus⟩ := State.offered_rec_leaves (kind := 0x33)
      (f := fun m => Recorder.cardFormat m slot) (v := .pending) hready (by rw [begins]) rfl pumped
    refine ⟨t, taken, mem, ?_⟩
    rw [recd, slots, map, bus, begins]
    refine ⟨rfl, rfl, rfl, Bus.answer_last .., rfl, rfl, fun x => ?_, rfl, rfl, rfl⟩
    rw [CardEngine.image_eq (c := CardEngine.busied _ request mount inFlight a b) rfl]
    exact Memory.read_header ..

/-- What a CARD_EJECT does (R154). -/
theorem cardEject_takes (hready : Ready slot s.part) :
    let c := s.part.recd.card
    let busy : Prop := c.state = .mounting ∨ c.state = .formatting ∨ c.ejectSlot ≠ none
    let ejected (t : State) : Prop := t.mem = s.mem ∧ t.part.recd.card.ejected = true ∧
      t.part.recd.card.mirror = none ∧ t.part.recd.card.state = .absent ∧ t.part.recd.card.recState = .idle ∧
      t.part.recd.card.inFlight = c.inFlight ∧ t.part.bus.cmd.slots[slot].last = .done ∧
      t.part.recd.ring = s.part.recd.ring
    (c.state = .absent → exec (.cardEject slot) s = .next (s.onPart (Part.takenOnly slot 0x34 (.refuse .noCard)))) ∧
    (c.state ≠ .absent → busy → exec (.cardEject slot) s = .next (s.onPart (Part.takenOnly slot 0x34 (.refuse .busy)))) ∧
    (c.state ≠ .absent → ¬busy →
      (c.recState = .idle ∨ c.recState = .standby → c.clip = none →
        ∃ t, exec (.cardEject slot) s = .next t ∧ ejected t) ∧
      (c.recState = .armed → c.clip = none →
        ∃ t, exec (.cardEject slot) s = .next t ∧ ejected t ∧ t.part.recd.card.startSlot = none ∧
          ∀ k, c.startSlot = some k → k ≠ slot → t.part.bus.cmd.slots[k].last = .aborted) ∧
      (∀ k, c.recState = .recording → c.request ≠ none → c.clip = some k → k.live = true →
        ∃ t, exec (.cardEject slot) s = .next t ∧ t.mem = s.mem ∧ t.part.recd.card.recState = .stopping ∧
          t.part.recd.card.ejectSlot = some slot ∧ t.part.bus.cmd.slots[slot].last = .pending ∧
          t.part.bus.report.pending &&& Factor.recStopped.bit ≠ 0) ∧
      ∀ k : OpenClip, c.Waits k → c.recState = .stopping ∨ c.recState = .closing →
        exec (.cardEject slot) s = .next (s.onPart fun p =>
          { p.afterTake slot 0x34 (match c.pendingStart with
              | some (.slot n) => [.finish n .aborted 0]
              | _ => []) .pending with
            recd := { p.recd with card := { p.recd.card with ejectSlot := some slot, pendingStart := none } } })) := by
  intro c busy ejected
  have refuses {code : OutcomeCode} (h : (s.part.recd.cardEject slot).2 = .refuse code)
      (hr : (Verdict.refuse code).code.refused = true) :
      exec (.cardEject slot) s = .next (s.onPart (Part.takenOnly slot 0x34 (.refuse code))) :=
    State.offered_rec_refused (f := fun _ => Recorder.cardEject slot) hready h hr
  refine ⟨fun ha => refuses (Recorder.cardEject_refused _ ?_) rfl, fun ha hb => refuses (Recorder.cardEject_refused _ ?_) rfl,
    fun ha hb => ?_⟩
  · rw [decide_eq_false (not_not_intro ha)]
    rfl
  · have held : (decide (c.state ≠ .mounting) && decide (c.state ≠ .formatting) && c.ejectSlot.isNone) = false := by
      rw [Bool.and_eq_false_iff, Bool.and_eq_false_iff, decide_eq_false_iff_not, decide_eq_false_iff_not, not_not, not_not, or_assoc]
      exact hb.imp_right (Or.imp_right fun h => Option.isNone_eq_false_iff.2 (Option.isSome_iff_ne_none.2 h))
    rw [decide_eq_true ha, held]
    rfl
  · have hm : c.state ≠ .mounting := fun h => hb (.inl h)
    have hf : c.state ≠ .formatting := fun h => hb (.inr (.inl h))
    have he : c.ejectSlot = none := of_not_not fun h => hb (.inr (.inr h))
    have accepted := Recorder.cardEject_accepted (slot := slot) ha hm hf he
    refine ⟨fun hr hc => ?_, fun hr hc => ?_, fun k hr hq hc hl => ?_, fun k hw hr => ?_⟩
    · have ejects : s.part.recd.cardEject slot = ((Job.start s.part.recd).ejectNow, .done) := by
        rw [accepted]
        obtain h | h := hr <;> rw [show s.part.recd.card.recState = _ from h]
      rw [Job.ejectNow_eq] at ejects
      have quiet : (s.part.recd.cardEject slot).1.st.card.Quiet := by rw [ejects]; exact ⟨hc, rfl, rfl⟩
      have pumped := Job.pump_quiet quiet s.part.map
      obtain ⟨t, taken, mem, recd, -, -, bus⟩ := State.offered_rec_leaves (kind := 0x34)
        (f := fun _ => Recorder.cardEject slot) (v := .done) hready (by rw [ejects]) rfl pumped
      refine ⟨t, taken, mem, ?_⟩
      rw [recd, bus, ejects]
      exact ⟨rfl, rfl, rfl, rfl, rfl, Bus.answer_last .., rfl⟩
    · have ejects : s.part.recd.cardEject slot = ((((Job.start s.part.recd).setRec .standby).endStart .aborted 0).ejectNow, .done) := by
        rw [accepted, show s.part.recd.card.recState = .armed from hr]
      rw [Job.endStart_eq, Job.setRec_eq, Job.ejectNow_eq] at ejects
      have quiet : (s.part.recd.cardEject slot).1.st.card.Quiet := by rw [ejects]; exact ⟨hc, rfl, rfl⟩
      have pumped := Job.pump_quiet quiet s.part.map
      obtain ⟨t, taken, mem, recd, -, -, bus⟩ := State.offered_rec_leaves (kind := 0x34)
        (f := fun _ => Recorder.cardEject slot) (v := .done) hready (by rw [ejects]) rfl pumped
      refine ⟨t, taken, ?_⟩
      dsimp only [ejected]
      rw [recd, bus, ejects]
      refine ⟨⟨mem, rfl, rfl, rfl, rfl, rfl, Bus.answer_last .., rfl⟩, rfl, fun k hk hn => ?_⟩
      rw [Bus.answer_slot_other hn]
      refine Part.deliverAll_finished (d := 0)
        (List.mem_append_left _ (List.mem_append_left _ (List.mem_append_right _ (mem_slotEnd hk ..)))) ?_ _
      exact List.forall_mem_append.2 ⟨List.forall_mem_append.2 ⟨List.forall_mem_append.2
        ⟨recChange_ends (new := .standby) (.inr nofun) _, slotEnd_ends _ _ _⟩, CardEngine.cardChange_ends _ _ _⟩,
        recChange_ends (new := .idle) (.inr nofun) _⟩
    · have ejects : s.part.recd.cardEject slot =
          (((Job.start s.part.recd).setRec .stopping).card fun c => { c with ejectSlot := some slot }, .pending) := by
        rw [accepted, show s.part.recd.card.recState = .recording from hr]
      rw [Job.setRec_eq, show (Job.start s.part.recd : RecWork).st.card.recState = .recording from hr] at ejects
      obtain ⟨mount, inFlight, a, b, pumped⟩ := Job.pump_requested (j := (s.part.recd.cardEject slot).1)
        (by rw [ejects]; exact hq) (by rw [ejects]; exact hc) hl s.part.map
      obtain ⟨t, taken, mem, recd, -, -, bus⟩ := State.offered_rec_leaves (kind := 0x34)
        (f := fun _ => Recorder.cardEject slot) (v := .pending) hready (by rw [ejects]) rfl pumped
      have raised : RecOut.bus (.raise .recStopped) ∈ recChange .recording .stopping := List.mem_of_getLast? rfl
      refine ⟨t, taken, mem, ?_⟩
      rw [recd, bus, ejects]
      exact ⟨rfl, rfl, Bus.answer_last .., Bus.answer_shows (f := .recStopped) (Part.deliverAll_raised raised _) slot .pending 0⟩
    · have ejects : s.part.recd.cardEject slot =
          (((Job.start s.part.recd).dropPendingStart .aborted 0).card fun c => { c with ejectSlot := some slot }, .pending) := by
        rw [accepted]
        obtain h | h := hr <;> rw [show s.part.recd.card.recState = _ from h]
      rw [Job.dropPendingStart_eq] at ejects
      refine (State.offered_rec_rests (kind := 0x34) (f := fun _ => Recorder.cardEject slot) hready rfl ejects (.inr ⟨k, hw⟩)).trans
        (congrArg _ (State.onPart_congr ?_))
      unfold CardEngine.pendingSlot
      dsimp only [c]
      obtain h | ⟨h⟩ | ⟨n, h⟩ : s.part.recd.card.pendingStart = none ∨ s.part.recd.card.pendingStart = some .toggle ∨
          ∃ n, s.part.recd.card.pendingStart = some (.slot n) := by
        cases s.part.recd.card.pendingStart with
        | none => exact .inl rfl
        | some source =>
          cases source with
          | toggle => exact .inr (.inl rfl)
          | slot n => exact .inr (.inr ⟨n, rfl⟩)
      all_goals
        rw [show (Job.start s.part.recd : RecWork).st.card.pendingStart = _ from h, h]
        rfl

end

end Sys2Proof.Machine

end

section
/-! PROOFS. The answers that end a format, a close or a clip (08 sections 8.4, 8.8 and 8.9). -/

namespace Sys2Proof.Machine

section

variable {s : State} {d : DirJob}

/-- An event at the card engine after which it has nothing to do by itself leaves its work delivered. -/
theorem State.onCard_leaves {f : RegionMap → RecWork → RecWork} {r : Recorder} {out : List RecOut}
    (h : f s.part.map (Job.start s.part.recd) = ⟨r, out⟩) (hr : r.card.Rests) :
    ∃ p : Part, (s.onCard f).mem = s.mem ∧ (s.onCard f).part.recd = r ∧ (s.onCard f).part = out.foldl Part.deliverRec p := by
  rw [State.onCard_rests h hr]
  exact ⟨{ s.part with recd := r }, rfl, Part.deliverAll_recd .., rfl⟩

/-- The answer to the directory WRITE at the front, the only one (R133). -/
theorem Job.writeAnswer_written {j : RecWork} {map : RegionMap} (hf : j.st.card.inFlight = some ⟨.writeDir d.first d.count, false⟩)
    (hd : j.st.card.dirJobs = [d]) : j.writeAnswer map true = match d.purpose with
      | .damaged => (j.landed.card fun c => { c with dirJobs := [] }).finishMount
      | .formatHead => j.landed.card fun c => { c with dirJobs := [] }
      | .formatMap => (j.landed.card fun c => { c with dirJobs := [] }).formatComplete
      | .opening => (j.landed.card fun c => { c with dirJobs := [] }).clip fun c => { c with opened := true }
      | .closeHead => j.landed.card fun c => { c with dirJobs := [] }
      | .closeMap => (j.landed.card fun c => { c with dirJobs := [] }).closeComplete map :=
  (Job.writeAnswer_directory hf true).trans (Job.directoryWritten_cons (j := j.landed) hd)

theorem Job.writeAnswer_failed {j : RecWork} {map : RegionMap} (hf : j.st.card.inFlight = some ⟨.writeDir d.first d.count, false⟩)
    (hd : j.st.card.dirJobs = [d]) (hr : d.retried = true) : j.writeAnswer map false = match d.purpose with
      | .damaged | .formatHead | .formatMap => j.landed.plainFault
      | .opening | .closeHead | .closeMap => j.landed.clipFault map :=
  (Job.writeAnswer_directory hf false).trans (Job.directoryFailed_cons (j := j.landed) hd hr)

/-- The end of a format (R140). -/
theorem writeAnswer_formats (hf : s.part.recd.card.inFlight = some ⟨.writeDir d.first d.count, false⟩)
    (hd : s.part.recd.card.dirJobs = [d]) (hm : s.part.recd.card.mountCmd = none) (hp : d.purpose = .formatMap)
    (hc : s.part.recd.card.clip = none) (hs : s.part.recd.card.state = .formatting) (hi : s.part.recd.card.recState = .idle) :
    (∃ t, exec (.cardWriteAnswer (.inTime true)) s = .next t ∧ t.mem = s.mem ∧ t.part.recd.card.state = .ready ∧
      t.part.recd.card.recState = .standby ∧ t.part.recd.card.freeUnits = s.part.recd.card.unitTotal ∧
      t.part.recd.card.formatSlot = none ∧ ∀ k, s.part.recd.card.formatSlot = some k → t.part.bus.cmd.slots[k].last = .done) ∧
    (d.retried = true → ∃ t, exec (.cardWriteAnswer (.inTime false)) s = .next t ∧ t.mem = s.mem ∧
      t.part.recd.card.state = .fault ∧ t.part.recd.card.recState = .idle ∧
      t.part.bus.report.pending &&& Factor.cardFault.bit ≠ 0 ∧
      ∀ k, s.part.recd.card.formatSlot = some k → t.part.bus.cmd.slots[k].last = .failed) := by
  have change (x : CardState) (hx : x ≠ .formatting) : s.part.recd.card.recAfter x = if x = .ready then .standby else .idle := by
    unfold CardEngine.recAfter
    rw [hs, hi, if_neg hx, if_pos rfl]
    rfl
  refine ⟨?_, fun hr => ?_⟩
  · have answered := Job.writeAnswer_written (j := Job.start s.part.recd) (map := s.part.map) hf hd
    rw [hp] at answered
    rw [Job.formatComplete_eq] at answered
    obtain ⟨p, mem, recd, part⟩ := State.onCard_leaves (f := fun map j => j.writeAnswer map true) answered (.inl ⟨hc, rfl, hm⟩)
    refine ⟨_, rfl, mem, ?_⟩
    rw [recd]
    refine ⟨rfl, change .ready nofun, rfl, rfl, fun k hk => ?_⟩
    rw [part]
    exact Part.deliverAll_finished (List.mem_append_right _ (mem_slotEnd hk ..)) (List.forall_mem_append.2
      ⟨CardEngine.cardChange_ends _ _ _, slotEnd_ends _ _ _⟩) p
  · have answered := Job.writeAnswer_failed (j := Job.start s.part.recd) (map := s.part.map) hf hd hr
    rw [hp] at answered
    rw [Job.plainFault_eq] at answered
    obtain ⟨p, mem, recd, part⟩ := State.onCard_leaves (f := fun map j => j.writeAnswer map false) answered (.inl ⟨hc, rfl, rfl⟩)
    refine ⟨_, rfl, mem, ?_⟩
    rw [recd]
    refine ⟨rfl, change .fault nofun, ?_, fun k hk => ?_⟩
    · rw [part]
      exact Part.deliverAll_raised (f := .cardFault) (List.mem_append_left _ (List.mem_append_right _ (List.mem_singleton.2 rfl))) p
    · rw [part]
      exact Part.deliverAll_finished (List.mem_append_right _ (mem_slotEnd hk ..)) (List.forall_mem_append.2
        ⟨List.forall_mem_append.2 ⟨CardEngine.cardChange_ends _ _ _,
          List.forall_mem_singleton.2 (show RecOut.Ends .failed (.bus (.raise .cardFault)) from trivial)⟩,
          slotEnd_ends _ _ _⟩) p

/-- The end of a close (R152, R154). -/
theorem writeAnswer_closes (hf : s.part.recd.card.inFlight = some ⟨.writeDir d.first d.count, false⟩)
    (hd : s.part.recd.card.dirJobs = [d]) (hm : s.part.recd.card.mountCmd = none) {k : OpenClip} (hp : d.purpose = .closeMap)
    (hc : s.part.recd.card.clip = some k) (hs : s.part.recd.card.pendingStart = none) :
    let c := s.part.recd.card
    ∃ t, exec (.cardWriteAnswer (.inTime true)) s = .next t ∧ t.mem = s.mem ∧ t.part.recd.card.clip = none ∧
      t.part.bus.report.pending &&& Factor.clipClosed.bit ≠ 0 ∧
      PartReq.lastClip (k.entryBytes c.unitTotal 2) ∈ t.part.bus.partQ ∧ t.part.recd.card.stopSlot = none ∧
      t.part.recd.card.ejectSlot = none ∧
      (c.ejectSlot = none → c.state = .ready → c.freeUnits ≠ 0 → c.freeEntry ≠ none →
        t.part.recd.card.state = .ready ∧ t.part.recd.card.recState = .standby) ∧
      (c.ejectSlot = none → c.state = .full → t.part.recd.card.state = .full ∧ t.part.recd.card.recState = .idle) ∧
      (c.ejectSlot ≠ none → t.part.recd.card.state = .absent ∧ t.part.recd.card.recState = .idle ∧
        t.part.recd.card.ejected = true) ∧
      (∀ n, c.ejectSlot = some n → t.part.bus.cmd.slots[n].last = .done) ∧
      ∀ n, c.stopSlot = some n → t.part.bus.cmd.slots[n].last = .done := by
  intro c
  have answered := Job.writeAnswer_written (j := Job.start s.part.recd) (map := s.part.map) hf hd
  rw [hp] at answered
  obtain ⟨last, out, closed, left⟩ := Job.closeComplete_closes
    (j := (Job.start s.part.recd).landed.card fun c => { c with dirJobs := [] }) hc s.part.map hs
  obtain ⟨dirJobs, mount⟩ := left.quiet rfl hm
  obtain ⟨p, mem, recd, part⟩ := State.onCard_leaves (f := fun map j => j.writeAnswer map true) (answered.trans closed)
    (.inl ⟨left.clip, dirJobs, mount⟩)
  have ends : ∀ o ∈ [RecOut.bus (.raise .clipClosed), RecOut.bus (.request (.lastClip (k.entryBytes c.unitTotal 2)))] ++ out,
      o.Ends .done := List.forall_mem_append.2 ⟨List.forall_mem_cons.2 ⟨trivial, List.forall_mem_singleton.2 trivial⟩, left.ends⟩
  refine ⟨_, rfl, mem, ?_⟩
  rw [recd]
  refine ⟨left.clip, ?_, ?_, left.stopSlot, left.ejectSlot, fun he hs hu hn => ?_, fun he hs => left.full he (.inl hs),
    left.gone, fun n hn => ?_, fun n hn => ?_⟩
  · rw [part]
    exact Part.deliverAll_raised (f := .clipClosed) (List.mem_append_left _ (List.mem_cons_self ..)) p
  · rw [part]
    exact Part.deliverAll_requested (fun _ => rfl) (List.mem_append_left _ (List.mem_cons_of_mem _ (List.mem_singleton.2 rfl))) p
  · obtain ⟨state, recState⟩ := left.goesOn he fun h => by
      obtain h | h | h := h
      · cases hs.symm.trans h
      · exact hu h
      · exact hn h
    exact ⟨state.trans hs, recState⟩
  · rw [part]
    exact Part.deliverAll_finished (List.mem_append_right _ (left.ejected n hn)) ends p
  · rw [part]
    exact Part.deliverAll_finished (List.mem_append_right _ (left.stopped n hn)) ends p

/-- A clip that ends by a FAULT (R149): what is left of it, for the answer and the timeout that lead there. -/
theorem State.onCard_clipFault {f : RegionMap → RecWork → RecWork} {j : RecWork} {k : OpenClip} (hc : j.st.card.clip = some k)
    (h : f s.part.map (Job.start s.part.recd) = j.clipFault s.part.map) (ho : j.out = []) :
    ∃ t, (Host.Outcome.next (s.onCard f) : Host.Outcome State Fault Refusal) = .next t ∧ t.mem = s.mem ∧
      t.part.recd.card.state = .fault ∧
      t.part.recd.card.recState = .idle ∧ t.part.recd.card.clip = none ∧
      t.part.bus.report.pending &&& Factor.cardFault.bit ≠ 0 ∧
      (j.st.card.recState = .recording → t.part.bus.report.pending &&& Factor.recStopped.bit ≠ 0) ∧
      PartReq.lastClip ({ k with flags := { k.flags with endedFault := true } }.entryBytes j.st.card.unitTotal 1) ∈
        t.part.bus.partQ ∧
      (∀ e ∈ t.part.recd.ring.queue, e.state = .retained) ∧ t.part.recd.card.stopSlot = none ∧
      t.part.recd.card.pendingStart = none ∧ t.part.recd.card.ejectSlot = none ∧
      ∀ n, j.st.card.stopSlot = some n → t.part.bus.cmd.slots[n].last = .failed := by
  rw [Job.clipFault_eq hc, ho] at h
  obtain ⟨p, mem, recd, part⟩ := State.onCard_leaves h (.inl ⟨rfl, rfl, rfl⟩)
  have stops (hr : j.st.card.recState = .recording) : j.st.card.recAfter .fault = .recording := by
    simp [CardEngine.recAfter, hr]
  refine ⟨_, rfl, mem, ?_⟩
  rw [recd]
  refine ⟨rfl, rfl, rfl, ?_, fun hr => ?_, ?_, RingMonitor.discard_retained _ _, rfl, rfl, rfl, fun n hn => ?_⟩
  · rw [part]
    exact Part.deliverAll_raised (f := .cardFault) (by simp only [List.mem_append, List.mem_singleton, true_or, or_true]) p
  · have raised : RecOut.bus (.raise .recStopped) ∈ recChange (j.st.card.recAfter .fault) .idle := by
      rw [stops hr]
      exact List.mem_of_getLast? rfl
    rw [part]
    exact Part.deliverAll_raised (f := .recStopped) (by simp only [List.mem_append, raised, true_or, or_true]) p
  · rw [part]
    exact Part.deliverAll_requested (fun _ => rfl) (by simp only [List.mem_append, List.mem_singleton, true_or, or_true]) p
  · have ended := mem_slotEnd hn .failed 1
    rw [part]
    refine Part.deliverAll_finished (d := 1) (by simp only [List.mem_append, ended, true_or, or_true]) ?_ p
    simp only [List.forall_mem_append, List.forall_mem_singleton]
    exact ⟨⟨⟨⟨⟨⟨⟨⟨nofun, CardEngine.cardChange_ends _ _ _⟩, trivial⟩, trivial⟩, recChange_ends (new := .idle) (.inr nofun) _⟩,
      slotEnd_ends _ _ _⟩, slotEnd_ends _ _ _⟩, slotEnd_ends _ _ _⟩, slotEnd_ends _ _ _⟩

end

/-- Settles O43: the two takes by their judgement, and each answer by the purpose of its WRITE. -/
theorem formatsAndEjects : Obligations.FormatsAndEjects := by
  unfold Obligations.FormatsAndEjects
  refine ⟨fun slot s hready => cardFormat_takes hready, fun slot s hready => cardEject_takes hready, fun s d hf hd hm hq =>
    ⟨fun hp hc hs hi => writeAnswer_formats hf hd hm hp hc hs hi, fun k hp hc hr hs _ => writeAnswer_closes hf hd hm hp hc hs,
      fun k hp hr hc _ => ?_⟩⟩
  have answered := Job.writeAnswer_failed (j := Job.start s.part.recd) (map := s.part.map) hf hd hr
  have fault : (Job.start s.part.recd).writeAnswer s.part.map false = (Job.start s.part.recd).landed.clipFault s.part.map := by
    obtain hp | hp | hp := hp <;> (rw [hp] at answered; exact answered)
  exact State.onCard_clipFault (f := fun map j => j.writeAnswer map false) (j := (Job.start s.part.recd).landed) hc fault rfl

end Sys2Proof.Machine

end

section
/-! PROOFS. What the card engine does by itself while a clip is open (08 sections 8.6 and 8.7): the buffers it fills and sends. -/

namespace Sys2Proof.Machine

section

variable {c : CardEngine} {j : RecWork} {k : OpenClip} {map : RegionMap}

/-! ### A staging buffer that is filled or sent (R146) -/

/-- A buffer before and after the card engine has asked for bytes or issued a command: only an EMPTY one is begun anew, and only a
WAITING one is sent. -/
structure StagingBuffer.Served (old new : StagingBuffer) : Prop where
  kept : old.state ≠ .empty → new.data = old.data ∧ new.retried = old.retried
  cleared : old.data = [] → new.data = []
  empty : new.state = .empty → old.state = .empty
  waiting : new.state = .waiting → old.state = .waiting
  writing : new.state = .writing → old.state = .waiting ∨ old.state = .writing

namespace StagingBuffer.Served

theorem refl (b : StagingBuffer) : b.Served b := ⟨fun _ => ⟨rfl, rfl⟩, id, id, id, .inr⟩

theorem trans {a b c : StagingBuffer} (h : a.Served b) (h' : b.Served c) : a.Served c where
  kept ha := by
    obtain ⟨data, retried⟩ := h'.kept (mt h.empty ha)
    obtain ⟨data', retried'⟩ := h.kept ha
    exact ⟨data.trans data', retried.trans retried'⟩
  cleared ha := h'.cleared (h.cleared ha)
  empty hc := h.empty (h'.empty hc)
  waiting hc := h.waiting (h'.waiting hc)
  writing hc := (h'.writing hc).elim (fun hb => .inl (h.waiting hb)) h.writing

theorem begun {b : StagingBuffer} (h : b.state = .empty) (batch : Nat) : b.Served ⟨.filling, batch, [], false⟩ where
  kept hb := absurd h hb
  cleared _ := rfl
  empty := nofun
  waiting := nofun
  writing := nofun

theorem sent {b : StagingBuffer} (h : b.state = .waiting) : b.Served { b with state := .writing } where
  kept _ := ⟨rfl, rfl⟩
  cleared := id
  empty := nofun
  waiting := nofun
  writing _ := .inl h

end StagingBuffer.Served

theorem CardEngine.buffer_of_bufferIn {st : BufState} {n : BufName} (h : c.bufferIn st = some n) : (c.buffer n).state = st := by
  unfold CardEngine.bufferIn at h
  split at h
  next ha hb =>
    split at h <;> cases h
    · exact of_decide_eq_true ha
    · exact of_decide_eq_true hb
  next ha _ => cases h; exact of_decide_eq_true ha
  next _ hb => cases h; exact of_decide_eq_true hb
  next => cases h

/-- The buffer to fill is one that is FILLING already, or an EMPTY one begun anew (R146). -/
theorem CardEngine.fillTarget_served {n : BufName} {b : StagingBuffer} {new : Bool} (h : c.fillTarget k = some (n, b, new)) :
    (c.buffer n).Served b := by
  unfold CardEngine.fillTarget at h
  split at h
  · cases h
    exact .refl _
  · split_ifs at h
    obtain ⟨m, hm, hn⟩ := Option.map_eq_some_iff.1 h
    cases hn
    exact .begun (CardEngine.buffer_of_bufferIn hm) _

/-! ### What the card engine changes by itself -/

/-- The card engine has gone on by itself with its clip open: what it asks for and issues, the buffers, and the clip's next batch. -/
def Job.Serves (k : OpenClip) (j j' : RecWork) : Prop :=
  ∃ request mount inFlight a b next, j' = j.card (fun c =>
      { c.busied request mount inFlight a b with clip := some { k with nextBatch := next } }) ∧
    j.st.card.bufA.Served a ∧ j.st.card.bufB.Served b

theorem Job.Serves.of_busied (hc : j.st.card.clip = some k) {request : Option CardReq} {mount : Option CardCmd}
    {inFlight : Option InFlight} {a b : StagingBuffer} (ha : j.st.card.bufA.Served a) (hb : j.st.card.bufB.Served b) :
    j.Serves k (j.card fun c => c.busied request mount inFlight a b) := by
  refine ⟨request, mount, inFlight, a, b, k.nextBatch, ?_, ha, hb⟩
  have same : (j.st.card.busied request mount inFlight a b).clip = some k := hc
  unfold Job.card Job.change
  dsimp only
  rw [← same]

theorem Job.Serves.refl (hc : j.st.card.clip = some k) : j.Serves k j :=
  .of_busied (j := j) (request := j.st.card.request) (mount := j.st.card.mountCmd) (inFlight := j.st.card.inFlight) hc (.refl _) (.refl _)

theorem Job.Serves.counted {j' : RecWork} (h : j.Serves k j') :
    j.Serves k (j'.clip fun c => { c with nextBatch := c.nextBatch + 1 }) := by
  obtain ⟨request, mount, inFlight, a, b, next, rfl, ha, hb⟩ := h
  exact ⟨request, mount, inFlight, a, b, next + 1, rfl, ha, hb⟩

theorem Job.requestChunk_serves (hc : j.st.card.clip = some k) (map : RegionMap) : j.Serves k (j.requestChunk map) := by
  unfold Job.requestChunk
  split
  next x offset length hx _ =>
    obtain rfl := Option.some.inj (hc.symm.trans hx)
    split
    · split
      next n b new target =>
        have served := CardEngine.fillTarget_served target
        have asked (request : Option CardReq) : j.Serves k (j.card fun c => { c.setBuffer n b with request := request }) := by
          cases n with
          | a => exact .of_busied (a := b) (b := j.st.card.bufB) hc served (.refl _)
          | b => exact .of_busied (a := j.st.card.bufA) (b := b) hc (.refl _) served
        split_ifs
        · exact (asked _).counted
        · exact asked _
      next => exact .refl hc
    · exact .refl hc
  next => exact .refl hc

theorem Job.makeRequest_serves (hc : j.st.card.clip = some k) (map : RegionMap) : j.Serves k (j.makeRequest map) := by
  have asked (request : Option CardReq) : j.Serves k (j.card fun c => { c with request := request }) :=
    .of_busied (a := j.st.card.bufA) (b := j.st.card.bufB) hc (.refl _) (.refl _)
  unfold Job.makeRequest
  dsimp only
  split
  · exact .refl hc
  · split
    · split
      · split
        · exact asked _
        · exact .refl hc
      · exact Job.requestChunk_serves hc map
    · exact Job.requestChunk_serves hc map

theorem Job.issue_served (j : RecWork) : ∃ m f a b, j.issue = j.card (fun c => c.busied c.request m f a b) ∧
    j.st.card.bufA.Served a ∧ j.st.card.bufB.Served b := by
  unfold Job.issue
  dsimp only
  split
  · exact ⟨j.st.card.mountCmd, j.st.card.inFlight, j.st.card.bufA, j.st.card.bufB, rfl, .refl _, .refl _⟩
  · split
    · exact ⟨_, _, _, _, rfl, .refl _, .refl _⟩
    · split
      · exact ⟨j.st.card.mountCmd, _, j.st.card.bufA, j.st.card.bufB, rfl, .refl _, .refl _⟩
      · split
        · next n _ hn _ =>
          have waits := CardEngine.buffer_of_bufferIn hn
          cases n with
          | a => exact ⟨j.st.card.mountCmd, _, _, _, rfl, .sent waits, .refl _⟩
          | b => exact ⟨j.st.card.mountCmd, _, _, _, rfl, .refl _, .sent waits⟩
        · exact ⟨j.st.card.mountCmd, j.st.card.inFlight, j.st.card.bufA, j.st.card.bufB, rfl, .refl _, .refl _⟩

/-- A CARD request and a card command that the card engine makes by itself (R133, R146). -/
theorem Job.serves_issue (hc : j.st.card.clip = some k) (map : RegionMap) : j.Serves k (j.makeRequest map).issue := by
  obtain ⟨request, mount, inFlight, a, b, next, asked, ha, hb⟩ := Job.makeRequest_serves hc map
  obtain ⟨mount', inFlight', a', b', sent, ha', hb'⟩ := Job.issue_served (j.makeRequest map)
  rw [asked] at sent ha' hb'
  rw [asked, sent]
  exact ⟨request, mount', inFlight', a', b', next, rfl, ha.trans ha', hb.trans hb'⟩

theorem Job.nextUnit_live (hc : j.st.card.clip = some k) (hl : k.live = true) (map : RegionMap) : j.nextUnit map = j := by
  unfold Job.nextUnit
  split
  next hx _ =>
    obtain rfl := Option.some.inj (hc.symm.trans hx)
    rw [hl, Bool.not_true, Bool.and_false, Bool.false_and, if_neg Bool.false_ne_true]
  next => rfl

/-- While a clip is open and needs no unit, the card engine by itself only asks and issues. -/
theorem Job.pump_serves (hr : j.st.card.recState ≠ .stopping) (hc : j.st.card.clip = some k) (hu : j.nextUnit map = j) :
    j.Serves k (j.pump map) := by
  unfold Job.pump
  rw [Job.stopProgress_going hr, hu]
  exact Job.serves_issue hc map

end

end Sys2Proof.Machine

end

section
/-! PROOFS. A unit that commits, one that is retired, and a clip that ends full (08 sections 8.6 to 8.8). -/

namespace Sys2Proof.Machine

section

variable {j : RecWork} {k : OpenClip} {map : RegionMap}

/-! ### A clip that ends full (R150, R152) -/

/-- The closing writes begin (R152). -/
theorem Job.beginClose_eq (j : RecWork) (map : RegionMap) : ∃ m n o, j.beginClose map =
    ⟨{ j.st with card := { j.st.card with
        recState := .closing
        mirror := m
        mirrorWrites := n
        dirJobs := j.st.card.dirJobs ++ [⟨.closeHead, 1, 24, [], false⟩] ++ [⟨.closeMap, 25, 256, [], false⟩] } }, j.out ++ o⟩ := by
  unfold Job.beginClose
  extract_lets j1 j2
  have entered : j1.MirrorsOn j2 := by
    unfold j2
    split
    · exact Job.mirrorPut_on ..
    · exact .refl _
  obtain ⟨m, n, o, worked⟩ := entered.trans (Job.tidyDirectory_on j2 map)
  rw [worked, show j1 = _ from Job.setRec_eq j .closing]
  exact ⟨m, n, recChange j.st.card.recState .closing ++ o, by rw [← List.append_assoc]; rfl⟩

/-- A clip that ends for want of a unit (R150). -/
theorem Job.endFull_eq (j : RecWork) (map : RegionMap) : ∃ m n q request o, j.endFull map =
    ⟨{ j.st with
        ring := j.st.ring.discard map.ringSize
        card := { j.st.card with
          state := .full
          recState := .closing
          clip := j.st.card.clip.map fun c => { c with flags := { c.flags with endedFull := true }, live := false }
          bufA := .blank
          bufB := .blank
          request := request
          mirror := m
          mirrorWrites := n
          dirJobs := q } }, j.out ++ o⟩ := by
  unfold Job.endFull
  extract_lets j1 j2
  have full : j2 = ⟨{ j1.st with card := { j1.st.card with state := .full, recState := .closing } },
      j.out ++ (j1.st.card.cardChange .full ++ [.bus (.raise .cardFilled)] ++ recChange (j1.st.card.recAfter .full) .closing)⟩ := by
    unfold j2
    rw [Job.setRec_eq, Job.setCard_eq]
    simp only [← List.append_assoc]
    rfl
  obtain ⟨m, n, o, closes⟩ := Job.beginClose_eq (j2.ring fun m => m.discard map.ringSize) map
  rw [closes, full]
  exact ⟨m, n, _, _, _, congrArg (Job.mk _) (List.append_assoc ..)⟩

/-! ### Units (R136, R148) -/

/-- A unit that is allocated is the clip's current one, with no batch of it written (R136). -/
theorem Job.allocate_clip (hc : j.st.card.clip = some k) (relocated : Bool) :
    ((j.allocate map relocated).2 = false ∧ (j.allocate map relocated).1 = j) ∨
    ((j.allocate map relocated).2 = true ∧ ∃ k', (j.allocate map relocated).1.st.card.clip = some k' ∧ k'.live = true ∧
      k'.unitCount = k.unitCount ∧ k'.byteLength = k.byteLength ∧ k'.relocated = relocated ∧ k'.batchesDone = 0) := by
  unfold Job.allocate
  split
  next u c _ hx =>
    obtain rfl := Option.some.inj (hc.symm.trans hx)
    extract_lets j1 j2 j3
    have mapped : j.MirrorsOn j2 := by
      refine (Job.mirrorPut_on j map (mapAt u) (leBytes 2 mapEnd)).trans ?_
      unfold j2
      split
      · exact Job.mirrorPut_on ..
      · exact .refl _
    obtain ⟨m, n, o, worked⟩ := mapped
    have clip : j3.st.card.clip = some k := by
      unfold j3
      rw [worked]
      exact hc
    refine .inr ⟨rfl, _, congrArg (Option.map _) clip, rfl, rfl, rfl, rfl, rfl⟩
  next => exact .inl ⟨rfl, rfl⟩

/-- What the card engine's directory work leaves alone. -/
theorem Job.Directs.leaves {j' : RecWork} (h : j.Directs j') : j'.st.card.retired = j.st.card.retired ∧
    j'.st.card.bufA = j.st.card.bufA ∧ j'.st.card.bufB = j.st.card.bufB ∧ j'.st.card.recState = j.st.card.recState ∧
    j.out <+: j'.out := by
  obtain ⟨m, n, free, clip, asked, rfl, -⟩ := h
  exact ⟨rfl, rfl, rfl, rfl, List.prefix_append ..⟩

/-- The unit is retired (R148): it is counted and announced, the buffers are emptied, and the clip goes on in another unit or ends
full. -/
structure Job.Retires (j j' : RecWork) (map : RegionMap) : Prop where
  retired : j'.st.card.retired = saturate32 j.st.card.retired
  bufA : j'.st.card.bufA = .blank
  bufB : j'.st.card.bufB = .blank
  raised : .bus (.raise .unitRetired) ∈ j'.out
  recState : j'.st.card.recState = j.st.card.recState ∨ j'.st.card.recState = .closing
  clip : ∃ k, j'.st.card.clip = some k
  served : j'.nextUnit map = j'

theorem Job.relocate_retires (hc : j.st.card.clip = some k) (map : RegionMap) : j.Retires (j.relocate map) map := by
  unfold Job.relocate
  split
  next hx => cases hc.symm.trans hx
  next c hx =>
    obtain rfl := Option.some.inj (hc.symm.trans hx)
    extract_lets failed chain j1 j2 j3 j4 j5 r j6 j7 j8
    have mapped : j1.Directs j2 := by
      unfold j2
      split
      · exact .mirrorPut ..
      · exact .refl _
    obtain ⟨retired, -, -, recState, -⟩ := ((Job.Directs.mirrorPut j map _ _).trans mapped).leaves
    have clip5 : ∃ k5, j5.st.card.clip = some k5 := by
      have clip2 : j2.st.card.clip.isSome = true := by
        have same := (Job.Directs.trans (.mirrorPut j map _ _) mapped)
        obtain ⟨m, n, free, clip, asked, worked, opened⟩ := same
        rw [worked]
        rw [hc] at opened
        cases clip with
        | none => cases opened
        | some x => rfl
      obtain ⟨k2, hk2⟩ := Option.isSome_iff_exists.1 clip2
      exact ⟨_, congrArg (Option.map _) hk2⟩
    obtain ⟨k5, hk5⟩ := clip5
    have entered : j6.MirrorsOn j7 := by
      unfold j7
      split
      · split
        · exact Job.mirrorPut_on ..
        · exact .refl _
      · exact .refl _
    have directs : j5.Directs j6 := Job.Directs.allocate ..
    obtain ⟨retired6, bufA6, bufB6, recState6, out6⟩ := directs.leaves
    obtain ⟨m, n, o, worked⟩ := entered
    have raised6 : RecOut.bus (.raise .unitRetired) ∈ j6.out :=
      out6.subset (List.mem_append_right _ (List.mem_singleton.2 rfl))
    have j8eq : j8 = ⟨{ j6.st with
        ring := j6.st.ring.relocationNotice map.ringSize failed k.unitStart
        card := { j6.st.card with mirror := m, mirrorWrites := n } }, j6.out ++ o⟩ := by
      unfold j8
      rw [worked]
      rfl
    have clip8 {x : OpenClip} (h : j6.st.card.clip = some x) : j8.st.card.clip = some x := by
      rw [j8eq]
      exact h
    have retired8 : j8.st.card.retired = saturate32 j.st.card.retired := by
      rw [j8eq]
      exact retired6.trans (congrArg saturate32 retired)
    have raised8 : RecOut.bus (.raise .unitRetired) ∈ j8.out := by
      rw [j8eq]
      exact List.mem_append_left _ raised6
    obtain ⟨none, same⟩ | ⟨some, k', hk', live, -⟩ := Job.allocate_clip (map := map) hk5 true
    · rw [if_neg (by exact Bool.eq_false_iff.1 none)]
      have ends : ∃ x, j8.st.card.clip.map (fun c => ({ c with
          flags := { c.flags with endedFull := true }, live := false } : OpenClip)) = some x :=
        ⟨_, congrArg (Option.map _) (clip8 ((congrArg (·.st.card.clip) same).trans hk5))⟩
      obtain ⟨m', n', q, request, o', ended⟩ := Job.endFull_eq j8 map
      rw [ended]
      exact ⟨retired8, rfl, rfl, List.mem_append_left _ raised8, .inr rfl, ends, Job.nextUnit_undrained rfl map⟩
    · rw [if_pos (by exact some)]
      refine ⟨retired8, ?_, ?_, raised8, .inl ?_, ⟨k', clip8 hk'⟩, Job.nextUnit_live (clip8 hk') live map⟩
      all_goals rw [j8eq]
      · exact bufA6
      · exact bufB6
      · exact recState6.trans recState

/-! ### A unit that commits (R147) -/

/-- What a clip has committed, and that its unit is no replacement and has no batch written (R147, R148). -/
def OpenClip.Tallies (units bytes : Nat) (k : OpenClip) : Prop :=
  k.unitCount = units ∧ k.byteLength = bytes ∧ k.relocated = false ∧ k.batchesDone = 0

/-- A next unit, or the end of the clip for want of one, leaves what has been committed (R147, R150). -/
theorem Job.nextUnit_tallies {u l : Nat} (hc : j.st.card.clip = some k) (hk : k.Tallies u l) (map : RegionMap) :
    ∃ k', (j.nextUnit map).st.card.clip = some k' ∧ k'.Tallies u l := by
  obtain ⟨units, bytes, hrel, batches⟩ := hk
  unfold Job.nextUnit
  split
  next hx _ =>
    split
    · extract_lets r
      obtain ⟨none, same⟩ | ⟨some, k', hk', -, units', bytes', rel', batches'⟩ := Job.allocate_clip (map := map) hc false
      · rw [if_neg (by exact Bool.eq_false_iff.1 none)]
        obtain ⟨m, n, q, request, o, ended⟩ := Job.endFull_eq j map
        rw [ended]
        exact ⟨_, congrArg (Option.map _) hc, units, bytes, hrel, batches⟩
      · rw [if_pos (by exact some)]
        exact ⟨k', hk', units'.trans units, bytes'.trans bytes, rel', batches'⟩
    · exact ⟨k, hc, units, bytes, hrel, batches⟩
  next => exact ⟨k, hc, units, bytes, hrel, batches⟩

/-- All that the card engine does by itself after a commit leaves what has been committed. -/
theorem Job.pump_tallies {u l : Nat} (hr : j.st.card.recState ≠ .stopping) (hc : j.st.card.clip = some k) (hk : k.Tallies u l)
    (map : RegionMap) : ∃ k', (j.pump map).st.card.clip = some k' ∧ k'.Tallies u l := by
  obtain ⟨k', hc', tallies⟩ := Job.nextUnit_tallies hc hk map
  obtain ⟨request, mount, inFlight, a, b, next, served, -, -⟩ := Job.serves_issue hc' map
  unfold Job.pump
  rw [Job.stopProgress_going hr, served]
  exact ⟨_, rfl, tallies⟩

end

end Sys2Proof.Machine

end

section
/-! PROOFS. The card's answers in a mount and in a clip (08 sections 8.1 to 8.8). -/

namespace Sys2Proof.Machine

section

variable {s : State} {j : RecWork} {k : OpenClip} {map : RegionMap} {cmd : CardCmd} {first count : Nat}

/-! ### The answer to the command in flight (R133) -/

theorem Job.identAnswer_current (h : j.st.card.inFlight = some ⟨.ident, false⟩) (blocks : Nat) (wp : Bool) :
    j.identAnswer blocks wp = if blocks < 8192 then j.landed.plainFault else j.landed.card fun c =>
      { c with writeProtect := wp, unitTotal := min 65533 (blocks / 4096 - 1), mountCmd := some (.read 0 256) } := by
  unfold Job.identAnswer
  rw [h]
  rfl

theorem Job.readAnswer_error (h : j.st.card.inFlight = some ⟨.read first count, false⟩) :
    j.readAnswer map none = j.landed.plainFault := by
  unfold Job.readAnswer
  rw [h]
  rfl

theorem Job.readAnswer_data (h : j.st.card.inFlight = some ⟨.read first count, false⟩) (bytes : List Byte) :
    j.readAnswer map (some bytes) =
      if first = 0 then (j.landed.mirrorFill map (512 * first) bytes).card fun c => { c with mountCmd := some (.read 256 25) }
      else (j.landed.mirrorFill map (512 * first) bytes).checkDirectory map := by
  unfold Job.readAnswer
  rw [h]
  rfl

theorem Job.writeAnswer_batch {n : BufName} (h : j.st.card.inFlight = some ⟨.writeBatch first n, false⟩) (ok : Bool) :
    j.writeAnswer map ok = if ok then j.landed.batchWritten map n else j.landed.batchFailed map n := by
  unfold Job.writeAnswer
  rw [h]
  rfl

theorem Job.timeout_current (h : j.st.card.inFlight = some ⟨cmd, false⟩) : j.timeout map = j.landed.commandFailed map cmd := by
  unfold Job.timeout
  rw [h]
  rfl

/-! ### The answer to a command that has been given up (R133) -/

theorem Job.timeout_abandoned (h : j.st.card.inFlight = some ⟨cmd, true⟩) : j.timeout map = j.landed := by
  unfold Job.timeout
  rw [h]
  rfl

theorem Job.identAnswer_abandoned (h : j.st.card.inFlight = some ⟨.ident, true⟩) (blocks : Nat) (wp : Bool) :
    j.identAnswer blocks wp = j.landed := by
  unfold Job.identAnswer
  rw [h]
  rfl

theorem Job.readAnswer_abandoned (h : j.st.card.inFlight = some ⟨.read first count, true⟩) (data : Option (List Byte)) :
    j.readAnswer map data = j.landed := by
  unfold Job.readAnswer
  rw [h]
  rfl

theorem Job.writeAnswer_abandoned (h : j.st.card.inFlight = some ⟨cmd, true⟩)
    (hw : (∃ first count, cmd = .writeDir first count) ∨ ∃ first buf, cmd = .writeBatch first buf) (ok : Bool) :
    j.writeAnswer map ok = j.landed := by
  unfold Job.writeAnswer
  obtain ⟨first, count, rfl⟩ | ⟨first, buf, rfl⟩ := hw <;> (rw [h]; rfl)

/-- It only frees the link to the card, where the card engine has nothing to do by itself. -/
theorem State.onCard_landed {f : RegionMap → RecWork → RecWork} (h : f s.part.map (Job.start s.part.recd) = (Job.start s.part.recd).landed)
    (hq : s.part.recd.card.Quiet) : s.onCard f = s.onPart fun p =>
      { p with recd := { p.recd with card := { p.recd.card with inFlight := none } } } :=
  (State.onCard_rests h (.inl hq)).trans (State.onPart_congr rfl)

/-! ### A mount (R138) -/

/-- A fault in a mount: FAULT, the link free and CARD_FAULT raised. -/
theorem State.onCard_mountFault {f : RegionMap → RecWork → RecWork}
    (h : f s.part.map (Job.start s.part.recd) = (Job.start s.part.recd).landed.plainFault) (hc : s.part.recd.card.clip = none) :
    ∃ t, (Host.Outcome.next (s.onCard f) : Host.Outcome State Fault Refusal) = .next t ∧ t.part.recd.card.state = .fault ∧
      t.part.recd.card.inFlight = none ∧ t.part.bus.report.pending &&& Factor.cardFault.bit ≠ 0 := by
  rw [Job.plainFault_eq] at h
  obtain ⟨p, -, recd, part⟩ := State.onCard_leaves h (.inl ⟨hc, rfl, rfl⟩)
  refine ⟨_, rfl, ?_⟩
  rw [recd]
  refine ⟨rfl, rfl, ?_⟩
  rw [part]
  exact Part.deliverAll_raised (f := .cardFault) (List.mem_append_left _ (List.mem_append_right _ (List.mem_singleton.2 rfl))) p

/-- A mount command that is ready is issued where the card engine has nothing else at hand (R133; log 46). -/
theorem Job.pump_mount (hc : j.st.card.clip = none) (hd : j.st.card.dirJobs = []) (hf : j.st.card.inFlight = none)
    (hm : j.st.card.mountCmd = some cmd) (map : RegionMap) :
    j.pump map = j.card fun c => { c with inFlight := some ⟨cmd, false⟩, mountCmd := none } := by
  have stops : j.stopProgress map = j := by
    unfold Job.stopProgress
    rw [hc]
  have unit : j.nextUnit map = j := by
    unfold Job.nextUnit
    rw [hc]
  have chunk : j.requestChunk map = j := by
    unfold Job.requestChunk
    rw [hc]
  have request : j.makeRequest map = j := by
    unfold Job.makeRequest
    dsimp only
    rw [hd, chunk]
    exact ite_self j
  unfold Job.pump
  rw [stops, unit, request]
  exact Job.issue_mount hf hm

end

end Sys2Proof.Machine

end

section
/-! PROOFS. The directory of a card that is mounted (08 section 8.3). -/

namespace Sys2Proof.Machine

section

variable {s : State} {j : RecWork} {map : RegionMap}

/-- The card state at the end of a mount (R138 step 6). -/
def CardEngine.mounted (c : CardEngine) : CardState :=
  if c.countFree = 0 ∨ c.freeEntry = none then .full else if c.writeProtect then .writeProtected else .ready

/-- The last steps of a mount (R138). -/
theorem Job.finishMount_eq (j : RecWork) : j.finishMount =
    ⟨{ j.st with card := { j.st.card with
        freeUnits := j.st.card.countFree
        state := j.st.card.mounted
        recState := j.st.card.recAfter j.st.card.mounted } },
      j.out ++ j.st.card.cardChange j.st.card.mounted ++ [.bus (.raise .cardIn)]⟩ := by
  have counted (st : CardState) : ((j.card fun c => { c with freeUnits := j.st.card.countFree }).setCard st).ask (.raise .cardIn) =
      ⟨{ j.st with card := { j.st.card with
        freeUnits := j.st.card.countFree
        state := st
        recState := j.st.card.recAfter st } }, j.out ++ j.st.card.cardChange st ++ [.bus (.raise .cardIn)]⟩ := by
    rw [Job.setCard_eq]
    rfl
  unfold Job.finishMount CardEngine.mounted
  dsimp only
  split_ifs
  · exact counted .full
  · exact counted .writeProtected
  · exact counted .ready

/-- A directory that fails its check leaves the card UNFORMATTED (R138 step 3). -/
theorem Job.checkDirectory_unformatted (h : j.st.card.directoryOk = false) : j.checkDirectory map =
    ⟨{ j.st with card := { j.st.card with state := .unformatted, recState := j.st.card.recAfter .unformatted } },
      j.out ++ j.st.card.cardChange .unformatted ++ [.bus (.raise .cardIn)]⟩ := by
  unfold Job.checkDirectory
  dsimp only
  rw [h, Bool.not_false, if_pos rfl, Job.setCard_eq]
  rfl

/-- A sound directory with no OPEN entry ends the mount (R138). -/
theorem Job.checkDirectory_sound (h : j.st.card.directoryOk = true) (hn : ∀ e < 96, j.st.card.entryState e ≠ 1) :
    j.checkDirectory map = j.finishMount := by
  have none : ((List.range 96).any fun e => decide (j.st.card.entryState e = 1)) = false :=
    List.any_eq_false.2 fun e he => by
      rw [decide_eq_true_iff]
      exact hn e (List.mem_range.1 he)
  unfold Job.checkDirectory
  dsimp only
  rw [h, Bool.not_true, if_neg Bool.false_ne_true, none, if_neg Bool.false_ne_true]

theorem Job.markDamaged_on (j : RecWork) (map : RegionMap) : j.MirrorsOn (j.markDamaged map) := by
  have each (es : List Nat) (j : RecWork) : j.MirrorsOn (es.foldl (fun j e =>
      if j.st.card.entryState e = 1 then
        j.mirrorPut map (entryAt e) { ClipFields.ofBytes (j.st.card.image.readBytes (entryAt e) 128) with
          state := 3, flags := (ClipFields.ofBytes (j.st.card.image.readBytes (entryAt e) 128)).flags % 128 }.bytes
      else j) j) := by
    induction es generalizing j with
    | nil => exact .refl j
    | cons e es ih =>
      refine Job.MirrorsOn.trans ?_ (ih _)
      dsimp only
      split_ifs
      · exact Job.mirrorPut_on ..
      · exact .refl j
  exact each _ j

theorem Job.issue_nothing (hc : j.st.card.clip = none) (hm : j.st.card.mountCmd = none)
    (hr : (j.st.card.dirJobs.head?.filter fun d => decide (512 * d.count ≤ d.data.length)) = none) : j.issue = j := by
  unfold Job.issue
  dsimp only
  rw [hm, hr, hc]
  split
  · rfl
  · cases j.st.card.bufferIn .waiting <;> rfl

/-- With no clip open and a directory WRITE whose bytes are still to be read, the card engine issues no command. -/
theorem Job.pump_unread {d : DirJob} {ds : List DirJob} (hc : j.st.card.clip = none) (hm : j.st.card.mountCmd = none)
    (hd : j.st.card.dirJobs = d :: ds) (hl : d.data.length < 512 * d.count) (map : RegionMap) :
    (j.pump map).st.card.inFlight = j.st.card.inFlight := by
  have stops : j.stopProgress map = j := by
    unfold Job.stopProgress
    rw [hc]
  have unit : j.nextUnit map = j := by
    unfold Job.nextUnit
    rw [hc]
  have chunk : j.requestChunk map = j := by
    unfold Job.requestChunk
    rw [hc]
  have notRead : (j.st.card.dirJobs.head?.filter fun d => decide (512 * d.count ≤ d.data.length)) = none := by
    rw [hd]
    exact Option.filter_some_neg (by simpa using hl)
  obtain ⟨r, asked⟩ := Job.makeRequest_unchunked chunk
  unfold Job.pump
  rw [stops, unit, asked, Job.issue_nothing (j := j.card fun c => { c with request := r }) hc hm notRead]
  rfl

/-- Where an OPEN entry is found no card command is in flight afterwards either: its DAMAGED rewrite waits for its bytes, or the card
is write-protected (R138 step 4). -/
theorem Job.checkDirectory_idle (hc : j.st.card.clip = none) (hd : j.st.card.dirJobs = []) (hm : j.st.card.mountCmd = none)
    (map : RegionMap) : ((j.checkDirectory map).pump map).st.card.inFlight = j.st.card.inFlight := by
  have finished {k : RecWork} (hk : j.MirrorsOn k) : (k.finishMount.pump map).st.card.inFlight = j.st.card.inFlight := by
    obtain ⟨m, n, o, rfl⟩ := hk
    rw [Job.finishMount_eq, Job.pump_quiet (by exact ⟨hc, hd, hm⟩)]
  have rewritten {k : RecWork} (hk : j.MirrorsOn k) :
      ((k.writeDirectory .damaged 1 24).pump map).st.card.inFlight = j.st.card.inFlight := by
    obtain ⟨m, n, o, rfl⟩ := hk
    have unread : ([] : List Byte).length < 512 * 24 := by decide
    refine (Job.pump_unread (d := ⟨.damaged, 1, 24, [], false⟩) (ds := []) ?_ ?_ ?_ unread map).trans ?_
    · exact hc
    · exact hm
    · exact congrArg (· ++ _) hd
    · rfl
  have marked : j.MirrorsOn ((j.markDamaged map).tidyDirectory map) := (Job.markDamaged_on j map).trans (Job.tidyDirectory_on _ map)
  unfold Job.checkDirectory
  dsimp only
  split
  · rw [Job.setCard_eq, Job.pump_quiet (by exact ⟨hc, hd, hm⟩)]
    rfl
  · split
    · split
      · exact finished marked
      · exact rewritten marked
    · exact finished (.refl j)

theorem CardEngine.freeEntry_eq_none {c : CardEngine} : c.freeEntry = none ↔ ∀ e < 96, c.entryState e ≠ 0 := by
  unfold CardEngine.freeEntry
  rw [List.find?_eq_none]
  simp only [List.mem_range, decide_eq_true_eq]

end

end Sys2Proof.Machine

end

section
/-! PROOFS. The card's answers (08 sections 8.1 to 8.8). -/

namespace Sys2Proof.Machine

section

variable {s : State} {k : OpenClip}

/-- An event at the card engine leaves its work delivered, what the card engine then does by itself included. -/
theorem State.onCard_carries {f : RegionMap → RecWork → RecWork} {j : RecWork}
    (h : f s.part.map (Job.start s.part.recd) = j) :
    ∃ p : Part, (s.onCard f).mem = s.mem ∧ (s.onCard f).part.recd = (j.pump s.part.map).st ∧
      (s.onCard f).part = (j.pump s.part.map).out.foldl Part.deliverRec p := by
  rw [State.onCard_pumped (r := (j.pump s.part.map).st) (out := (j.pump s.part.map).out) (congrArg (Job.pump · s.part.map) h)]
  exact ⟨{ s.part with recd := (j.pump s.part.map).st }, rfl, Part.deliverAll_recd .., rfl⟩

/-! ### Answers in a mount (R138) -/

/-- The IDENT's answer (R138 step 1; log 46). -/
theorem identAnswer_mounts (hc : s.part.recd.card.clip = none) (hd : s.part.recd.card.dirJobs = [])
    (hm : s.part.recd.card.mountCmd = none) (hf : s.part.recd.card.inFlight = some ⟨.ident, false⟩) {blocks : Nat} (wp : Bool)
    (hb : 8192 ≤ blocks) : exec (.cardIdentAnswer (.inTime blocks) wp) s = .next (s.onPart fun p =>
      { p with recd := { p.recd with card :=
        { p.recd.card with
          writeProtect := wp
          unitTotal := min 65533 (blocks / 4096 - 1)
          inFlight := some ⟨.read 0 256, false⟩ } } }) := by
  have answered := (Job.identAnswer_current (j := Job.start s.part.recd) hf blocks wp).trans (if_neg (Nat.not_lt.2 hb))
  have pumped := Job.pump_mount (j := (Job.start s.part.recd).identAnswer blocks wp) (cmd := .read 0 256)
    (by rw [answered]; exact hc) (by rw [answered]; exact hd) (by rw [answered]; rfl) (by rw [answered]; rfl) s.part.map
  rw [answered] at pumped
  refine congrArg _ ((State.onCard_pumped (f := fun _ j => j.identAnswer blocks wp)
    ((congrArg (Job.pump · s.part.map) answered).trans pumped)).trans (State.onPart_congr ?_))
  change ({ s.part with recd := { s.part.recd with card := { s.part.recd.card with
    writeProtect := wp
    unitTotal := min 65533 (blocks / 4096 - 1)
    inFlight := some ⟨.read 0 256, false⟩
    mountCmd := none } } } : Part) = _
  rw [← hm]

/-- The first READ's data (R138 step 2; log 22, log 24, log 46). -/
theorem readAnswer_mounts (hc : s.part.recd.card.clip = none) (hd : s.part.recd.card.dirJobs = [])
    (hf : s.part.recd.card.inFlight = some ⟨.read 0 256, false⟩) {data : List Byte} (hl : data.length = 131072)
    (hm : s.part.recd.card.mirror = none) :
    ∃ t, exec (.cardReadAnswer (.inTime (some data))) s = .next t ∧ t.mem = s.mem ∧
      t.part.recd.card.inFlight = some ⟨.read 256 25, false⟩ ∧
      (∀ x < 131072, t.part.recd.card.image.read x = data.getD x 0) ∧
      t.part.bus.partQ = s.part.bus.partQ ++ [.mirror s.part.map.privBase data] := by
  have asked : s.part.recd.card.answers (some data) = true := by
    unfold CardEngine.answers
    rw [hf]
    exact decide_eq_true hl
  have answered := (Job.readAnswer_data (j := Job.start s.part.recd) (map := s.part.map) hf data).trans (if_pos rfl)
  have pumped := Job.pump_mount (j := (Job.start s.part.recd).readAnswer s.part.map (some data)) (cmd := .read 256 25)
    (by rw [answered]; exact hc) (by rw [answered]; exact hd) (by rw [answered]; rfl) (by rw [answered]; rfl) s.part.map
  rw [answered] at pumped
  have carried := State.onCard_pumped (s := s) (f := fun map j => j.readAnswer map (some data))
    ((congrArg (Job.pump · s.part.map) answered).trans pumped)
  refine ⟨_, (if_pos asked).trans (congrArg Host.Outcome.next carried), rfl, rfl, fun x hx => ?_, rfl⟩
  have blank : s.part.recd.card.image = [] := by
    unfold CardEngine.image
    rw [hm]
    rfl
  have filled : ((s.part.recd.card.image.writeBytes (512 * 0) data).read x) = data.getD x 0 := by
    rw [blank, Memory.read_writeBytes rfl, if_pos ⟨Nat.zero_le x, by omega⟩]
    rfl
  exact filled

/-- The second READ's data: the directory is checked (R138 steps 3 to 6). -/
theorem readAnswer_checks (hc : s.part.recd.card.clip = none) (hd : s.part.recd.card.dirJobs = [])
    (hm : s.part.recd.card.mountCmd = none) (hf : s.part.recd.card.inFlight = some ⟨.read 256 25, false⟩) {data : List Byte}
    (hl : data.length = 12800) (hs : s.part.recd.card.state = .mounting) :
    let c := s.part.recd.card
    let d : CardEngine := { c with mirror := some (c.image.writeBytes 131072 data) }
    let left := ((List.range c.unitTotal).map (· + 1)).countP fun u => d.image.readNat (0x3200 + 2 * u) 2 = 0
    ∃ t, exec (.cardReadAnswer (.inTime (some data))) s = .next t ∧ t.mem = s.mem ∧
      t.part.recd.card.inFlight = none ∧
      (d.directoryOk = false → t.part.recd.card.state = .unformatted ∧
        t.part.bus.report.pending &&& Factor.cardIn.bit ≠ 0) ∧
      (d.directoryOk = true → (∀ e < 96, d.entryState e ≠ 1) →
        t.part.bus.report.pending &&& Factor.cardIn.bit ≠ 0 ∧ t.part.recd.card.freeUnits = left ∧
        (left = 0 ∨ (∀ e < 96, d.entryState e ≠ 0) → t.part.recd.card.state = .full) ∧
        (left ≠ 0 → (∃ e < 96, d.entryState e = 0) →
          t.part.recd.card.state = (if c.writeProtect then CardState.writeProtected else CardState.ready)) ∧
        (t.part.recd.card.state = .ready → c.recState = .idle → t.part.recd.card.recState = .standby)) := by
  intro c d left
  have asked : s.part.recd.card.answers (some data) = true := by
    unfold CardEngine.answers
    rw [hf]
    exact decide_eq_true hl
  let j : RecWork := (Job.start s.part.recd).landed.mirrorFill s.part.map (512 * 256) data
  have answered : (Job.start s.part.recd).readAnswer s.part.map (some data) = j.checkDirectory s.part.map :=
    (Job.readAnswer_data (j := Job.start s.part.recd) (map := s.part.map) hf data).trans (if_neg nofun)
  obtain ⟨p, mem, recd, part⟩ := State.onCard_carries (s := s) (f := fun map j => j.readAnswer map (some data)) answered
  refine ⟨_, if_pos asked, mem, ?_⟩
  rw [recd, part]
  refine ⟨Job.checkDirectory_idle (j := j) hc hd hm s.part.map, fun hno => ?_, fun hok hopen => ?_⟩
  · have settled : (j.checkDirectory s.part.map).pump s.part.map = _ :=
      (congrArg (Job.pump · s.part.map) (Job.checkDirectory_unformatted (j := j) (map := s.part.map) hno)).trans
        (Job.pump_quiet (by exact ⟨hc, hd, hm⟩) s.part.map)
    rw [settled]
    exact ⟨rfl, Part.deliverAll_raised (f := .cardIn) (List.mem_append_right _ (List.mem_singleton.2 rfl)) _⟩
  · have settled : (j.checkDirectory s.part.map).pump s.part.map = _ :=
      (congrArg (Job.pump · s.part.map) ((Job.checkDirectory_sound (j := j) (map := s.part.map) hok hopen).trans
        (Job.finishMount_eq j))).trans (Job.pump_quiet (by exact ⟨hc, hd, hm⟩) s.part.map)
    rw [settled]
    have mounted : j.st.card.mounted =
        if left = 0 ∨ d.freeEntry = none then CardState.full else if c.writeProtect then .writeProtected else .ready := rfl
    refine ⟨Part.deliverAll_raised (f := .cardIn) (List.mem_append_right _ (List.mem_singleton.2 rfl)) _, rfl, fun h => ?_,
      fun hl he => ?_, fun hr hi => ?_⟩
    · exact mounted.trans (if_pos (h.imp_right CardEngine.freeEntry_eq_none.2))
    · refine mounted.trans (if_neg ?_)
      rintro (h | h)
      · exact hl h
      · obtain ⟨e, hlt, hz⟩ := he
        exact CardEngine.freeEntry_eq_none.1 h e hlt hz
    · change j.st.card.recAfter j.st.card.mounted = .standby
      rw [show j.st.card.mounted = .ready from hr]
      unfold CardEngine.recAfter
      rw [show j.st.card.state = .mounting from hs, show j.st.card.recState = .idle from hi]
      rfl

end

end Sys2Proof.Machine

end

section
/-! PROOFS. The card's answers while a clip is open (08 sections 8.6 to 8.8). -/

namespace Sys2Proof.Machine

section

variable {s : State} {k : OpenClip} {j : RecWork} {map : RegionMap} {buf : BufName} {first : Nat}

/-! ### The answer to a batch WRITE (R146 to R149) -/

/-- A batch that is written frees its buffer and counts for the clip (R146). -/
def Job.batchDone (j : RecWork) (n : BufName) : RecWork :=
  (j.card fun c => c.setBuffer n .blank).clip fun c => { c with batchesDone := c.batchesDone + 1 }

theorem Job.batchDone_card (j : RecWork) (n : BufName) : (j.batchDone n).st.card.recState = j.st.card.recState ∧
    (j.batchDone n).st.card.clip = j.st.card.clip.map (fun c => { c with batchesDone := c.batchesDone + 1 }) ∧
    (j.batchDone n).st.card.buffer n = .blank ∧ (j.batchDone n).st.ring = j.st.ring := by
  cases n <;> exact ⟨rfl, rfl, rfl, rfl⟩

theorem Job.batchWritten_incomplete (hc : j.st.card.clip = some k) (h : ({ k with batchesDone := k.batchesDone + 1 } : OpenClip).complete = false) :
    j.batchWritten map buf = j.batchDone buf := by
  obtain ⟨-, clip, -, -⟩ := j.batchDone_card buf
  rw [hc] at clip
  change (j.batchDone buf).commitIfComplete map = _
  unfold Job.commitIfComplete
  rw [clip]
  exact if_neg (Bool.eq_false_iff.1 h)

theorem Job.batchWritten_complete (hc : j.st.card.clip = some k) (h : ({ k with batchesDone := k.batchesDone + 1 } : OpenClip).complete = true) :
    j.batchWritten map buf = (j.batchDone buf).commitUnit map := by
  obtain ⟨-, clip, -, -⟩ := j.batchDone_card buf
  rw [hc] at clip
  change (j.batchDone buf).commitIfComplete map = _
  unfold Job.commitIfComplete
  rw [clip]
  exact if_pos h

/-- A unit that commits adds its bytes to the clip (R147). -/
theorem Job.commitUnit_clip (hc : j.st.card.clip = some k) (map : RegionMap) :
    (j.commitUnit map).st.card.recState = j.st.card.recState ∧
    ∃ k', (j.commitUnit map).st.card.clip = some k' ∧ k'.Tallies (k.unitCount + 1) (k.byteLength + k.unitBytes) := by
  unfold Job.commitUnit
  split
  next hx => cases hc.symm.trans hx
  next => exact ⟨rfl, _, congrArg (Option.map _) hc, rfl, rfl, rfl, rfl⟩

theorem Job.batchFailed_retries (h : (j.st.card.buffer buf).retried = false) : j.batchFailed map buf =
    j.card fun c => c.setBuffer buf { j.st.card.buffer buf with state := .waiting, retried := true } := by
  unfold Job.batchFailed
  dsimp only
  rw [h]
  rfl

theorem Job.batchFailed_again (hc : j.st.card.clip = some k) (h : (j.st.card.buffer buf).retried = true) : j.batchFailed map buf =
    if k.relocated then j.clipFault map else j.relocate map := by
  unfold Job.batchFailed
  dsimp only
  rw [h, hc]
  rfl

/-! ### The rows -/

theorem exec_readAnswer {data : Option (List Byte)} (h : s.part.recd.card.answers data = true) :
    exec (.cardReadAnswer (.inTime data)) s = .next (s.onCard fun map j => j.readAnswer map data) := if_pos h

theorem CardEngine.answers_error (c : CardEngine) : c.answers none = true := by
  unfold CardEngine.answers
  split
  next h => cases h
  next => rfl

theorem CardEngine.answers_data {c : CardEngine} {count : Nat} {abandoned : Bool} {data : List Byte}
    (hf : c.inFlight = some ⟨.read first count, abandoned⟩) (hl : data.length = 512 * count) : c.answers (some data) = true := by
  unfold CardEngine.answers
  rw [hf]
  exact decide_eq_true hl

/-- A batch WRITE that is not the unit's last (R146). -/
theorem writeAnswer_batchOk (hf : s.part.recd.card.inFlight = some ⟨.writeBatch first buf, false⟩) (hc : s.part.recd.card.clip = some k)
    (hr : s.part.recd.card.recState = .recording) (hl : k.live = true) (hn : k.finishing = false) (hb : k.batchesDone + 1 < 16) :
    ∃ t, exec (.cardWriteAnswer (.inTime true)) s = .next t ∧ t.mem = s.mem ∧
      t.part.recd.card.clip.map OpenClip.batchesDone = some (k.batchesDone + 1) ∧
      (t.part.recd.card.buffer buf).state ≠ .writing ∧ t.part.recd.ring = s.part.recd.ring := by
  have incomplete : ({ k with batchesDone := k.batchesDone + 1 } : OpenClip).complete = false := by
    unfold OpenClip.complete
    dsimp only
    rw [hn, decide_eq_false (Nat.not_le.2 hb), Bool.false_and, Bool.or_false, Bool.and_false]
  let j := (Job.start s.part.recd).landed.batchDone buf
  have answered : (Job.start s.part.recd).writeAnswer s.part.map true = j :=
    (Job.writeAnswer_batch (j := Job.start s.part.recd) (map := s.part.map) hf true).trans
      (Job.batchWritten_incomplete (j := (Job.start s.part.recd).landed) hc incomplete)
  obtain ⟨recState, clip, blank, ring⟩ := (Job.start s.part.recd).landed.batchDone_card buf
  rw [show (Job.start s.part.recd : RecWork).landed.st.card.clip = some k from hc] at clip
  obtain ⟨request, mount, inFlight, a, b, next, served, ha, hb⟩ := Job.pump_serves (j := j) (map := s.part.map)
    (by rw [recState]; exact fun h => by cases hr.symm.trans h) clip (Job.nextUnit_live clip hl _)
  obtain ⟨p, mem, recd, -⟩ := State.onCard_carries (s := s) (f := fun map j => j.writeAnswer map true) answered
  refine ⟨_, rfl, mem, ?_⟩
  rw [recd, served]
  refine ⟨rfl, fun hw => ?_, ring⟩
  have was : (j.st.card.buffer buf).state = .waiting ∨ (j.st.card.buffer buf).state = .writing := by
    cases buf with
    | a => exact ha.writing hw
    | b => exact hb.writing hw
  rw [blank] at was
  obtain h | h := was <;> cases h

/-- The first ERROR or timeout of a batch WRITE (R148). -/
theorem batchFailed_retries (hc : s.part.recd.card.clip = some k)
    (hr : s.part.recd.card.recState = .recording) (hl : k.live = true) (hb : (s.part.recd.card.buffer buf).retried = false)
    {f : RegionMap → RecWork → RecWork}
    (h : f s.part.map (Job.start s.part.recd) = (Job.start s.part.recd).landed.batchFailed s.part.map buf) :
    ∃ t, (Host.Outcome.next (s.onCard f) : Host.Outcome State Fault Refusal) = .next t ∧ t.mem = s.mem ∧
      (t.part.recd.card.buffer buf).retried = true ∧
      (t.part.recd.card.buffer buf).data = (s.part.recd.card.buffer buf).data ∧ t.part.recd.card.recState = .recording ∧
      t.part.recd.card.state = s.part.recd.card.state := by
  have landed : (Job.start s.part.recd : RecWork).landed.st.card.buffer buf = s.part.recd.card.buffer buf := by cases buf <;> rfl
  have retries := Job.batchFailed_retries (j := (Job.start s.part.recd).landed) (map := s.part.map) ((congrArg _ landed).trans hb)
  rw [landed] at retries
  let again : StagingBuffer := { s.part.recd.card.buffer buf with state := .waiting, retried := true }
  let j : RecWork := (Job.start s.part.recd).landed.card fun c => c.setBuffer buf again
  have kept : j.st.card.buffer buf = again ∧ j.st.card.recState = s.part.recd.card.recState ∧
      j.st.card.state = s.part.recd.card.state ∧ j.st.card.clip = s.part.recd.card.clip := by
    cases buf <;> exact ⟨rfl, rfl, rfl, rfl⟩
  obtain ⟨buffer, recState, state, clip⟩ := kept
  have clip := clip.trans hc
  obtain ⟨request, mount, inFlight, a, b, next, served, ha, hb⟩ := Job.pump_serves (j := j) (map := s.part.map)
    (by rw [recState]; exact fun h => by cases hr.symm.trans h) clip (Job.nextUnit_live clip hl _)
  obtain ⟨p, mem, recd, -⟩ := State.onCard_carries (s := s) (f := f) (h.trans retries)
  have same : ((j.pump s.part.map).st.card.buffer buf).data = again.data ∧ ((j.pump s.part.map).st.card.buffer buf).retried = again.retried := by
    rw [served, ← buffer]
    have held : (j.st.card.buffer buf).state ≠ .empty := by rw [buffer]; exact nofun
    cases buf with
    | a => exact ha.kept held
    | b => exact hb.kept held
  refine ⟨_, rfl, mem, ?_⟩
  rw [recd]
  refine ⟨same.2, same.1, ?_, ?_⟩
  · rw [show (j.pump s.part.map).st.card.recState = j.st.card.recState by rw [served]; rfl]
    exact recState.trans hr
  · rw [show (j.pump s.part.map).st.card.state = j.st.card.state by rw [served]; rfl]
    exact state

/-- The OK of the opening WRITE (R144). -/
theorem writeAnswer_opens {d : DirJob} (hf : s.part.recd.card.inFlight = some ⟨.writeDir d.first d.count, false⟩)
    (hd : s.part.recd.card.dirJobs = [d]) (hp : d.purpose = .opening) (hc : s.part.recd.card.clip = some k)
    (hr : s.part.recd.card.recState = .recording) (hl : k.live = true) :
    ∃ t, exec (.cardWriteAnswer (.inTime true)) s = .next t ∧ t.mem = s.mem ∧
      t.part.recd.card.clip.map OpenClip.opened = some true ∧ t.part.recd.card.dirJobs = [] := by
  have answered := Job.writeAnswer_written (j := Job.start s.part.recd) (map := s.part.map) hf hd
  rw [hp] at answered
  dsimp only at answered
  have clip : (((Job.start s.part.recd).landed.card fun c => { c with dirJobs := [] }).clip
      fun c => { c with opened := true }).st.card.clip = some { k with opened := true } := congrArg (Option.map _) hc
  obtain ⟨request, mount, inFlight, a, b, next, served, -, -⟩ := Job.pump_serves (map := s.part.map)
    (fun h => by cases hr.symm.trans h) clip (Job.nextUnit_live clip hl _)
  obtain ⟨p, mem, recd, -⟩ := State.onCard_carries (s := s) (f := fun map j => j.writeAnswer map true) answered
  refine ⟨_, rfl, mem, ?_⟩
  rw [recd, served]
  exact ⟨rfl, rfl⟩

/-- The unit's last batch WRITE: it commits (R147). -/
theorem writeAnswer_commits (hf : s.part.recd.card.inFlight = some ⟨.writeBatch first buf, false⟩) (hc : s.part.recd.card.clip = some k)
    (hr : s.part.recd.card.recState = .recording) (hl : k.live = true) (hb : 15 ≤ k.batchesDone) :
    ∃ t k', exec (.cardWriteAnswer (.inTime true)) s = .next t ∧ t.mem = s.mem ∧
      t.part.recd.card.clip = some k' ∧ k'.unitCount = k.unitCount + 1 ∧ k'.byteLength = k.byteLength + k.unitBytes ∧
      k'.relocated = false ∧ k'.batchesDone = 0 := by
  have complete : ({ k with batchesDone := k.batchesDone + 1 } : OpenClip).complete = true := by
    unfold OpenClip.complete
    dsimp only
    rw [hl, decide_eq_true (Nat.succ_le_succ hb), Bool.true_or, Bool.and_true]
  have answered : (Job.start s.part.recd).writeAnswer s.part.map true = ((Job.start s.part.recd).landed.batchDone buf).commitUnit s.part.map :=
    (Job.writeAnswer_batch (j := Job.start s.part.recd) (map := s.part.map) hf true).trans
      (Job.batchWritten_complete (j := (Job.start s.part.recd).landed) hc complete)
  obtain ⟨recState, clip, -, -⟩ := (Job.start s.part.recd).landed.batchDone_card buf
  rw [show (Job.start s.part.recd : RecWork).landed.st.card.clip = some k from hc] at clip
  obtain ⟨recState', k', clip', tallies⟩ := Job.commitUnit_clip clip s.part.map
  obtain ⟨k'', clip'', tallies'⟩ := Job.pump_tallies
    (by rw [recState', recState]; exact fun h => by cases hr.symm.trans h) clip' tallies s.part.map
  obtain ⟨p, mem, recd, -⟩ := State.onCard_carries (s := s) (f := fun map j => j.writeAnswer map true) answered
  refine ⟨_, k'', rfl, mem, ?_⟩
  rw [recd]
  exact ⟨clip'', tallies'⟩

/-- The second ERROR or timeout of a batch WRITE retires the unit (R148). -/
theorem batchFailed_retires (hc : s.part.recd.card.clip = some k) (hr : s.part.recd.card.recState = .recording)
    {f : RegionMap → RecWork → RecWork}
    (h : f s.part.map (Job.start s.part.recd) = (Job.start s.part.recd).landed.relocate s.part.map) :
    ∃ t, (Host.Outcome.next (s.onCard f) : Host.Outcome State Fault Refusal) = .next t ∧ t.mem = s.mem ∧
      t.part.bus.report.pending &&& Factor.unitRetired.bit ≠ 0 ∧
      t.part.recd.card.retired = min 4294967295 (s.part.recd.card.retired + 1) ∧ t.part.recd.card.bufA.data = [] ∧
      t.part.recd.card.bufB.data = [] := by
  have left := Job.relocate_retires (j := (Job.start s.part.recd).landed) hc s.part.map
  obtain ⟨k', clip⟩ := left.clip
  have going : ((Job.start s.part.recd).landed.relocate s.part.map).st.card.recState ≠ .stopping := by
    obtain h | h := left.recState
    · rw [h]
      exact fun h => by cases hr.symm.trans h
    · rw [h]
      exact nofun
  obtain ⟨request, mount, inFlight, a, b, next, served, ha, hb⟩ := Job.pump_serves going clip left.served
  obtain ⟨p, mem, recd, part⟩ := State.onCard_carries (s := s) (f := f) h
  refine ⟨_, rfl, mem, ?_⟩
  rw [recd, part, served]
  refine ⟨Part.deliverAll_raised (f := .unitRetired) left.raised _, left.retired, ha.cleared ?_, hb.cleared ?_⟩
  · rw [left.bufA]
    rfl
  · rw [left.bufB]
    rfl

/-- Answers and timeouts of a batch WRITE that fail it, by their row. -/
theorem batchFailed_rows (hf : s.part.recd.card.inFlight = some ⟨.writeBatch first buf, false⟩) {P : State → Prop}
    (h : ∀ f : RegionMap → RecWork → RecWork,
      f s.part.map (Job.start s.part.recd) = (Job.start s.part.recd).landed.batchFailed s.part.map buf →
      ∃ t, (Host.Outcome.next (s.onCard f) : Host.Outcome State Fault Refusal) = .next t ∧ P t) :
    ∀ row ∈ [Instr.cardWriteAnswer (.inTime false), Instr.cardTimeout], ∃ t, exec row s = .next t ∧ P t := by
  intro row hrow
  obtain rfl | rfl : row = .cardWriteAnswer (.inTime false) ∨ row = .cardTimeout := by simpa using hrow
  · exact h (fun map j => j.writeAnswer map false) (Job.writeAnswer_batch (j := Job.start s.part.recd) hf false)
  · exact h (fun map j => j.timeout map) (Job.timeout_current (j := Job.start s.part.recd) hf)

end

/-- Settles O56: each answer by the command in flight, and then what the card engine does by itself. -/
theorem cardAnswersAreTaken : Obligations.CardAnswersAreTaken := by
  unfold Obligations.CardAnswersAreTaken
  refine ⟨fun s => ⟨fun blocks wp hidle hf => ⟨fun hb => ?_, fun hb hs => ?_⟩, fun data hidle hf => ⟨fun hl hm => ?_, fun hl => ?_,
    fun hs => ?_⟩, fun first buf k hf hc hr hl hn => ⟨fun hb => writeAnswer_batchOk hf hc hr hl hn hb, fun hb => ?_⟩,
    fun hs hidle => ⟨fun cmd hcmd hf => ?_, fun hf => ?_⟩, fun cmd hidle hf => ?_⟩, fun s wp => ⟨rfl, rfl, rfl⟩,
    fun s data => ?_, fun s k => ?_⟩
  · obtain ⟨hc, hd, hm, -⟩ := hidle
    exact identAnswer_mounts hc hd hm hf wp hb
  · exact State.onCard_mountFault (f := fun _ j => j.identAnswer blocks wp)
      ((Job.identAnswer_current (j := Job.start s.part.recd) hf blocks wp).trans (if_pos hb)) hidle.1
  · obtain ⟨hc, hd, -, -⟩ := hidle
    exact readAnswer_mounts hc hd hf hl hm
  · have refused : s.part.recd.card.answers (some data) = false := by
      unfold CardEngine.answers
      rw [hf]
      exact decide_eq_false hl
    exact if_neg (Bool.eq_false_iff.1 refused)
  · rw [exec_readAnswer (CardEngine.answers_error _)]
    exact State.onCard_mountFault (f := fun map j => j.readAnswer map none)
      (Job.readAnswer_error (j := Job.start s.part.recd) hf) hidle.1
  · exact batchFailed_rows hf fun f h => batchFailed_retries hc hr hl hb h
  · refine State.onCard_mountFault (f := fun map j => j.timeout map)
      ((Job.timeout_current (j := Job.start s.part.recd) hf).trans ?_) hidle.1
    obtain rfl | rfl | rfl : cmd = .ident ∨ cmd = .read 0 256 ∨ cmd = .read 256 25 := by simpa using hcmd
    all_goals rfl
  · rw [exec_readAnswer (CardEngine.answers_error _)]
    exact State.onCard_mountFault (f := fun map j => j.readAnswer map none)
      (Job.readAnswer_error (j := Job.start s.part.recd) hf) hidle.1
  · obtain ⟨hc, hd, hm, -⟩ := hidle
    intro freed
    refine ⟨congrArg _ (State.onCard_landed (Job.timeout_abandoned (j := Job.start s.part.recd) hf) ⟨hc, hd, hm⟩), ?_, ?_, ?_⟩
    · rintro rfl blocks wp
      exact congrArg _ (State.onCard_landed (Job.identAnswer_abandoned (j := Job.start s.part.recd) hf blocks wp) ⟨hc, hd, hm⟩)
    · rintro first count rfl
      have lands (data : Option (List Byte)) := State.onCard_landed (f := fun map j => j.readAnswer map data)
        (Job.readAnswer_abandoned (j := Job.start s.part.recd) hf data) ⟨hc, hd, hm⟩
      refine ⟨?_, fun data hl => ?_⟩
      · exact (exec_readAnswer (CardEngine.answers_error _)).trans (congrArg _ (lands none))
      · exact (exec_readAnswer (CardEngine.answers_data hf hl)).trans (congrArg _ (lands (some data)))
    · intro hw ok
      exact congrArg _ (State.onCard_landed (Job.writeAnswer_abandoned (j := Job.start s.part.recd) hf hw ok) ⟨hc, hd, hm⟩)
  · intro c hc hd hm _ hf hl hs
    exact readAnswer_checks hc hd hm hf hl hs
  · intro c hc hr
    refine ⟨fun d hf hd hp hl => writeAnswer_opens hf hd hp hc hr hl, fun first buf hf hl =>
      ⟨fun hb => writeAnswer_commits hf hc hr hl hb, fun hb hrel => batchFailed_rows hf fun f h => ?_,
        fun hb hrel => batchFailed_rows hf fun f h => ?_⟩⟩
    all_goals
      have landed : ((Job.start s.part.recd : RecWork).landed.st.card.buffer buf).retried = true := by cases buf <;> exact hb
      have again := Job.batchFailed_again (j := (Job.start s.part.recd).landed) (map := s.part.map) hc landed
      rw [hrel] at again
    · exact batchFailed_retires hc hr (h.trans again)
    · obtain ⟨t, taken, mem, state, recState, clip, shown, -⟩ :=
        State.onCard_clipFault (j := (Job.start s.part.recd).landed) hc (h.trans again) rfl
      exact ⟨t, taken, mem, state, clip, recState, shown⟩

end Sys2Proof.Machine

end

section
/-! PROOFS. The grants of CARD requests (08 sections 8.1 and 8.7) and the drain front that they move (07 section 7.7). -/

namespace Sys2Proof.Machine

/-! ### The drain front (R128) -/

section

variable {R : Nat} {m : RingMonitor} {drain : Nat}

/-- The next byte to read stands at the drain front or past it. -/
theorem RingMonitor.le_nextByte (q : List QueueEntry) : drain ≤ m.nextByte R drain q := by
  induction q with
  | nil => exact le_rfl
  | cons e q ih =>
    unfold RingMonitor.nextByte
    split_ifs
    · exact le_max_left ..
    · exact ih

/-- Entries that the drain front has passed hold no byte to read. -/
theorem RingMonitor.nextByte_append {p : List QueueEntry} (hp : ∀ x ∈ p, m.ahead R x.offset + x.span ≤ drain) (q : List QueueEntry) :
    m.nextByte R drain (p ++ q) = m.nextByte R drain q := by
  induction p with
  | nil => rfl
  | cons x p ih =>
    obtain ⟨hx, hp⟩ := List.forall_mem_cons.1 hp
    rw [List.cons_append, RingMonitor.nextByte, if_neg (Nat.not_lt.2 hx), ih hp]

/-- Only where the entries stand, and their spans, count. -/
theorem RingMonitor.nextByte_map {m' : RingMonitor} {f : QueueEntry → QueueEntry} (hm : m'.releaseFront = m.releaseFront)
    (hf : ∀ e, (f e).offset = e.offset ∧ (f e).span = e.span) (q : List QueueEntry) :
    m'.nextByte R drain (q.map f) = m.nextByte R drain q := by
  induction q with
  | nil => rfl
  | cons e q ih =>
    obtain ⟨offset, span⟩ := hf e
    have ahead : m'.ahead R e.offset = m.ahead R e.offset := by
      unfold RingMonitor.ahead
      rw [hm]
    rw [List.map_cons, RingMonitor.nextByte, RingMonitor.nextByte, offset, span, ahead, ih]

/-- An entry's units with a unit that has read bytes of it, each once (R128). -/
theorem QueueEntry.addUnit_eq (unit : Nat) (e : QueueEntry) :
    e.addUnit unit = { e with units := if ∀ u ∈ e.units, u.1 ≠ unit then e.units ++ [(unit, false)] else e.units } := by
  have test : (e.units.any fun u => decide (u.1 = unit)) = true ↔ ¬∀ u ∈ e.units, u.1 ≠ unit := by
    rw [List.any_eq_true]
    push Not
    simp only [decide_eq_true_eq]
  unfold QueueEntry.addUnit
  by_cases h : ∀ u ∈ e.units, u.1 ≠ unit
  · rw [if_pos h, if_neg (mt test.1 (not_not_intro h))]
  · rw [if_neg h, if_pos (test.2 h)]

theorem QueueEntry.follow_eq (start drain : Nat) (e : QueueEntry) : e.follow start drain =
    { e with state := if e.state = .retained ∨ 0 < e.stampsWaiting then e.state
        else if drain ≤ start then .stamped
        else if drain < start + e.span then .draining else .drained } := by
  unfold QueueEntry.follow QueueEntry.isRetained
  simp only [Bool.or_eq_true, decide_eq_true_eq]
  split_ifs <;> rfl

/-- An entry with a unit that has read these bytes, if it holds any of them (R128). -/
def QueueEntry.readInto (start first length unit : Nat) (e : QueueEntry) : QueueEntry :=
  { e with units := if (start < first + length ∧ first < start + e.span) ∧ ∀ u ∈ e.units, u.1 ≠ unit then
      e.units ++ [(unit, false)] else e.units }

theorem QueueEntry.readInto_eq (start first length unit : Nat) (e : QueueEntry) :
    (if (decide (start < first + length) && decide (first < start + e.span)) = true then e.addUnit unit else e) =
      e.readInto start first length unit := by
  have test : (decide (start < first + length) && decide (first < start + e.span)) = true ↔
      start < first + length ∧ first < start + e.span := by
    rw [Bool.and_eq_true, decide_eq_true_iff, decide_eq_true_iff]
  unfold QueueEntry.readInto
  by_cases h : start < first + length ∧ first < start + e.span
  · rw [if_pos (test.2 h), QueueEntry.addUnit_eq]
    simp only [and_iff_right h]
  · rw [if_neg (mt test.1 h), if_neg fun h' => h h'.1]

/-- A read notice (R128). -/
theorem RingMonitor.readNotice_eq (R offset length unit : Nat) (m : RingMonitor) :
    (m.readNotice R offset length unit).drainAhead = m.nextByte R (m.ahead R offset + length) m.queue ∧
    (m.readNotice R offset length unit).queue = m.queue.map fun e =>
      (e.readInto (m.ahead R e.offset) (m.ahead R offset) length unit).follow (m.ahead R e.offset)
        (m.readNotice R offset length unit).drainAhead := by
  unfold RingMonitor.readNotice
  simp only [QueueEntry.readInto_eq]
  let read (e : QueueEntry) : QueueEntry := e.readInto (m.ahead R e.offset) (m.ahead R offset) length unit
  have passed : RingMonitor.nextByte R { m with queue := m.queue.map read } (m.ahead R offset + length) (m.queue.map read) =
      m.nextByte R (m.ahead R offset + length) m.queue := 
      RingMonitor.nextByte_map (f := read) (m := m) (m' := { m with queue := m.queue.map read }) rfl (fun e => ⟨rfl, rfl⟩) m.queue
  exact ⟨passed, List.map_map ..⟩

end

/-! ### A CARD request that is granted (R17) -/

section

variable {s : State} {req : CardReq} {j : RecWork} {d : DirJob} {ds : List DirJob} {map : RegionMap}

/-- What a granted CARD request leaves, what the card engine then does by itself included. -/
theorem exec_cardGrant (h : CardIsNext s.part req) :
    exec .cardRequestGrant s = .next (s.onPart fun p => ({ p with lastGrant := .card } : Part).onRecorder fun r =>
      (Job.start r).cardGranted p.map req (p.map.cardBytes s.mem req)) := by
  have granted : s.part.cardGrant s.mem = ({ s.part with lastGrant := .card } : Part).onRecorder fun r =>
      (Job.start r).cardGranted s.part.map req (s.part.map.cardBytes s.mem req) := by
    unfold Part.cardGrant
    rw [h.1]
  have next : s.grant .card = { s with part := s.part.cardGrant s.mem } := if_pos (Part.nextGrant_card h)
  change Host.Outcome.next (s.grant .card) = _
  rw [next, granted]
  rfl

/-- The bytes that a directory WRITE is given (R133). -/
theorem Job.cardGranted_dir (hd : j.st.card.dirJobs = d :: ds) (a beats : Nat) (bytes : List Byte) :
    j.cardGranted map (.dir a beats) bytes = j.card fun c =>
      { c with request := none, dirJobs := { d with data := d.data ++ bytes } :: ds } := by
  unfold Job.cardGranted Job.card Job.change
  dsimp only
  rw [hd]

theorem Job.pump_clipless (hc : j.st.card.clip = none) (map : RegionMap) :
    j.pump map = (j.makeRequest map).issue ∧ j.requestChunk map = j := by
  have stops : j.stopProgress map = j := by
    unfold Job.stopProgress
    rw [hc]
  have unit : j.nextUnit map = j := by
    unfold Job.nextUnit
    rw [hc]
  unfold Job.pump Job.requestChunk
  rw [stops, unit, hc]
  exact ⟨rfl, rfl⟩

/-- With no clip open, a directory WRITE whose data is complete is issued at once (R133; log 46). -/
theorem Job.pump_dirReady (hc : j.st.card.clip = none) (hd : j.st.card.dirJobs = d :: ds) (hm : j.st.card.mountCmd = none)
    (hf : j.st.card.inFlight = none) (hl : 512 * d.count ≤ d.data.length) (map : RegionMap) :
    j.pump map = j.card fun c => { c with inFlight := some ⟨.writeDir d.first d.count, false⟩ } := by
  obtain ⟨pumped, chunk⟩ := Job.pump_clipless hc map
  have request : j.makeRequest map = j := by
    unfold Job.makeRequest
    dsimp only
    rw [hd, chunk]
    dsimp only
    rw [if_neg (Nat.not_lt.2 hl), ite_self]
  have ready : (j.st.card.dirJobs.head?.filter fun d => decide (512 * d.count ≤ d.data.length)) = some d := by
    rw [hd]
    exact Option.filter_some_pos (decide_eq_true hl)
  rw [pumped, request]
  unfold Job.issue
  dsimp only
  rw [ready, hm, hf]
  rfl

/-- One whose data is not complete asks for the next bytes (R133; log 23). -/
theorem Job.pump_dirAsks (hc : j.st.card.clip = none) (hd : j.st.card.dirJobs = d :: ds) (hm : j.st.card.mountCmd = none)
    (hr : j.st.card.request = none) (hw : j.st.card.mirrorWrites = 0)
    (hl : d.data.length < 512 * d.count) (map : RegionMap) :
    j.pump map = j.card fun c => { c with request := some (.dir (map.privBase + 512 * d.first + d.data.length)
      (min 8 ((512 * d.count - d.data.length) / 32))) } := by
  have request : j.makeRequest map = j.card fun c => { c with request := some (.dir (map.privBase + 512 * d.first + d.data.length)
      (min 8 ((512 * d.count - d.data.length) / 32))) } := by
    unfold Job.makeRequest
    dsimp only
    rw [hr, hd]
    dsimp only
    rw [if_pos hl, if_pos hw]
    rfl
  have unread : (j.st.card.dirJobs.head?.filter fun d => decide (512 * d.count ≤ d.data.length)) = none := by
    rw [hd]
    exact Option.filter_some_neg (by simpa using hl)
  rw [(Job.pump_clipless hc map).1, request]
  exact Job.issue_nothing hc hm unread

end

end Sys2Proof.Machine

end

section
/-! PROOFS. The grant of a CARD request (07 section 7.7, 08 sections 8.1 and 8.7). -/

namespace Sys2Proof.Machine

section

variable {s : State}

/-- A granted CARD request delivered, what the card engine then does by itself included. -/
theorem exec_cardGrant_pumped {req : CardReq} {j : RecWork} {r : Recorder} {out : List RecOut} (h : CardIsNext s.part req)
    (granted : (Job.start s.part.recd).cardGranted s.part.map req (s.part.map.cardBytes s.mem req) = j)
    (pumped : j.pump s.part.map = ⟨r, out⟩) :
    exec .cardRequestGrant s = .next (s.onPart fun p => out.foldl Part.deliverRec { p with lastGrant := .card, recd := r }) := by
  rw [← granted] at pumped
  exact (exec_cardGrant h).trans (congrArg _ (State.onPart_congr (Part.onRecorder_pumped (p := { s.part with lastGrant := .card })
    (f := fun r => (Job.start r).cardGranted s.part.map req (s.part.map.cardBytes s.mem req)) pumped)))

/-- The grant of a request for mirror bytes (R133; log 23, log 46). -/
theorem cardGrant_directory {a beats : Nat} {d : DirJob} {ds : List DirJob} (h : CardIsNext s.part (.dir a beats))
    (hc : s.part.recd.card.clip = none) (hd : s.part.recd.card.dirJobs = d :: ds) (hm : s.part.recd.card.mountCmd = none)
    (hf : s.part.recd.card.inFlight = none) (hw : s.part.recd.card.mirrorWrites = 0) :
    let bytes := (List.range (32 * beats)).map fun i => s.mem.read (a + i)
    let d' : DirJob := { d with data := d.data ++ bytes }
    (512 * d.count ≤ d.data.length + 32 * beats →
      exec .cardRequestGrant s = .next (s.onPart fun p =>
        { p with
          lastGrant := .card
          recd := { p.recd with card := { p.recd.card with
            request := none, dirJobs := d' :: ds, inFlight := some ⟨.writeDir d.first d.count, false⟩ } } })) ∧
    (d.data.length + 32 * beats < 512 * d.count →
      exec .cardRequestGrant s = .next (s.onPart fun p =>
        { p with
          lastGrant := .card
          recd := { p.recd with card := { p.recd.card with
            request := some (.dir (p.map.privBase + 512 * d.first + (d.data.length + 32 * beats))
              (min 8 ((512 * d.count - (d.data.length + 32 * beats)) / 32)))
            dirJobs := d' :: ds } } })) := by
  intro bytes d'
  have length : d'.data.length = d.data.length + 32 * beats := by
    simp only [d', bytes, List.length_append, List.length_map, List.length_range]
  let j : RecWork := (Job.start s.part.recd).card fun c => { c with request := none, dirJobs := d' :: ds }
  have granted : (Job.start s.part.recd).cardGranted s.part.map (.dir a beats) (s.part.map.cardBytes s.mem (.dir a beats)) = j :=
    Job.cardGranted_dir (j := Job.start s.part.recd) hd a beats bytes
  refine ⟨fun hl => ?_, fun hl => ?_⟩
  · have pumped := Job.pump_dirReady (j := j) (d := d') hc rfl hm hf (by rw [length]; exact hl) s.part.map
    exact (exec_cardGrant_pumped h granted pumped).trans rfl
  · have pumped := Job.pump_dirAsks (j := j) (d := d') hc rfl hm rfl hw (by rw [length]; exact hl) s.part.map
    rw [length] at pumped
    exact (exec_cardGrant_pumped h granted pumped).trans rfl

/-! ### Chunk bytes (R146) -/

/-- Reading chunk headers leaves the unit as it is (R145). -/
theorem OpenClip.readHeaders_live (R offset : Nat) (bytes : List Byte) (q : List QueueEntry) (c : OpenClip) :
    (c.readHeaders R offset bytes q).live = c.live := by
  unfold OpenClip.readHeaders
  induction q generalizing c with
  | nil => rfl
  | cons e q ih =>
    rw [List.foldl_cons]
    refine (ih _).trans ?_
    dsimp only
    split_ifs
    · unfold OpenClip.readHeader
      split <;> rfl
    · rfl

/-- Granted chunk bytes: what they leave of the clip, of the buffer and of the ring (R128, R145, R146). -/
theorem Job.cardGranted_chunk {j : RecWork} {map : RegionMap} {c : OpenClip} (hc : j.st.card.clip = some c) (offset length unit : Nat)
    (n : BufName) (bytes : List Byte) :
    (j.cardGranted map (.chunk offset length unit n) bytes).st.card.recState = j.st.card.recState ∧
    (∃ k, (j.cardGranted map (.chunk offset length unit n) bytes).st.card.clip = some k ∧ k.live = c.live) ∧
    (j.cardGranted map (.chunk offset length unit n) bytes).st.ring = j.st.ring.readNotice map.ringSize offset length unit ∧
    ((j.cardGranted map (.chunk offset length unit n) bytes).st.card.buffer n).data = (j.st.card.buffer n).data ++ bytes ∧
    ((j.cardGranted map (.chunk offset length unit n) bytes).st.card.buffer n).state ≠ .empty := by
  have clip : (j.cardGranted map (.chunk offset length unit n) bytes).st.card.clip = j.st.card.clip.map fun c =>
      { c.readHeaders map.ringSize offset bytes (j.st.ring.queue.filter QueueEntry.isJoined) with
        unitStart := if c.unitBytes = 0 then offset else c.unitStart
        unitBytes := c.unitBytes + length } := by cases n <;> rfl
  have held (data : List Byte) : (if batchBytes ≤ data.length then BufState.waiting else .filling) ≠ .empty := by
    split <;> exact nofun
  refine ⟨by cases n <;> rfl, ⟨_, clip.trans (congrArg (Option.map _) hc), OpenClip.readHeaders_live ..⟩, by cases n <;> rfl,
    by cases n <;> rfl, ?_⟩
  cases n <;> exact held _

/-- The grant of a request for chunk bytes: its buffer and the ring monitor, as the card engine then leaves them. -/
theorem cardGrant_chunk {offset length unit : Nat} {n : BufName} {c : OpenClip} (h : CardIsNext s.part (.chunk offset length unit n))
    (hc : s.part.recd.card.clip = some c) (hl : c.live = true) (hr : s.part.recd.card.recState = .recording) :
    ∃ t, exec .cardRequestGrant s = .next t ∧ t.mem = s.mem ∧ t.part.lastGrant = .card ∧
      t.part.recd.ring = s.part.recd.ring.readNotice s.part.map.ringSize offset length unit ∧
      (t.part.recd.card.buffer n).data = (s.part.recd.card.buffer n).data ++
        (List.range length).map fun i => s.mem.read (s.part.map.ringBase + offset + i) := by
  let bytes := (List.range length).map fun i => s.mem.read (s.part.map.ringBase + offset + i)
  let j := (Job.start s.part.recd).cardGranted s.part.map (.chunk offset length unit n) bytes
  obtain ⟨recState, ⟨k, clip, live⟩, ring, data, held⟩ := Job.cardGranted_chunk (j := Job.start s.part.recd) (map := s.part.map) hc
    offset length unit n bytes
  obtain ⟨request, mount, inFlight, a, b, next, served, ha, hb⟩ := Job.pump_serves (j := j) (map := s.part.map)
    (by rw [recState]; exact fun h => by cases hr.symm.trans h) clip (Job.nextUnit_live clip (live.trans hl) _)
  have filled : ((j.pump s.part.map).st.card.buffer n).data = (j.st.card.buffer n).data := by
    rw [served]
    cases n with
    | a => exact (ha.kept held).1
    | b => exact (hb.kept held).1
  have left := exec_cardGrant_pumped (r := (j.pump s.part.map).st) (out := (j.pump s.part.map).out) h rfl rfl
  refine ⟨_, left, rfl, ?_, ?_, ?_⟩
  · obtain ⟨bus, lens, delivered⟩ := Part.deliverAll_frame (j.pump s.part.map).out
      { s.part with lastGrant := .card, recd := (j.pump s.part.map).st }
    exact congrArg Part.lastGrant delivered
  all_goals
    dsimp only [State.onPart]
    rw [Part.deliverAll_recd]
  · rw [served]
    exact ring
  · refine (filled.trans data).trans ?_
    cases n <;> rfl

end

/-- Settles O18: the card engine's work at the grant, and the read notice entry by entry. -/
theorem cardGrantsReadMemory : Obligations.CardGrantsReadMemory := by
  unfold Obligations.CardGrantsReadMemory
  refine ⟨fun s a beats d ds h hc hd hm hf hw => cardGrant_directory h hc hd hm hf hw,
    fun s offset length unit n c h hc hl hr => ?_⟩
  obtain ⟨t, taken, mem, last, ring, data⟩ := cardGrant_chunk h hc hl hr
  refine ⟨t, taken, mem, last, ring, data, ?_⟩
  intro m r R first start
  obtain ⟨drain, queue⟩ := RingMonitor.readNotice_eq R offset length unit m
  rw [← show r = m.readNotice R offset length unit from ring] at drain queue
  refine ⟨?_, fun hall => ?_, fun p q e hq hp he => ?_, ?_, fun i e hi => ?_⟩
  · rw [drain]
    exact RingMonitor.le_nextByte _
  · have past := RingMonitor.nextByte_append (R := R) (m := m) (p := m.queue) (drain := first + length) hall []
    rw [List.append_nil] at past
    exact drain.trans past
  · rw [drain, hq]
    refine (RingMonitor.nextByte_append (R := R) (m := m) (drain := first + length) hp (e :: q)).trans ?_
    exact if_pos he
  · rw [queue, List.length_map]
  · rw [queue, List.getElem?_map, hi]
    exact congrArg some (QueueEntry.follow_eq ..)

end Sys2Proof.Machine

end

section
/-! PROOFS. The restart point (02 section 2.5): the command unit, the report unit and the PART class. -/

namespace Sys2Proof.Machine

section

variable {b : Bus} {slot k : CmdSlot}

/-! ### Other commands in progress end (R35) -/

/-- The other command in progress in a slot, if it is one, ends ABORTED. -/
def Bus.abortOther (slot : CmdSlot) (b : Bus) (n : CmdSlot) : Bus :=
  if n ≠ slot ∧ b.cmd.slots[n].last = .pending then b.finish n .aborted 0 else b

theorem Bus.abortOther_slots (slot n k : CmdSlot) (b : Bus) : (b.abortOther slot n).cmd.slots[k] =
    if k = n ∧ k ≠ slot ∧ b.cmd.slots[k].last = .pending then { b.cmd.slots[k] with last := .aborted } else b.cmd.slots[k] := by
  unfold Bus.abortOther
  by_cases hk : k = n
  · subst hk
    by_cases hp : k ≠ slot ∧ b.cmd.slots[k].last = .pending
    · rw [if_pos hp, if_pos ⟨rfl, hp⟩]
      exact Bus.answer_slot ..
    · rw [if_neg hp, if_neg fun h => hp h.2]
  · refine Eq.trans ?_ (if_neg fun h => hk h.1).symm
    split
    · exact Bus.answer_slot_other hk ..
    · rfl

theorem Bus.abortOther_report (slot n : CmdSlot) (b : Bus) : (b.abortOther slot n).report = b.report := by
  unfold Bus.abortOther
  split <;> rfl

theorem Bus.mem_partQ_abortOther {r : PartReq} (h : r ∈ b.partQ) (slot n : CmdSlot) : r ∈ (b.abortOther slot n).partQ := by
  unfold Bus.abortOther
  split
  · exact Bus.mem_partQ_answer h ..
  · exact h

/-- Each of them ends once, with its outcome write under its take's use count and kind (R23, R35). -/
theorem Bus.abortAll_spec (slot : CmdSlot) (ns : List CmdSlot) (b : Bus) :
    (∀ k : CmdSlot, (ns.foldl (Bus.abortOther slot) b).cmd.slots[k] =
      if k ∈ ns ∧ k ≠ slot ∧ b.cmd.slots[k].last = .pending then { b.cmd.slots[k] with last := .aborted } else b.cmd.slots[k]) ∧
    (ns.foldl (Bus.abortOther slot) b).report = b.report ∧ (∀ r ∈ b.partQ, r ∈ (ns.foldl (Bus.abortOther slot) b).partQ) ∧
    ∀ k ∈ ns, k ≠ slot → b.cmd.slots[k].last = .pending →
      PartReq.outcome k .aborted 0 b.cmd.slots[k].uses b.cmd.slots[k].kind 0 ∈ (ns.foldl (Bus.abortOther slot) b).partQ := by
  induction ns generalizing b with
  | nil => exact ⟨fun k => (if_neg fun h => by cases h.1).symm, rfl, fun r h => h, nofun⟩
  | cons n ns ih =>
    obtain ⟨slots, report, kept, written⟩ := ih (b.abortOther slot n)
    rw [List.foldl_cons]
    refine ⟨fun k => ?_, report.trans (Bus.abortOther_report ..), fun r h => kept r (Bus.mem_partQ_abortOther h ..),
      fun k hk hn hp => ?_⟩
    · have one := Bus.abortOther_slots slot n k b
      rw [slots k]
      by_cases ha : k = n ∧ k ≠ slot ∧ b.cmd.slots[k].last = .pending
      · obtain ⟨hk, hp⟩ := ha
        rw [if_pos ⟨hk, hp⟩] at one
        rw [one, if_neg fun h => OutcomeCode.noConfusion h.2.2, if_pos ⟨List.mem_cons.2 (.inl hk), hp⟩]
      · rw [if_neg ha] at one
        rw [one]
        refine if_congr ⟨fun h => ⟨List.mem_cons_of_mem _ h.1, h.2⟩, fun h => ⟨?_, h.2⟩⟩ rfl rfl
        exact (List.mem_cons.1 h.1).resolve_left fun hk => ha ⟨hk, h.2⟩
    · by_cases he : k = n
      · subst he
        refine kept _ ?_
        unfold Bus.abortOther
        rw [if_pos ⟨hn, hp⟩]
        exact List.mem_append_right _ (List.mem_singleton.2 rfl)
      · have same : (b.abortOther slot n).cmd.slots[k] = b.cmd.slots[k] := by
          rw [Bus.abortOther_slots, if_neg fun h => he h.1]
        have asked := written k ((List.mem_cons.1 hk).resolve_left he) hn (by rw [same]; exact hp)
        rw [same] at asked
        exact asked

/-! ### The bus at the restart point (R35) -/

theorem Bus.factor_mem_requestFactor (b : Bus) : PartReq.factor ∈ b.requestFactor.partQ := by
  unfold Bus.requestFactor
  split
  · assumption
  · exact List.mem_append_right _ (List.mem_singleton.2 rfl)

/-- The command unit, the report unit and the PART class at the restart point (R35; log 37, log 45). -/
structure Bus.RestartedFrom (slot : CmdSlot) (old new : Bus) : Prop where
  slots : ∀ k : CmdSlot, new.cmd.slots[k] =
    if k ≠ slot ∧ old.cmd.slots[k].last = .pending then { old.cmd.slots[k] with last := .aborted } else old.cmd.slots[k]
  shadow : new.cmd.shadow = old.cmd.shadow
  restart : new.cmd.restart.map RestartRecord.slot = some slot
  report : new.report = { old.report with cause := .restart, pending := 0, image := none }
  factor : PartReq.factor ∈ new.partQ
  status : PartReq.status ∈ new.partQ
  aborted : ∀ k : CmdSlot, k ≠ slot → old.cmd.slots[k].last = .pending →
    PartReq.outcome k .aborted 0 old.cmd.slots[k].uses old.cmd.slots[k].kind 0 ∈ new.partQ

theorem Bus.restart_spec (slot : CmdSlot) (b : Bus) : b.RestartedFrom slot (b.restart slot) := by
  obtain ⟨slots, report, -, written⟩ := Bus.abortAll_spec slot allSlots b
  let r : Bus := { b.abortOthers slot with
    report := { (b.abortOthers slot).report with cause := .restart, pending := 0, image := none } }
  have all : ∀ k : CmdSlot, k ∈ allSlots := by decide
  have cmd : r.requestFactor.requestStatus.cmd = (b.abortOthers slot).cmd := by
    rw [Bus.requestStatus_cmd, Bus.requestFactor_cmd]
  have overtaken {x : PartReq} (hx : x ∈ r.requestFactor.requestStatus.partQ) (ho : x.overtaken = x) :
      x ∈ (b.restart slot).partQ := List.mem_map.2 ⟨x, hx, ho⟩
  refine ⟨fun k => ?_, Bus.restart_shadow .., rfl, ?_, ?_, ?_, fun k hn hp => ?_⟩
  · refine (congrArg (fun c : CommandUnit => c.slots[k]) cmd).trans ((slots k).trans ?_)
    simp only [all, true_and]
  · change r.requestFactor.requestStatus.report = _
    rw [Bus.requestStatus_report, Bus.requestFactor_report, ← report]
    rfl
  · exact overtaken (Bus.mem_partQ_requestStatus (Bus.factor_mem_requestFactor r)) rfl
  · exact overtaken (Bus.status_mem_requestStatus _) rfl
  · exact overtaken (Bus.mem_partQ_requestStatus (Bus.mem_partQ_requestFactor (written k (all k) hn hp))) rfl

end

end Sys2Proof.Machine

end

section
/-! PROOFS. The restart point (02 section 2.5): the card engine, the lens side and the other blocks. -/

namespace Sys2Proof.Machine

section

variable {s : State} {slot : CmdSlot} {c : CardEngine} {map : RegionMap}

/-! ### The card engine (R155) -/

/-- The card engine at the restart point, a card that mounts again included (R155; log 27, log 46). -/
structure CardEngine.RestartedFrom (old new : CardEngine) : Prop where
  recState : new.recState = .idle
  clip : new.clip = none
  mirror : new.mirror = none
  freeUnits : new.freeUnits = 0
  retired : new.retired = old.retired
  present : new.present = old.present
  ejected : new.ejected = old.ejected
  mounts : old.present = true → old.ejected = false →
    new.state = .mounting ∧ (old.inFlight = none → new.inFlight = some ⟨.ident, false⟩)
  absent : old.present = false ∨ old.ejected = true → new.state = .absent
  abandoned : ∀ f, old.inFlight = some f → new.inFlight = some { f with abandoned := true }

theorem CardEngine.restart_absent (h : c.present = false ∨ c.ejected = true) :
    (c.restart false).state = .absent ∧ (c.restart false).mountCmd = none := by
  have held : (c.present && !c.ejected && !false) = false := by
    obtain h | h := h <;> simp [h]
  unfold CardEngine.restart
  dsimp only
  rw [held]
  exact ⟨rfl, rfl⟩

theorem CardEngine.restart_mounting (hp : c.present = true) (he : c.ejected = false) :
    (c.restart false).state = .mounting ∧ (c.restart false).mountCmd = some .ident := by
  unfold CardEngine.restart
  dsimp only
  rw [hp, he]
  exact ⟨rfl, rfl⟩

/-- What the card engine does by itself at the restart point: the IDENT of a mount, where none is in flight (R133; log 46). -/
theorem Job.pump_restarted (r : Recorder) (map : RegionMap) : ∃ c,
    (Job.start (r.restart false)).pump map = ⟨{ r.restart false with card := c }, []⟩ ∧ r.card.RestartedFrom c := by
  let j : RecWork := Job.start (r.restart false)
  by_cases hmount : r.card.present = true ∧ r.card.ejected = false
  · obtain ⟨hp, he⟩ := hmount
    obtain ⟨state, mountCmd⟩ := CardEngine.restart_mounting hp he
    have apart : ¬(r.card.present = false ∨ r.card.ejected = true) := by simp [hp, he]
    cases hf : r.card.inFlight with
    | none =>
      have free : j.st.card.inFlight = none := congrArg (Option.map _) hf
      refine ⟨_, Job.pump_mount (j := j) rfl rfl free mountCmd map, ?_⟩
      exact ⟨rfl, rfl, rfl, rfl, rfl, rfl, rfl, fun _ _ => ⟨state, fun _ => rfl⟩, fun h => absurd h apart,
        fun f h => by rw [hf] at h; cases h⟩
    | some f =>
      have flies : j.st.card.inFlight = some { f with abandoned := true } := congrArg (Option.map _) hf
      have issued : j.issue = j := by
        unfold Job.issue
        exact if_pos (by rw [flies]; rfl)
      have stays : j.pump map = j := by
        obtain ⟨pumped, chunk⟩ := Job.pump_clipless (j := j) rfl map
        have request : j.makeRequest map = j := by
          unfold Job.makeRequest
          dsimp only
          rw [chunk]
          exact ite_self j
        rw [pumped, request, issued]
      refine ⟨_, stays, ?_⟩
      exact ⟨rfl, rfl, rfl, rfl, rfl, rfl, rfl, fun _ _ => ⟨state, fun h => by rw [hf] at h; cases h⟩, fun h => absurd h apart,
        fun g h => flies.trans (by rw [Option.some.inj (hf.symm.trans h)])⟩
  · have out : r.card.present = false ∨ r.card.ejected = true := by
      cases hp : r.card.present <;> cases he : r.card.ejected <;> simp_all
    obtain ⟨state, mountCmd⟩ := CardEngine.restart_absent out
    refine ⟨_, Job.pump_quiet (j := j) ⟨rfl, rfl, mountCmd⟩ map, ?_⟩
    exact ⟨rfl, rfl, rfl, rfl, rfl, rfl, rfl, fun hp he => absurd ⟨hp, he⟩ hmount, fun _ => state,
      fun f h => congrArg (Option.map _) h⟩

/-! ### The take (R35) -/

/-- The bus at the take of a RESTART, before the restart point (R22, R23; log 8). -/
def Bus.takenRestart (slot : CmdSlot) (b : Bus) : Bus := (b.beginTake slot 0x02).answer slot .pending 0

theorem Bus.takenRestart_slot (slot k : CmdSlot) (b : Bus) : (b.takenRestart slot).cmd.slots[k] =
    if k = slot then ⟨.pending, b.cmd.slots[slot].uses + 1, 0x02⟩ else b.cmd.slots[k] := by
  unfold Bus.takenRestart
  split
  next h =>
    subst h
    rw [Bus.answer_slot]
    simp [Bus.beginTake, Verdict.pending]
  next h =>
    rw [Bus.answer_slot_other h]
    have apart : (slot : Nat) ≠ k := fun he => h (Fin.ext he.symm)
    simp [Bus.beginTake, apart]

/-- RESTART in a slot that takes it: every block has its RESTART values (R35; log 8). -/
theorem exec_restart (h : Ready slot s.part) : ∃ c, s.part.recd.card.RestartedFrom c ∧
    exec (.restart slot) s = .next (s.onPart fun p =>
      { p with
        bus := (p.bus.takenRestart slot).restart slot
        slots := .restart p.map.slotCount
        stab := p.stab.restart
        lens := p.lens.restart .idle
        recd := { p.recd.restart false with card := c }
        audio := channelsMap Channel.restart p.audio }) := by
  obtain ⟨c, pumped, restarted⟩ := Job.pump_restarted s.part.recd s.part.map
  refine ⟨c, restarted, (State.offered_of_accepts h.1 _).trans (congrArg _ (State.onPart_congr ?_))⟩
  have taken : s.part.take slot 0x02 true 0 (fun p => (p, .pending)) = { s.part with bus := s.part.bus.takenRestart slot } := by
    rw [Part.take_ready h, ite_self]
    rfl
  have pending : (s.part.bus.takenRestart slot).cmd.slots[slot].last = .pending := by
    rw [Bus.takenRestart_slot, if_pos rfl]
  unfold Part.takeRestart
  dsimp only
  rw [taken]
  refine (if_pos pending).trans ?_
  unfold Part.restartPoint
  dsimp only
  rw [h.2]
  exact Part.onRecorder_pumped (p := { s.part with
    bus := (s.part.bus.takenRestart slot).restart slot
    slots := .restart s.part.map.slotCount
    stab := s.part.stab.restart
    lens := s.part.lens.restart .idle
    recd := s.part.recd.restart false
    audio := channelsMap Channel.restart s.part.audio }) (f := fun r => .start r) pumped

end

end Sys2Proof.Machine

end

section
/-! PROOFS. RESTART (02 section 2.5). -/

namespace Sys2Proof.Machine

section

variable {l : Lens} {ax : StepAxis} {st : Stabiliser}

/-! ### The lens side at the restart point (R76, R113) -/

theorem Lens.derive_eq (l : Lens) : l.derive = { l with coord := { l.coord with distance := l.derive.coord.distance } } := by
  unfold Lens.derive
  split <;> rfl

/-- The subject distance at the restart point: read back where tracking was suspended (R105). -/
def Lens.restartDistance (l : Lens) : Nat :=
  if l.coord.suspended then ({ l with zoom := l.zoom.restart, focus := l.focus.restart } : Lens).derive.coord.distance
  else l.coord.distance

/-- The lens side at the restart point. -/
theorem Lens.restart_eq (r : RecState) (l : Lens) : l.restart r =
    { l with
      zoom := { l.zoom.restart with quiet := r.quiet }
      focus := l.focus.restart
      coord := { l.coord with
        distance := l.restartDistance
        load := none
        suspended := false
        rocker := if l.coord.rocker = .hold then rockerStart l.coord.level else l.coord.rocker } } := by
  unfold Lens.restart Lens.restartDistance
  dsimp only
  cases l.coord.suspended with
  | true =>
    rw [if_pos rfl, if_pos rfl, Lens.derive_eq]
    rfl
  | false => rfl

/-- An axis at the restart point (R76). -/
theorem StepAxis.restart_spec (ax : StepAxis) : ax.restart.holder = none ∧ ax.restart.pendingMove = none ∧
    (ax.state = .moving ∨ ax.state = .dwell ∨ ax.state = .waiting → ax.restart.state = .idle ∧ ax.restart.pos = ax.pos) ∧
    (ax.state = .homing → ax.restart.state = .unhomed ∧ ax.restart.pos = none) ∧
    (ax.state ≠ .homing → ax.restart.pos = ax.pos) ∧ (ax.pos = none → ax.restart.pos = none) := by
  unfold StepAxis.restart
  dsimp only
  cases ax.state <;> exact ⟨rfl, rfl, by simp [StepAxis.rest], by simp [StepAxis.rest, StepAxis.losePosition],
    by simp [StepAxis.rest], by simp [StepAxis.rest, StepAxis.losePosition]⟩

/-- Each axis of the lens side at the restart point (R76). -/
theorem Lens.restart_axes (r : RecState) (l : Lens) (n : AxisName) :
    (((l.restart r).axis n).holder = none ∧ ((l.restart r).axis n).pendingMove = none) ∧
    ((l.axis n).state = .moving ∨ (l.axis n).state = .dwell ∨ (l.axis n).state = .waiting →
      ((l.restart r).axis n).state = .idle ∧ ((l.restart r).axis n).pos = (l.axis n).pos) ∧
    ((l.axis n).state = .homing → ((l.restart r).axis n).state = .unhomed ∧ ((l.restart r).axis n).pos = none) := by
  have restarted : ∃ quiet, (l.restart r).axis n = { (l.axis n).restart with quiet := quiet } := by
    rw [Lens.restart_eq]
    cases n <;> exact ⟨_, rfl⟩
  obtain ⟨quiet, axis⟩ := restarted
  obtain ⟨holder, pendingMove, rests, homing, -, -⟩ := (l.axis n).restart_spec
  rw [axis]
  exact ⟨⟨holder, pendingMove⟩, rests, homing⟩

theorem rockerStart_eq (level : Nat) : rockerStart level = if 120 ≤ level ∧ level ≤ 136 then .centre else .lockout := by
  unfold rockerStart deadBand within
  simp only [Bool.and_eq_true, decide_eq_true_eq]

/-- The distance read back from the focus curve at the positions kept (R105). -/
theorem Lens.restartDistance_suspended {tb : LensTable} {z p : Nat} (hs : l.coord.suspended = true) (ht : l.coord.table = some tb)
    (hz : l.zoom.pos = some z) (hp : l.focus.pos = some p) (hzh : l.zoom.state ≠ .homing) (hfh : l.focus.state ≠ .homing)
    (hlt : tb.finf z < tb.fnear z) : l.restartDistance =
      (max 0 (min 255 (roundDiv (((p : Int) - tb.finf z) * 255) (tb.fnear z - tb.finf z)))).toNat := by
  obtain ⟨-, -, -, -, zoomPos, -⟩ := l.zoom.restart_spec
  obtain ⟨-, -, -, -, focusPos, -⟩ := l.focus.restart_spec
  unfold Lens.restartDistance Lens.derive
  dsimp only
  rw [hs, if_pos rfl, ht, zoomPos hzh, hz, focusPos hfh, hp]
  dsimp only
  unfold LensTable.distanceFor
  dsimp only
  rw [if_neg (Nat.ne_of_gt hlt), if_pos hlt]
  rfl

theorem Lens.restartDistance_kept (h : l.coord.suspended = false ∨ l.zoom.pos = none ∨ l.focus.pos = none) :
    l.restartDistance = l.coord.distance := by
  obtain ⟨-, -, -, -, -, zoomPos⟩ := l.zoom.restart_spec
  obtain ⟨-, -, -, -, -, focusPos⟩ := l.focus.restart_spec
  unfold Lens.restartDistance Lens.derive
  dsimp only
  split
  next hs =>
    obtain h | h | h := h
    · cases hs.symm.trans h
    · rw [zoomPos h]
      cases l.coord.table <;> rfl
    · rw [focusPos h]
      cases l.coord.table with
      | none => rfl
      | some t => cases l.zoom.restart.pos <;> rfl
  next => rfl

/-- What a RESTART leaves of the lens side beside its axes (R76, R113). -/
theorem Lens.restart_spec (r : RecState) (l : Lens) : (l.restart r).iris = l.iris ∧ (l.restart r).coord.table = l.coord.table ∧
    (l.restart r).coord.tracking = l.coord.tracking ∧ (l.restart r).coord.suspended = false ∧
    (l.restart r).coord.load = none ∧ (l.restart r).coord.distance = l.restartDistance ∧
    (l.restart r).coord.recEnable = l.coord.recEnable ∧ (l.restart r).coord.recPressed = l.coord.recPressed ∧
    (l.restart r).coord.recRun = l.coord.recRun ∧ (l.restart r).coord.recLockout = l.coord.recLockout ∧
    (l.restart r).coord.level = l.coord.level ∧
    (l.restart r).coord.rocker = (if l.coord.rocker = .hold then
      (if 120 ≤ l.coord.level ∧ l.coord.level ≤ 136 then .centre else .lockout) else l.coord.rocker) ∧
    (l.restart r).zoom.quiet = r.quiet := by
  rw [Lens.restart_eq, ← rockerStart_eq]
  exact ⟨rfl, rfl, rfl, rfl, rfl, rfl, rfl, rfl, rfl, rfl, rfl, rfl, rfl⟩

/-! ### The audio path at the restart point (R164) -/

theorem channelsMap_restart (v : Vector Channel 4) (n : ChannelNo) :
    (channelsMap Channel.restart v)[n].threshold = v[n].threshold ∧ (channelsMap Channel.restart v)[n].gain = 32768 ∧
    (channelsMap Channel.restart v)[n].held = 0 ∧ (channelsMap Channel.restart v)[n].overSet = false := by
  rw [channelsMap_getElem]
  exact ⟨rfl, rfl, rfl, rfl⟩

/-! ### The stabiliser at the restart point (R55) -/

theorem Stabiliser.restart_axis (st : Stabiliser) (g : GyroAxis) : st.restart.axis g = (st.axis g).clear := by
  unfold Stabiliser.restart
  dsimp only
  split <;> (cases g <;> rfl)

/-- Each axis of the stabiliser at the restart point: pan states and runs cleared, settings kept. -/
theorem Stabiliser.restart_axes (st : Stabiliser) (g : GyroAxis) : (st.restart.axis g).panState = .track ∧
    (st.restart.axis g).hitRun = 0 ∧ (st.restart.axis g).centreRun = 0 ∧ (st.restart.axis g).clamped = false ∧
    (st.restart.axis g).lim = (st.axis g).lim ∧ (st.restart.axis g).bias = (st.axis g).bias ∧
    (st.restart.axis g).reversed = (st.axis g).reversed := by
  rw [Stabiliser.restart_axis]
  exact ⟨rfl, rfl, rfl, rfl, rfl, rfl, rfl⟩

/-- What a RESTART leaves of the stabiliser's settings and modes. -/
theorem Stabiliser.restart_spec (st : Stabiliser) : st.restart.enable = st.enable ∧ st.restart.rate = st.rate ∧
    st.restart.cal = none ∧ (st.cal = none → st.restart.mode = st.mode) ∧
    (∀ c : Calibration, st.cal = some c → st.restart.mode = if c.toActive then .active else .off) ∧
    st.restart.copy = st.copy ∧ st.restart.lTrack = st.lTrack ∧ st.restart.lPan = st.lPan ∧ st.restart.hold = st.hold ∧
    st.restart.missingRun = 0 ∧ st.restart.validRun = 0 := by
  unfold Stabiliser.restart
  dsimp only
  cases h : st.cal with
  | some c => exact ⟨rfl, rfl, rfl, nofun, fun c' hc => by cases hc; rfl, rfl, rfl, rfl, rfl, rfl, rfl⟩
  | none => exact ⟨rfl, rfl, h, fun _ => rfl, nofun, rfl, rfl, rfl, rfl, rfl, rfl⟩

end

/-! ### The grant that a RESTART waits for (R35) -/

section

variable {s : State} {r : PartReq}

/-- A granted PART request. -/
theorem exec_partGrant (h : PartIsNext s.part r) : exec .partRequestGrant s =
    .next { s with
      part := (Part.grantPart s.mem { s.part with lastGrant := .part } r).1
      mem := (Part.grantPart s.mem { s.part with lastGrant := .part } r).2 } := by
  have next : s.grant .part = { s with part := (s.part.partGrant s.mem).1, mem := (s.part.partGrant s.mem).2 } :=
    if_pos (Part.nextGrant_part h)
  have granted : s.part.partGrant s.mem = Part.grantPart s.mem { s.part with lastGrant := .part } r := by
    obtain ⟨head, -⟩ := h
    unfold Part.partGrant
    cases hq : s.part.bus.partQ with
    | nil => rw [hq] at head; cases head
    | cons x xs =>
      rw [hq] at head
      cases head
      rfl
  change Host.Outcome.next (s.grant .part) = _
  rw [next, granted]

/-- A record write that a RESTART waits for: the last one ends it, any other counts down (R35; log 37). -/
theorem Bus.restartProgress_spec {b : Bus} {slot : CmdSlot} {n : Nat} (h : b.cmd.restart = some ⟨slot, n⟩) :
    (n ≤ 1 → b.restartProgress.cmd.restart = none ∧ b.restartProgress.cmd.slots[slot].last = .done ∧
      b.restartProgress.partQ = b.partQ ++ [.outcome slot .done 0 b.cmd.slots[slot].uses b.cmd.slots[slot].kind 0]) ∧
    (1 < n → b.restartProgress.cmd.restart = some ⟨slot, n - 1⟩ ∧ b.restartProgress.cmd.slots = b.cmd.slots ∧
      b.restartProgress.partQ = b.partQ) := by
  unfold Bus.restartProgress
  rw [h]
  dsimp only
  refine ⟨fun hn => ?_, fun hn => ?_⟩
  · rw [if_pos hn]
    exact ⟨rfl, Bus.answer_last .., rfl⟩
  · rw [if_neg (Nat.not_le.2 hn)]
    exact ⟨rfl, rfl, rfl⟩

/-- The grant of a status or factor record write leaves the command unit, and takes its request from the queue. -/
theorem Part.grantPart_record (hr : r = .status ∨ r = .factor) (mem : Memory) (p : Part) : ∃ report,
    (p.grantPart mem r).1.bus = Bus.restartProgress { p.bus with report := report, partQ := p.bus.partQ.drop 1 } := by
  obtain rfl | rfl := hr
  · exact ⟨_, rfl⟩
  · refine ⟨p.bus.report, ?_⟩
    unfold Part.grantPart
    dsimp only
    split <;> rfl

end

/-- Settles O24: the restart point block by block, and the record writes it waits for. -/
theorem restartTakesTheRestartValues : Obligations.RestartTakesTheRestartValues := by
  unfold Obligations.RestartTakesTheRestartValues
  refine ⟨fun slot s hready hpending hpresent hsusp => ?_, fun slot s hready hpresent hsusp => ?_, fun slot s hready => ?_,
    fun s slot n hrestart r hr hnext => ?_⟩
  · obtain ⟨c, card, taken⟩ := exec_restart hready
    have bus := Bus.restart_spec slot (s.part.bus.takenRestart slot)
    have slots (k : CmdSlot) : ((s.part.bus.takenRestart slot).restart slot).cmd.slots[k] =
        if k = slot then ⟨.pending, s.part.bus.cmd.slots[slot].uses + 1, 0x02⟩ else s.part.bus.cmd.slots[k] := by
      rw [bus.slots k, Bus.takenRestart_slot]
      by_cases hk : k = slot
      · rw [if_pos hk, if_neg fun h => h.1 hk]
      · rw [if_neg hk, if_neg fun h => hpending k h.2]
    obtain ⟨iris, table, tracking, -, load, distance, recEnable, recPressed, recRun, recLockout, level, rocker, quiet⟩ :=
      Lens.restart_spec .idle s.part.lens
    obtain ⟨enable, rate, cal, mode, calMode, copy, lTrack, lPan, hold, missing, valid⟩ := s.part.stab.restart_spec
    have gyro := Stabiliser.restart_axis s.part.stab
    refine ⟨_, taken, rfl, hready.1.1, rfl, rfl, rfl, rfl, bus.shadow, slots, bus.restart, ?_, ?_, ?_, ?_, ?_, bus.factor,
      bus.status, rfl, rfl, rfl, rfl, rfl, rfl, (congrArg StabAxis.acc (gyro .yaw) :), (congrArg StabAxis.acc (gyro .pitch) :),
      enable, rate, (congrArg StabAxis.bias (gyro .yaw) :), cal, mode, calMode, copy, lTrack, lPan, hold, missing, valid,
      fun g => ?_, rfl, rfl, rfl, rfl, fun n => ?_, ?_, ?_, ?_, ?_, ?_, ?_, ?_, ?_, ?_, ?_, ?_, ?_, rfl, card.retired, rfl, rfl, rfl, rfl, rfl,
      card.clip, card.recState, card.absent (.inl hpresent), rfl, rfl, fun n => ?_⟩
    · exact (congrArg ReportUnit.pending bus.report :)
    · exact (congrArg ReportUnit.mask bus.report :)
    · exact (congrArg ReportUnit.clearMode bus.report :)
    · exact (congrArg ReportUnit.cause bus.report :)
    · exact (congrArg ReportUnit.image bus.report :)
    · exact Stabiliser.restart_axes s.part.stab g
    · exact Lens.restart_axes .idle s.part.lens n
    · exact iris
    · exact table
    · exact tracking
    · exact load
    · exact distance.trans (Lens.restartDistance_kept (.inl hsusp))
    · exact recEnable
    · exact recPressed
    · exact recRun
    · exact recLockout
    · exact level
    · exact rocker
    · exact quiet
    · exact channelsMap_restart s.part.audio n
  · obtain ⟨c, -, taken⟩ := exec_restart hready
    have bus := Bus.restart_spec slot (s.part.bus.takenRestart slot)
    refine ⟨_, taken, ?_, fun k hk hp => ?_⟩
    · refine (congrArg SlotRecord.last (bus.slots slot)).trans ?_
      rw [if_neg fun h => h.1 rfl, Bus.takenRestart_slot, if_pos rfl]
    · have same : (s.part.bus.takenRestart slot).cmd.slots[k] = s.part.bus.cmd.slots[k] := by
        rw [Bus.takenRestart_slot, if_neg hk]
      refine ⟨(congrArg SlotRecord.last (bus.slots k)).trans ?_, ?_⟩
      · rw [if_pos ⟨hk, by rw [same]; exact hp⟩]
      · have asked := bus.aborted k hk (by rw [same]; exact hp)
        rw [same] at asked
        exact asked
  · dsimp only
    obtain ⟨c, card, taken⟩ := exec_restart hready
    have bus := Bus.restart_spec slot (s.part.bus.takenRestart slot)
    obtain ⟨-, -, tracking, suspended, -, distance, -⟩ := Lens.restart_spec .idle s.part.lens
    refine ⟨_, taken, rfl, ?_, card.recState, card.clip, card.mirror, card.freeUnits, card.present, card.ejected, card.mounts,
      card.absent, card.abandoned, ?_, ?_, fun tb z p hs ht hz hp hzh hfh hlt => ?_, fun h => ?_⟩
    · refine (congrArg SlotRecord.last (bus.slots slot)).trans ?_
      rw [if_neg fun h => h.1 rfl, Bus.takenRestart_slot, if_pos rfl]
    · exact suspended
    · exact tracking
    · exact distance.trans (Lens.restartDistance_suspended hs ht hz hp hzh hfh hlt)
    · exact distance.trans (Lens.restartDistance_kept h)
  · obtain ⟨report, granted⟩ := Part.grantPart_record (by simpa using hr) s.mem { s.part with lastGrant := .part }
    obtain ⟨last, more⟩ := Bus.restartProgress_spec
      (b := { s.part.bus with report := report, partQ := s.part.bus.partQ.drop 1 }) hrestart
    refine ⟨_, exec_partGrant hnext, ?_⟩
    dsimp only
    rw [granted]
    exact ⟨last, more⟩

end Sys2Proof.Machine

end

section
/-! PROOFS. The bytes of the status record (12 section 12.1), field by field. -/

namespace Sys2Proof.Machine

/-! ### Records of fields, one after another -/

section

variable {fs : List (Nat × Nat)} {i j o w v : Nat}

/-- Fields in the order of a record, each by its width in bytes and its value. -/
def laidOut (fs : List (Nat × Nat)) : List Byte := fs.flatMap fun f => leBytes f.1 f.2

/-- The offset of field `i`. -/
def fieldOffset (fs : List (Nat × Nat)) (i : Nat) : Nat := ((fs.take i).map Prod.fst).sum

theorem laidOut_cons (f : Nat × Nat) (fs : List (Nat × Nat)) : laidOut (f :: fs) = leBytes f.1 f.2 ++ laidOut fs :=
  List.flatMap_cons

theorem laidOut_length (fs : List (Nat × Nat)) : (laidOut fs).length = (fs.map Prod.fst).sum := by
  induction fs with
  | nil => rfl
  | cons f fs ih => rw [laidOut_cons, List.length_append, leBytes_length, ih, List.map_cons, List.sum_cons]

theorem laidOut_take (h : fs[i]? = some (w, v)) : ((laidOut fs).drop (fieldOffset fs i)).take w = leBytes w v := by
  induction fs generalizing i with
  | nil => cases h
  | cons f fs ih =>
    cases i with
    | zero =>
      cases h
      rw [laidOut_cons]
      exact List.take_left' (leBytes_length ..)
    | succ i =>
      have offset : fieldOffset (f :: fs) (i + 1) = f.1 + fieldOffset fs i := by
        simp [fieldOffset]
      rw [offset, ← List.drop_drop, laidOut_cons, List.drop_left' (leBytes_length ..)]
      exact ih h

theorem leBytes_zero (k : Nat) : leBytes k 0 = List.replicate k 0 := by
  induction k with
  | zero => rfl
  | succ k ih =>
    rw [leBytes, List.replicate_succ, Nat.zero_div, ih]
    rfl

/-- The bytes of a field that holds 0. -/
theorem laidOut_zero (h : fs[i]? = some (w, 0)) (ho : fieldOffset fs i = o) (hj : j < w) : (laidOut fs)[o + j]? = some 0 := by
  have field := congrArg (·[j]?) (laidOut_take h)
  rw [ho, List.getElem?_take, if_pos hj, List.getElem?_drop, leBytes_zero, List.getElem?_replicate, if_pos hj] at field
  exact field

end

/-! ### The status record (12.1) -/

section

variable {p : Part} {g : Groups}

/-- The fields of the status record, in order. -/
def Part.statusFields (g : Groups) (p : Part) : List (Nat × Nat) :=
  [(2, 0x0C64), (1, 1), (1, p.bus.report.cause.code), (1, (decide (p.phase = .running) || p.bus.report.image.isSome).toNat),
    (1, p.map.conflict.toNat), (2, 0), (4, g.word), (4, 0), (4, p.slots.frameCounter), (4, p.recd.tc.current.toNat),
    (4, p.slots.torn), (4, p.slots.skips), (4, p.slots.unshown), (1, p.stab.mode.code), (1, p.stab.yaw.panState.code),
    (1, p.stab.pitch.panState.code), (1, 0), (2, (p.slots.currentCrop.1 % 65536).toNat),
    (2, (p.slots.currentCrop.2 % 65536).toNat), (2, (p.stab.yaw.bias % 65536).toNat), (2, (p.stab.pitch.bias % 65536).toNat),
    (2, positionCode p.lens.zoom.pos), (1, p.lens.zoom.state.code), (1, p.lens.focus.state.code),
    (2, positionCode p.lens.focus.pos), (2, p.lens.iris.duty), (1, p.lens.coord.distance), (3, 0), (1, p.recd.card.recState.code),
    (1, p.recd.card.state.code), (2, p.recd.card.clipNumber), (4, p.recd.card.freeUnits),
    (2, p.recd.ring.minutes p.recd.card.freeUnits p.recd.tc.rate), (2, 0), (4, p.recd.ring.releaseFront), (4, p.recd.ring.drops),
    (4, p.recd.ring.overruns), (4, p.recd.card.retired), (1, p.audio[0].held), (1, p.audio[1].held), (1, p.audio[2].held),
    (1, p.audio[3].held), (1, oversByte [p.audio[0].overSet, p.audio[1].overSet, p.audio[2].overSet, p.audio[3].overSet]),
    (163, 0)]

/-- The widths of these fields. -/
def statusWidths : List Nat :=
  [2, 1, 1, 1, 1, 2, 4, 4, 4, 4, 4, 4, 4, 1, 1, 1, 1, 2, 2, 2, 2, 2, 1, 1, 2, 2, 1, 3, 1, 1, 2, 4, 2, 2, 4, 4, 4, 4, 1, 1, 1, 1,
    1, 163]

theorem Part.statusFields_widths (g : Groups) (p : Part) : (p.statusFields g).map Prod.fst = statusWidths := rfl

theorem Part.statusFields_offset (g : Groups) (p : Part) (i : Nat) :
    fieldOffset (p.statusFields g) i = (statusWidths.take i).sum := by
  rw [← Part.statusFields_widths g p, ← List.map_take]
  rfl

theorem toList_four {α : Type} (v : Vector α 4) : v.toList = [v[0], v[1], v[2], v[3]] := by
  refine List.ext_getElem (by simp) fun i hi _ => ?_
  have small : i < 4 := by simpa using hi
  interval_cases i <;> rfl

theorem Part.statusRecord_bytes (g : Groups) (p : Part) : (p.statusRecord g).bytes = laidOut (p.statusFields g) := by
  have held : (p.audio.toList.map Channel.held).flatMap (leBytes 1) = leBytes 1 p.audio[0].held ++ (leBytes 1 p.audio[1].held ++
      (leBytes 1 p.audio[2].held ++ leBytes 1 p.audio[3].held)) := by
    rw [toList_four]
    simp
  have overs : p.audio.toList.map Channel.overSet =
      [p.audio[0].overSet, p.audio[1].overSet, p.audio[2].overSet, p.audio[3].overSet] := by
    rw [toList_four]
    rfl
  have signed (v : Int) : signedBytes 2 v = leBytes 2 (v % 65536).toNat := rfl
  unfold StatusRecord.bytes Part.statusRecord
  dsimp only
  rw [held, overs, ← leBytes_zero 163]
  simp only [signed, laidOut, Part.statusFields, List.flatMap_cons, List.flatMap_nil, List.append_nil, List.append_assoc]

/-- The number in `n` bytes of a record from an offset on. -/
def StatusRecord.field (r : StatusRecord) (o n : Nat) : Nat := leNat ((r.bytes.drop o).take n)

theorem Part.statusRecord_take {i o w v : Nat} (h : (p.statusFields g)[i]? = some (w, v))
    (ho : (statusWidths.take i).sum = o) : ((p.statusRecord g).bytes.drop o).take w = leBytes w v := by
  rw [Part.statusRecord_bytes, ← ho, ← Part.statusFields_offset g p]
  exact laidOut_take h

theorem Part.statusRecord_field {i o w v : Nat} (h : (p.statusFields g)[i]? = some (w, v))
    (ho : (statusWidths.take i).sum = o) : (p.statusRecord g).field o w = v % 256 ^ w := by
  unfold StatusRecord.field
  rw [Part.statusRecord_take h ho, leNat_leBytes]

theorem Part.statusRecord_length (g : Groups) (p : Part) : (p.statusRecord g).bytes.length = 256 := by
  rw [Part.statusRecord_bytes, laidOut_length, Part.statusFields_widths]
  decide

theorem Part.statusRecord_reserved {i o w j : Nat} (h : (p.statusFields g)[i]? = some (w, 0))
    (ho : (statusWidths.take i).sum = o) (hj : j < w) : (p.statusRecord g).bytes[o + j]? = some 0 := by
  rw [Part.statusRecord_bytes]
  exact laidOut_zero h ((Part.statusFields_offset ..).trans ho) hj

/-! ### The fields of each owner (12.1) -/

theorem Bool.toNat_mod_byte (b : Bool) : b.toNat % 256 = b.toNat := by cases b <;> rfl

theorem Part.statusRecord_head (g : Groups) (p : Part) :
    let r := p.statusRecord g
    r.field 0x00 2 = 0x0C64 ∧ r.field 0x02 1 = 1 ∧ r.field 0x03 1 = p.bus.report.cause.code ∧
      r.field 0x04 1 = (if p.phase = .running ∨ p.bus.report.image ≠ none then 1 else 0) ∧
      r.field 0x05 1 = (if p.map.conflict = true then 1 else 0) ∧ r.field 0x08 4 = g.word := by
  dsimp only
  refine ⟨Part.statusRecord_field (i := 0) rfl (by decide), Part.statusRecord_field (i := 1) rfl (by decide),
    (Part.statusRecord_field (i := 2) rfl (by decide)).trans ?_, (Part.statusRecord_field (i := 3) rfl (by decide)).trans ?_,
    (Part.statusRecord_field (i := 4) rfl (by decide)).trans ?_, (Part.statusRecord_field (i := 6) rfl (by decide)).trans ?_⟩
  · cases p.bus.report.cause <;> rfl
  · rw [pow_one, Bool.toNat_mod_byte]
    cases p.bus.report.image <;> simp [Bool.toNat, Bool.cond_decide]
  · cases p.map.conflict <;> rfl
  · refine Nat.mod_eq_of_lt ?_
    unfold Groups.word
    have lens := g.lens.toNat_le
    have stab := g.stab.toNat_le
    have recd := g.recd.toNat_le
    have card := g.card.toNat_le
    have audio := g.audio.toNat_le
    have frame := g.frame.toNat_le
    omega

theorem Part.statusRecord_frame (g : Groups) (p : Part) :
    let r := p.statusRecord g
    r.field 0x10 4 = p.slots.frameCounter % 2 ^ 32 ∧ r.field 0x14 4 = p.recd.tc.current.toNat % 2 ^ 32 ∧
      r.field 0x18 4 = p.slots.torn % 2 ^ 32 ∧ r.field 0x1C 4 = p.slots.skips % 2 ^ 32 ∧
      r.field 0x20 4 = p.slots.unshown % 2 ^ 32 :=
  ⟨Part.statusRecord_field (i := 8) rfl (by decide), Part.statusRecord_field (i := 9) rfl (by decide),
    Part.statusRecord_field (i := 10) rfl (by decide), Part.statusRecord_field (i := 11) rfl (by decide),
    Part.statusRecord_field (i := 12) rfl (by decide)⟩

theorem signed_toNat_mod (v : Int) : (v % 65536).toNat % 256 ^ 2 = (v % 65536).toNat := by omega

theorem Part.statusRecord_stab (g : Groups) (p : Part) :
    let r := p.statusRecord g
    r.field 0x24 1 = p.stab.mode.code ∧ r.field 0x25 1 = p.stab.yaw.panState.code ∧
      r.field 0x26 1 = p.stab.pitch.panState.code ∧ r.field 0x28 2 = (p.slots.currentCrop.1 % 65536).toNat ∧
      r.field 0x2A 2 = (p.slots.currentCrop.2 % 65536).toNat ∧ r.field 0x2C 2 = (p.stab.yaw.bias % 65536).toNat ∧
      r.field 0x2E 2 = (p.stab.pitch.bias % 65536).toNat := by
  dsimp only
  refine ⟨(Part.statusRecord_field (i := 13) rfl (by decide)).trans ?_,
    (Part.statusRecord_field (i := 14) rfl (by decide)).trans ?_,
    (Part.statusRecord_field (i := 15) rfl (by decide)).trans ?_,
    (Part.statusRecord_field (i := 17) rfl (by decide)).trans (signed_toNat_mod _),
    (Part.statusRecord_field (i := 18) rfl (by decide)).trans (signed_toNat_mod _),
    (Part.statusRecord_field (i := 19) rfl (by decide)).trans (signed_toNat_mod _),
    (Part.statusRecord_field (i := 20) rfl (by decide)).trans (signed_toNat_mod _)⟩
  · cases p.stab.mode <;> rfl
  · cases p.stab.yaw.panState <;> rfl
  · cases p.stab.pitch.panState <;> rfl

/-- With no complete slot the crop fields read 0 (R25). -/
theorem Part.statusRecord_noCrop (g : Groups) (h : p.slots.completion = []) : (p.statusRecord g).field 0x28 4 = 0 := by
  have none : p.slots.currentCrop = (0, 0) := by
    unfold SlotManager.currentCrop SlotManager.newest
    rw [h]
    rfl
  have dx : ((p.statusRecord g).bytes.drop 0x28).take 2 = leBytes 2 0 := by
    refine (Part.statusRecord_take (i := 17) rfl (by decide)).trans ?_
    rw [none]
    rfl
  have dy : ((p.statusRecord g).bytes.drop 0x2A).take 2 = leBytes 2 0 := by
    refine (Part.statusRecord_take (i := 18) rfl (by decide)).trans ?_
    rw [none]
    rfl
  unfold StatusRecord.field
  rw [List.take_add (i := 2) (j := 2), List.drop_drop, dx, dy]
  rfl

theorem AxisState.code_mod (a : AxisState) : a.code % 256 ^ 1 = a.code := by cases a <;> rfl

theorem Part.statusRecord_lens (g : Groups) (p : Part) :
    let r := p.statusRecord g
    r.field 0x30 2 = p.lens.zoom.pos.getD 0xFFFF % 65536 ∧ r.field 0x34 2 = p.lens.focus.pos.getD 0xFFFF % 65536 ∧
      r.field 0x32 1 = p.lens.zoom.state.code ∧ r.field 0x33 1 = p.lens.focus.state.code ∧
      r.field 0x36 2 = p.lens.iris.duty % 65536 ∧ r.field 0x38 1 = p.lens.coord.distance % 256 :=
  ⟨Part.statusRecord_field (i := 21) rfl (by decide), Part.statusRecord_field (i := 24) rfl (by decide),
    (Part.statusRecord_field (i := 22) rfl (by decide)).trans (AxisState.code_mod _),
    (Part.statusRecord_field (i := 23) rfl (by decide)).trans (AxisState.code_mod _),
    Part.statusRecord_field (i := 25) rfl (by decide), Part.statusRecord_field (i := 26) rfl (by decide)⟩

theorem Part.statusRecord_recorder (g : Groups) (p : Part) :
    let r := p.statusRecord g
    r.field 0x3C 1 = p.recd.card.recState.code ∧ r.field 0x3D 1 = p.recd.card.state.code ∧
      r.field 0x40 4 = p.recd.card.freeUnits % 2 ^ 32 ∧
      r.field 0x44 2 = p.recd.ring.minutes p.recd.card.freeUnits p.recd.tc.rate ∧
      r.field 0x3E 2 = p.recd.card.clipNumber % 2 ^ 16 ∧ r.field 0x48 4 = p.recd.ring.releaseFront % 2 ^ 32 ∧
      r.field 0x4C 4 = p.recd.ring.drops % 2 ^ 32 ∧ r.field 0x50 4 = p.recd.ring.overruns % 2 ^ 32 ∧
      r.field 0x54 4 = p.recd.card.retired % 2 ^ 32 := by
  dsimp only
  refine ⟨(Part.statusRecord_field (i := 28) rfl (by decide)).trans ?_,
    (Part.statusRecord_field (i := 29) rfl (by decide)).trans ?_,
    Part.statusRecord_field (i := 31) rfl (by decide), (Part.statusRecord_field (i := 32) rfl (by decide)).trans ?_,
    Part.statusRecord_field (i := 30) rfl (by decide), Part.statusRecord_field (i := 34) rfl (by decide),
    Part.statusRecord_field (i := 35) rfl (by decide), Part.statusRecord_field (i := 36) rfl (by decide),
    Part.statusRecord_field (i := 37) rfl (by decide)⟩
  · cases p.recd.card.recState <;> rfl
  · cases p.recd.card.state <;> rfl
  · exact Nat.mod_eq_of_lt ((Nat.min_le_left ..).trans_lt (by decide))

/-- The OVER byte holds a bit for each channel. -/
theorem oversByte_testBit (a b c d : Bool) (n : ChannelNo) :
    (oversByte [a, b, c, d] % 256 ^ 1).testBit n.val = [a, b, c, d][n] := by
  revert a b c d n
  decide

theorem Part.statusRecord_audio (g : Groups) (p : Part) (n : ChannelNo) :
    (p.statusRecord g).field (0x58 + n.val) 1 = p.audio[n].held % 256 ∧
      ((p.statusRecord g).field 0x5C 1).testBit n.val = p.audio[n].overSet := by
  constructor
  · fin_cases n
    · exact Part.statusRecord_field (i := 38) rfl (by decide)
    · exact Part.statusRecord_field (i := 39) rfl (by decide)
    · exact Part.statusRecord_field (i := 40) rfl (by decide)
    · exact Part.statusRecord_field (i := 41) rfl (by decide)
  · rw [Part.statusRecord_field (i := 42) rfl (by decide), oversByte_testBit]
    fin_cases n <;> rfl

/-- The reserved bytes before the channels. -/
theorem Part.statusRecord_reservedInside (g : Groups) (p : Part) :
    ∀ i ∈ [0x06, 0x07, 0x0C, 0x0D, 0x0E, 0x0F, 0x27, 0x39, 0x3A, 0x3B, 0x46, 0x47], (p.statusRecord g).bytes[i]? = some 0 := by
  have six {j : Nat} : j < 2 → (p.statusRecord g).bytes[0x06 + j]? = some 0 :=
    Part.statusRecord_reserved (i := 5) rfl (by decide)
  have twelve {j : Nat} : j < 4 → (p.statusRecord g).bytes[0x0C + j]? = some 0 :=
    Part.statusRecord_reserved (i := 7) rfl (by decide)
  have pan {j : Nat} : j < 1 → (p.statusRecord g).bytes[0x27 + j]? = some 0 :=
    Part.statusRecord_reserved (i := 16) rfl (by decide)
  have lens {j : Nat} : j < 3 → (p.statusRecord g).bytes[0x39 + j]? = some 0 :=
    Part.statusRecord_reserved (i := 27) rfl (by decide)
  have minutes {j : Nat} : j < 2 → (p.statusRecord g).bytes[0x46 + j]? = some 0 :=
    Part.statusRecord_reserved (i := 33) rfl (by decide)
  simp only [List.forall_mem_cons, List.not_mem_nil, false_implies, implies_true, and_true]
  exact ⟨six (j := 0) (by decide), six (j := 1) (by decide), twelve (j := 0) (by decide), twelve (j := 1) (by decide),
    twelve (j := 2) (by decide), twelve (j := 3) (by decide), pan (j := 0) (by decide), lens (j := 0) (by decide),
    lens (j := 1) (by decide), lens (j := 2) (by decide), minutes (j := 0) (by decide), minutes (j := 1) (by decide)⟩

end

end Sys2Proof.Machine

end

section
/-! PROOFS. The lens table's layout and its checks (06 section 6.2, R101). -/

namespace Sys2Proof.Machine

/-! ### The first check that fails -/

section

variable {tests : List (Nat × Prop)} {checks : List (Nat × Bool)}

/-- A check that decides a test, under its number. -/
def Decides (test : Nat × Prop) (check : Nat × Bool) : Prop := check.1 = test.1 ∧ (check.2 = true ↔ test.2)

theorem find?_failed (h : List.Forall₂ Decides tests checks) {before after : List (Nat × Prop)} {n : Nat} {test : Prop}
    (ht : tests = before ++ (n, test) :: after) (hb : ∀ x ∈ before, x.2) (hn : ¬test) :
    (checks.find? fun c => !c.2).map Prod.fst = some n := by
  subst ht
  induction before generalizing checks with
  | nil =>
    cases h with
    | cons decides _ =>
      obtain ⟨number, holds⟩ := decides
      rw [List.find?_cons_of_pos (by simpa using fun hc => hn (holds.1 hc))]
      exact congrArg some number
  | cons x before ih =>
    cases h with
    | cons decides rest =>
      obtain ⟨-, holds⟩ := decides
      rw [List.find?_cons_of_neg (by simpa [holds] using hb x (List.mem_cons_self ..))]
      exact ih (fun y hy => hb y (List.mem_cons_of_mem _ hy)) rest

theorem find?_passed (h : List.Forall₂ Decides tests checks) (ht : ∀ x ∈ tests, x.2) :
    (checks.find? fun c => !c.2).map Prod.fst = none := by
  induction h with
  | nil => rfl
  | cons decides _ ih =>
    obtain ⟨-, holds⟩ := decides
    rw [List.find?_cons_of_neg (by simpa [holds] using ht _ (List.mem_cons_self ..))]
    exact ih fun y hy => ht y (List.mem_cons_of_mem _ hy)

end

/-! ### The table's fields (12) -/

section

variable {b : List Byte} {t : LensTable}

/-- The number in two bytes from an offset on. -/
def halfAt (b : List Byte) (o : Nat) : Nat := leNat ((b.drop o).take 2)

theorem fieldAt_two {o : Nat} (hb : b.length = 256) (ho : o + 2 ≤ 256) : fieldAt b o 2 = halfAt b o := by
  unfold fieldAt halfAt
  rw [bytesAt_eq_drop_take (hb ▸ ho)]

theorem halfAt_lt (b : List Byte) (o : Nat) : halfAt b o < 65536 := by
  refine (leNat_lt _).trans_le ?_
  exact Nat.pow_le_pow_right (by decide) (List.length_take_le ..)

/-- Point `i` of the table. -/
def lensPointAt (b : List Byte) (i : Nat) : LensPoint :=
  ⟨halfAt b (0x10 + 8 * i), halfAt b (0x12 + 8 * i), halfAt b (0x14 + 8 * i), halfAt b (0x16 + 8 * i)⟩

/-- The fields of a table. -/
theorem LensTable.ofBytes_eq (hb : b.length = 256) : LensTable.ofBytes b =
    ⟨halfAt b 0, halfAt b 2, halfAt b 4, halfAt b 6, (List.range 17).map (lensPointAt b)⟩ := by
  have points : ((List.range 17).map fun i => (⟨fieldAt b (0x10 + 8 * i) 2, fieldAt b (0x12 + 8 * i) 2,
      fieldAt b (0x14 + 8 * i) 2, fieldAt b (0x16 + 8 * i) 2⟩ : LensPoint)) = (List.range 17).map (lensPointAt b) := by
    refine List.map_congr_left fun i hi => ?_
    have small := List.mem_range.1 hi
    unfold lensPointAt
    rw [fieldAt_two hb (by omega), fieldAt_two hb (by omega), fieldAt_two hb (by omega), fieldAt_two hb (by omega)]
  unfold LensTable.ofBytes
  rw [points, fieldAt_two hb (by omega), fieldAt_two hb (by omega), fieldAt_two hb (by omega), fieldAt_two hb (by omega)]

theorem risingPoints_iff (ps : List LensPoint) : risingPoints ps = true ↔ ps.IsChain fun p q => p.z < q.z := by
  induction ps with
  | nil => exact ⟨fun _ => .nil, fun _ => rfl⟩
  | cons p ps ih =>
    cases ps with
    | nil => exact ⟨fun _ => .singleton _, fun _ => rfl⟩
    | cons q ps => rw [risingPoints, Bool.and_eq_true, decide_eq_true_iff, ih, List.isChain_cons_cons]

theorem within_iff {low high n : Nat} : within low high n = true ↔ low ≤ n ∧ n ≤ high := by
  unfold within
  rw [Bool.and_eq_true, decide_eq_true_iff, decide_eq_true_iff]

/-- The ten tests of R101 on a table's bytes, each with its number. -/
def lensTests (b : List Byte) (moves : Bool) : List (Nat × Prop) :=
  let t := LensTable.ofBytes b
  [(1, 1 ≤ t.zr ∧ t.zr ≤ 60000), (2, 1 ≤ t.fr ∧ t.fr ≤ 60000), (3, t.zoomHome ≤ t.zr), (4, t.focusHome ≤ t.fr),
    (5, halfAt b (0x10 + 8 * 0) = 0), (6, ∀ i < 16, halfAt b (0x10 + 8 * i) < halfAt b (0x10 + 8 * (i + 1))),
    (7, halfAt b (0x10 + 8 * 16) = t.zr), (8, ∀ i < 17, 1 ≤ halfAt b (0x12 + 8 * i)),
    (9, ∀ i < 17, halfAt b (0x14 + 8 * i) ≤ halfAt b (0x16 + 8 * i) ∧ halfAt b (0x16 + 8 * i) ≤ t.fr), (16, moves = false)]

theorem LensTable.checks_decide (hb : b.length = 256) (moves : Bool) :
    List.Forall₂ Decides (lensTests b moves) ((LensTable.ofBytes b).checks moves) := by
  have table := LensTable.ofBytes_eq hb
  have points : (LensTable.ofBytes b).points = (List.range 17).map (lensPointAt b) := by rw [table]
  unfold lensTests LensTable.checks
  rw [points]
  refine .cons ⟨rfl, within_iff⟩ (.cons ⟨rfl, within_iff⟩ (.cons ⟨rfl, decide_eq_true_iff⟩ (.cons ⟨rfl, decide_eq_true_iff⟩
    (.cons ⟨rfl, ?_⟩ (.cons ⟨rfl, ?_⟩ (.cons ⟨rfl, ?_⟩ (.cons ⟨rfl, ?_⟩ (.cons ⟨rfl, ?_⟩ (.cons ⟨rfl, ?_⟩ .nil)))))))))
  · exact beq_iff_eq.trans Option.some_inj
  · rw [risingPoints_iff, List.isChain_iff_getElem]
    simp only [List.length_map, List.length_range, List.getElem_map, List.getElem_range]
    exact ⟨fun h i hi => h i (by omega), fun h i hi => h i (by omega)⟩
  · exact beq_iff_eq.trans Option.some_inj
  · rw [List.all_eq_true]
    simp only [List.mem_map, List.mem_range, forall_exists_index, and_imp, forall_apply_eq_imp_iff₂, within_iff]
    exact forall₂_congr fun i _ => and_iff_left (Nat.le_of_lt_succ (halfAt_lt ..))
  · rw [List.all_eq_true]
    simp only [List.mem_map, List.mem_range, forall_exists_index, and_imp, forall_apply_eq_imp_iff₂, Bool.and_eq_true,
      decide_eq_true_eq]
    rfl
  · cases moves <;> decide

end

end Sys2Proof.Machine

end

section
/-! PROOFS. Granted PART requests (01 section 1.5): the queue, stamps and mirrors, and the load of a lens table. -/

namespace Sys2Proof.Machine

/-! ### The queue of the PART class -/

section

variable {s : State} {p : Part} {r : PartReq} {mem : Memory}

/-- A granted PART request, by what its grant gives. -/
theorem exec_partGrant_eq (h : PartIsNext s.part r) (hg : Part.grantPart s.mem { s.part with lastGrant := .part } r = (p, mem)) :
    exec .partRequestGrant s = .next { s with part := p, mem := mem } := by
  rw [exec_partGrant h, hg]

theorem Part.dequeue_free (h : p.bus.cmd.restart = none) :
    p.dequeue = { p with bus := { p.bus with partQ := p.bus.partQ.drop 1 } } := by
  unfold Part.dequeue Bus.restartProgress
  rw [h]

theorem OutcomeCode.final_iff {c : OutcomeCode} (h : c ≠ .noOutcome) : c.final = true ↔ c ≠ .pending := by
  unfold OutcomeCode.final
  simp [h]

/-- An outcome write's effect on the report unit: CMD_DONE unless PENDING, then the factors noted are removed (R23, R32). -/
theorem Bus.outcomeGranted_eq {c : OutcomeCode} (h : c ≠ .noOutcome) (ack : Word) (b : Bus) :
    b.outcomeGranted c ack = (if c = .pending then b else b.raise .cmdDone).setPending
      ((if c = .pending then b else b.raise .cmdDone).report.pending &&& ~~~ack) := by
  have raised : (if c.final = true then b.raise .cmdDone else b) = if c = .pending then b else b.raise .cmdDone := by
    by_cases hc : c = .pending
    · rw [if_pos hc, if_neg fun hf => (OutcomeCode.final_iff h).1 hf hc]
    · rw [if_neg hc, if_pos ((OutcomeCode.final_iff h).2 hc)]
  unfold Bus.outcomeGranted
  rw [raised]

theorem Bus.outcomeGranted_restart (c : OutcomeCode) (ack : Word) (b : Bus) :
    (b.outcomeGranted c ack).cmd.restart = b.cmd.restart := by
  unfold Bus.outcomeGranted
  dsimp only
  rw [Bus.setPending_cmd]
  split
  · rw [Bus.raise_cmd]
  · rfl

end

/-! ### Stamps (R124, R127) -/

section

variable {m : RingMonitor} {R n : Nat} {e : QueueEntry}

theorem RingMonitor.stampFlags_entry (he : e ∈ m.queue) (hn : e.number = n) (hu : ∀ x ∈ m.queue, x.number = n → x = e)
    (est ov : Bool) : m.stampFlags n est ov = est.toNat + 2 * e.overwritten.toNat := by
  have found : m.queue.find? (fun x => decide (x.number = n)) = some e := by
    cases hf : m.queue.find? (fun x => decide (x.number = n)) with
    | none => exact absurd (List.find?_eq_none.1 hf e he) (by simp [hn])
    | some x => rw [hu x (List.mem_of_find?_eq_some hf) (by simpa using List.find?_some hf)]
  unfold RingMonitor.stampFlags
  rw [found]
  rfl

theorem RingMonitor.stampFlags_gone (h : ∀ x ∈ m.queue, x.number ≠ n) (est ov : Bool) :
    m.stampFlags n est ov = est.toNat + 2 * ov.toNat := by
  have gone : m.queue.find? (fun x => decide (x.number = n)) = none :=
    List.find?_eq_none.2 fun x hx => by simpa using h x hx
  unfold RingMonitor.stampFlags
  rw [gone]
  rfl

/-- The entry of a granted stamp is STAMPED while the drain front is not past its start (R127, R128). -/
theorem RingMonitor.stampGranted_entry (hj : e.state = .joined) (hw : e.stampsWaiting = 1)
    (hu : ∀ x ∈ m.queue, x.number = n → x = e) (hd : m.drainAhead ≤ m.ahead R e.offset) :
    m.stampGranted R n = { m with
      queue := m.queue.map fun x => if x.number = n then { x with stampsWaiting := 0, state := .stamped } else x } := by
  have entries : (m.queue.map fun x => if x.number = n then
      { x with stampsWaiting := x.stampsWaiting - 1 }.follow (m.ahead R x.offset) m.drainAhead else x) =
      m.queue.map fun x => if x.number = n then { x with stampsWaiting := 0, state := .stamped } else x := by
    refine List.map_congr_left fun x hx => ?_
    by_cases hn : x.number = n
    · rw [if_pos hn, if_pos hn, hu x hx hn, QueueEntry.follow_eq]
      simp only [hj, hw, hd, Nat.sub_self, Nat.lt_irrefl, or_false, reduceCtorEq, if_true, if_false]
    · rw [if_neg hn, if_neg hn]
  unfold RingMonitor.stampGranted
  rw [entries]

theorem RingMonitor.stampGranted_gone (h : ∀ x ∈ m.queue, x.number ≠ n) : m.stampGranted R n = m := by
  have entries : (m.queue.map fun x => if x.number = n then
      { x with stampsWaiting := x.stampsWaiting - 1 }.follow (m.ahead R x.offset) m.drainAhead else x) = m.queue :=
    (List.map_congr_left fun x hx => if_neg (h x hx)).trans (List.map_id _)
  unfold RingMonitor.stampGranted
  rw [entries]

end

/-! ### The load of a lens table (R77, R101) -/

section

variable {j : LensWork} {l : Lens} {t : LensTable} {slot : CmdSlot} {b : Nat}

/-- An axis reset to a table (R77). -/
theorem Job.resetAxis_spec (n : AxisName) (t : LensTable) (j : LensWork) :
    (j.resetAxis n t).st.axis n =
      { ({ j.st.axis n with holder := none, pendingMove := none }.rest .unhomed).losePosition with
        dir := none, low := 0, high := t.range n } ∧
    (j.resetAxis n t).st.axis (otherAxis n) = j.st.axis (otherAxis n) ∧
    (j.resetAxis n t).st.coord.table = j.st.coord.table ∧ (j.resetAxis n t).st.coord.load = j.st.coord.load := by
  unfold Job.resetAxis
  dsimp only
  rw [Job.endMotions_eq]
  cases n <;> exact ⟨rfl, rfl, rfl, rfl⟩

/-- A table of the same travel replaces the one in force (R77). -/
theorem Job.install_same {u : LensTable} (ht : j.st.coord.table = some u) (hz : sameTravel .zoom t (some u) = true)
    (hf : sameTravel .focus t (some u) = true) (hu : j.st.coord.tracking = false) :
    j.install t = j.coord fun c => { c with table := some t } := by
  unfold Job.install
  dsimp only
  rw [ht, hz, hf]
  exact Job.retarget_of_untracked (j := j.coord fun c => { c with table := some t }) hu

/-- A first table resets both axes (R77). -/
theorem Job.install_first (ht : j.st.coord.table = none) : (j.install t).st.coord.table = some t ∧
    (j.install t).st.coord.load = j.st.coord.load ∧
    ∀ n : AxisName, ((j.install t).st.axis n).state = .unhomed ∧ ((j.install t).st.axis n).pos = none ∧
      ((j.install t).st.axis n).dir = none ∧ ((j.install t).st.axis n).low = 0 ∧
      ((j.install t).st.axis n).high = t.range n ∧ ((j.install t).st.axis n).holder = none ∧
      ((j.install t).st.axis n).pendingMove = none := by
  let zoomReset : LensWork := (j.coord fun c => { c with table := some t }).resetAxis .zoom t
  let bothReset : LensWork := zoomReset.resetAxis .focus t
  obtain ⟨zoom, -, table₁, load₁⟩ := Job.resetAxis_spec .zoom t (j.coord fun c => { c with table := some t })
  obtain ⟨focus, kept, table₂, load₂⟩ := Job.resetAxis_spec .focus t zoomReset
  have zoomEnd : bothReset.st.axis .zoom = zoomReset.st.axis .zoom := kept
  have installed : j.install t = bothReset := by
    unfold Job.install
    dsimp only
    rw [ht]
    refine Job.retarget_of_noZoom (j := bothReset) ?_
    exact congrArg StepAxis.pos (zoomEnd.trans zoom)
  rw [installed]
  refine ⟨table₂.trans table₁, load₂.trans load₁, fun n => ?_⟩
  cases n with
  | zoom =>
    rw [zoomEnd, zoom]
    exact ⟨rfl, rfl, rfl, rfl, rfl, rfl, rfl⟩
  | focus =>
    rw [focus]
    exact ⟨rfl, rfl, rfl, rfl, rfl, rfl, rfl⟩

theorem Job.judgeLoad_failed {bytes : List Byte} {check : Nat} (hl : l.coord.load = some ⟨b, slot⟩)
    (hc : (LensTable.ofBytes bytes).firstBad l.inMotion = some check) :
    (Job.start l).judgeLoad bytes =
      ⟨{ l with coord := { l.coord with load := none } }, [.finish slot .failed check]⟩ := by
  unfold Job.judgeLoad
  dsimp only [Job.start]
  rw [hl]
  dsimp only
  rw [hc]
  rfl

theorem Job.judgeLoad_sound {bytes : List Byte} (hl : l.coord.load = some ⟨b, slot⟩)
    (hc : (LensTable.ofBytes bytes).firstBad l.inMotion = none) :
    (Job.start l).judgeLoad bytes =
      (Job.install (LensTable.ofBytes bytes) (.start { l with coord := { l.coord with load := none } })).emit
        (.finish slot .done 0) := by
  unfold Job.judgeLoad
  dsimp only [Job.start]
  rw [hl]
  dsimp only
  rw [hc]
  rfl

end

end Sys2Proof.Machine

end

section
/-! PROOFS. What a PART grant writes (01 section 1.5, 02 sections 2.2 to 2.4, 06 section 6.2, 07 section 7.6, 12). -/

namespace Sys2Proof.Machine

section

variable {s : State}

/-- The grant of an outcome write (R23, R32). -/
theorem exec_outcomeGrant {slot : CmdSlot} {code : OutcomeCode} {detail uses kind : Byte} {ack : Word}
    (h : PartIsNext s.part (.outcome slot code detail uses kind ack)) (hr : s.part.bus.cmd.restart = none) :
    exec .partRequestGrant s = .next { s with
      part := { s.part with
        lastGrant := .part
        bus := { s.part.bus.outcomeGranted code ack with partQ := (s.part.bus.outcomeGranted code ack).partQ.drop 1 } }
      mem := s.mem.writeBytes (s.part.map.controlBase + 64 * slot.val + 4)
        [BitVec.ofNat 8 code.number, detail, uses, kind] } := by
  have free : ({ s.part with lastGrant := .part, bus := s.part.bus.outcomeGranted code ack } : Part).bus.cmd.restart = none :=
    (Bus.outcomeGranted_restart ..).trans hr
  exact exec_partGrant_eq h (Prod.ext (Part.dequeue_free free) rfl)

theorem ReportUnit.factorBytes_eq (r : ReportUnit) : r.factorBytes = leBytes 4 r.pending.toNat ++ leBytes 4 r.mask.toNat ++
    [if r.clearMode = .onAck then 1 else 0] ++ List.replicate 23 0 := by
  unfold ReportUnit.factorBytes
  cases r.clearMode <;> rfl

/-- The grant of a mirror write's last piece (R15). -/
theorem Part.mirrorGranted_rests {p : Part} (hr : p.bus.cmd.restart = none) (hrest : p.recd.card.Rests) :
    (p.dequeue.onRecorder fun r => (Job.start r).mirrorGranted) = { p with
      bus := { p.bus with partQ := p.bus.partQ.drop 1 }
      recd := { p.recd with card := { p.recd.card with mirrorWrites := p.recd.card.mirrorWrites - 1 } } } := by
  rw [Part.dequeue_free hr]
  exact Part.onRecorder_rests (out := [])
    (r := { p.recd with card := { p.recd.card with mirrorWrites := p.recd.card.mirrorWrites - 1 } }) rfl hrest

/-- The grant of a stamp write, at the ring monitor (R127). -/
theorem Part.stampGranted_rests {p : Part} {n : Nat} {m : RingMonitor} (hr : p.bus.cmd.restart = none)
    (hrest : p.recd.card.Rests) (hm : p.recd.ring.stampGranted p.map.ringSize n = m) :
    (p.dequeue.onRecorder fun r => (Job.start r).ring fun q => q.stampGranted p.map.ringSize n) =
      { p with bus := { p.bus with partQ := p.bus.partQ.drop 1 }, recd := { p.recd with ring := m } } := by
  rw [Part.dequeue_free hr]
  exact Part.onRecorder_rests (out := []) (r := { p.recd with ring := m }) (by rw [← hm]; rfl) hrest

/-- The grant of a lens table load that no RESTART has overtaken (R101). -/
theorem exec_lensLoad {a : Nat} {j : LensWork} (h : PartIsNext s.part (.lensLoad a false)) (hr : s.part.bus.cmd.restart = none)
    (hj : (Job.start s.part.lens).judgeLoad (s.mem.readBytes a 256) = j) : exec .partRequestGrant s =
      .next { s with part := { s.part with
        lastGrant := .part
        lens := j.st
        bus := ({ s.part.bus with partQ := s.part.bus.partQ.drop 1 } : Bus).meetAll j.out } } := by
  have judged : (({ s.part with lastGrant := .part } : Part).dequeue.lensJob fun j => j.judgeLoad (s.mem.readBytes a 256)) =
      { s.part with
        lastGrant := .part
        lens := j.st
        bus := ({ s.part.bus with partQ := s.part.bus.partQ.drop 1 } : Bus).meetAll j.out } := by
    rw [Part.dequeue_free (p := { s.part with lastGrant := .part }) hr, ← hj]
    rfl
  exact exec_partGrant_eq h (Prod.ext judged rfl)

end

/-- Settles O19: one kind of PART request after the other, and the checks of a lens table. -/
theorem partGrantsWriteTheRecords : Obligations.PartGrantsWriteTheRecords := by
  unfold Obligations.PartGrantsWriteTheRecords
  refine ⟨fun s slot code detail uses kind ack hnext hr hc => ?_, fun s hr => ⟨fun hnext => ?_, fun hnext => ?_,
    fun a pieces hnext => ?_⟩, fun b t moves ht hb => ?_, fun s hr => ⟨fun slot hnext => ?_, fun record hnext => ?_,
    fun a bytes hnext => ⟨fun hn hrest => ?_, fun hn => ?_⟩, fun n a tc rm est ov e hnext hrest he hen hj hw hu hd => ?_,
    fun n a tc rm est ov hnext hrest hgone => ?_, fun a hnext => ?_, fun a b slot hnext hload => ⟨fun check hbad => ?_,
      fun hsound => ⟨fun u hu hz hf hzh hfh htr => ?_, fun hnone => ?_⟩⟩⟩⟩
  case refine_1 =>
    refine ⟨_, exec_outcomeGrant hnext hr, rfl, ?_, ?_⟩
    · dsimp only
      rw [Bus.outcomeGranted_eq hc]
    · dsimp only
      rw [Bus.outcomeGranted_eq hc, Bus.setPending_report]
      dsimp only
      split
      · rfl
      · rw [Bus.pending_raise]
  case refine_2 =>
    have free : (({ s.part with lastGrant := .part } : Part).formStatus.1).bus.cmd.restart = none := hr
    intro groups written
    have same : written = s.part.statusRecord groups := rfl
    refine ⟨exec_partGrant_eq hnext (Prod.ext (Part.dequeue_free free) rfl), ?_⟩
    clear_value written groups
    subst same
    obtain ⟨magic, version, cause, running, conflict, changed⟩ := Part.statusRecord_head groups s.part
    obtain ⟨mode, yaw, pitch, dx, dy, biasYaw, biasPitch⟩ := Part.statusRecord_stab groups s.part
    obtain ⟨zoomPos, focusPos, zoomState, focusState, duty, distance⟩ := Part.statusRecord_lens groups s.part
    obtain ⟨recState, cardState, free, minutes, clip, limit, drops, overruns, retired⟩ :=
      Part.statusRecord_recorder groups s.part
    refine ⟨Part.statusRecord_length groups s.part, ⟨magic, version, cause.trans ?_, running, conflict, changed⟩,
      Part.statusRecord_frame groups s.part, ⟨mode.trans ?_, ?_, biasYaw, biasPitch⟩, fun k f hk hf => ?_,
      Part.statusRecord_noCrop groups,
      ⟨zoomPos, focusPos, zoomState.trans ?_, focusState.trans ?_, duty, distance⟩,
      ⟨recState.trans ?_, cardState.trans ?_, free, minutes.trans ?_, clip, limit, drops, overruns, retired⟩,
      Part.statusRecord_audio groups s.part, Part.statusRecord_reservedInside groups s.part,
      fun i hi => Part.statusRecord_reserved (i := 43) rfl (by decide) hi⟩
    · cases s.part.bus.report.cause <;> rfl
    · cases s.part.stab.mode <;> rfl
    · simp only [List.forall_mem_cons, List.not_mem_nil, false_implies, implies_true, and_true]
      refine ⟨yaw.trans ?_, pitch.trans ?_⟩
      · cases s.part.stab.yaw.panState <;> rfl
      · cases s.part.stab.pitch.panState <;> rfl
    · have crop : s.part.slots.currentCrop = (f.dx, f.dy) := by
        unfold SlotManager.currentCrop SlotManager.newest
        rw [hk]
        dsimp only [Option.bind_some]
        unfold SlotManager.frameIn
        rw [hf]
      rw [crop] at dx dy
      exact ⟨dx, dy⟩
    · cases s.part.lens.zoom.state <;> rfl
    · cases s.part.lens.focus.state <;> rfl
    · cases s.part.recd.card.recState <;> rfl
    · cases s.part.recd.card.state <;> rfl
    · unfold RingMonitor.minutes
      cases s.part.recd.tc.rate <;> rfl
  case refine_3 =>
    have phase : (if s.part.phase = .zeroing then { s.part with lastGrant := .part, phase := .recordsWritten }
        else { s.part with lastGrant := .part } : Part) =
        { s.part with lastGrant := .part, phase := if s.part.phase = .zeroing then .recordsWritten else s.part.phase } := by
      split <;> rfl
    refine exec_partGrant_eq hnext (Prod.ext ?_ ?_)
    · exact (congrArg Part.dequeue phase).trans (Part.dequeue_free hr)
    · rw [← ReportUnit.factorBytes_eq]
      rfl
  case refine_4 =>
    refine exec_partGrant_eq hnext (Prod.ext ?_ rfl)
    change (if pieces ≤ 1 then _ else _) = _
    split
    · exact Part.dequeue_free hr
    · rfl
  case refine_5 =>
    subst ht
    have table := LensTable.ofBytes_eq hb
    have decides := LensTable.checks_decide hb moves
    refine ⟨congrArg LensTable.zr table, congrArg LensTable.fr table, congrArg LensTable.zoomHome table,
      congrArg LensTable.focusHome table, by rw [table]; rfl, fun i hi => ?_, fun before after check test ht hb hn =>
        find?_failed decides ht hb hn, find?_passed decides⟩
    rw [table]
    exact (List.getElem?_map ..).trans (by rw [List.getElem?_range hi]; rfl)
  case refine_6 => exact exec_partGrant_eq hnext (Prod.ext (Part.dequeue_free hr) rfl)
  case refine_7 => exact exec_partGrant_eq hnext (Prod.ext (Part.dequeue_free hr) rfl)
  case refine_8 =>
    refine exec_partGrant_eq hnext (Prod.ext ?_ ?_)
    · exact (if_pos hn).trans (Part.mirrorGranted_rests hr hrest)
    · exact congrArg (s.mem.writeBytes a) (List.take_of_length_le hn)
  case refine_9 => exact exec_partGrant_eq hnext (Prod.ext (if_neg (Nat.not_le.2 hn)) rfl)
  case refine_10 =>
    refine exec_partGrant_eq hnext (Prod.ext ?_ ?_)
    · exact Part.stampGranted_rests hr hrest (RingMonitor.stampGranted_entry hj hw hu hd)
    · change s.mem.writeBytes _ (_ ++ leBytes 4 (s.part.recd.ring.stampFlags n est ov)) = _
      rw [RingMonitor.stampFlags_entry he hen hu]
  case refine_11 =>
    refine exec_partGrant_eq hnext (Prod.ext ?_ ?_)
    · exact Part.stampGranted_rests hr hrest (RingMonitor.stampGranted_gone hgone)
    · change s.mem.writeBytes _ (_ ++ leBytes 4 (s.part.recd.ring.stampFlags n est ov)) = _
      rw [RingMonitor.stampFlags_gone hgone]
  case refine_12 => exact exec_partGrant_eq hnext (Prod.ext (Part.dequeue_free hr) rfl)
  case refine_13 => exact exec_lensLoad hnext hr (Job.judgeLoad_failed hload hbad)
  case refine_14 =>
    let t : LensTable := .ofBytes (s.mem.readBytes a 256)
    have judged := Job.judgeLoad_sound (bytes := s.mem.readBytes a 256) hload hsound
    have zoom : sameTravel .zoom t (some u) = true := by
      simp only [sameTravel, Bool.and_eq_true, decide_eq_true_eq]
      exact ⟨hz, hzh⟩
    have focus : sameTravel .focus t (some u) = true := by
      simp only [sameTravel, Bool.and_eq_true, decide_eq_true_eq]
      exact ⟨hf, hfh⟩
    rw [Job.install_same hu zoom focus htr] at judged
    exact exec_lensLoad hnext hr judged
  case refine_15 =>
    have judged := Job.judgeLoad_sound (bytes := s.mem.readBytes a 256) hload hsound
    obtain ⟨table, load, axes⟩ := Job.install_first (t := LensTable.ofBytes (s.mem.readBytes a 256))
      (j := .start { s.part.lens with coord := { s.part.lens.coord with load := none } }) hnone
    refine ⟨_, exec_lensLoad hnext hr judged, rfl, table, load, ?_, fun n => ?_⟩
    · dsimp only [Job.emit]
      unfold Bus.meetAll
      rw [List.foldl_append]
      exact Bus.answer_last ..
    · cases n
      · exact axes .zoom
      · exact axes .focus

end Sys2Proof.Machine

end

section
/-! PROOFS. Trims of whole GOPs, one after another, and no further than needed (07 sections 7.2 to 7.4). -/

namespace Sys2Proof.Machine

section

variable {R fuel : Nat} {m m' m'' : RingMonitor} {kept kept' : List QueueEntry} {excess : RingMonitor → Bool}

/-- GOPs trimmed while a condition holds, at most `fuel` of them: what R119 and R122 have in common. -/
def RingMonitor.trimWhile (R : Nat) (excess : RingMonitor → Bool) : Nat → RingMonitor → RingMonitor
  | 0, m => m
  | fuel + 1, m => if excess m then RingMonitor.trimWhile R excess fuel (m.trim R) else m

theorem RingMonitor.trimDepthFor_eq_trimWhile (R fuel : Nat) (m : RingMonitor) :
    m.trimDepthFor R fuel = m.trimWhile R (fun m => decide (m.depth < m.videoFrames)) fuel := by
  induction fuel generalizing m with
  | zero => rfl
  | succ fuel ih =>
    unfold RingMonitor.trimDepthFor RingMonitor.trimWhile
    simp only [ih, decide_eq_true_eq]

/-- The oldest entry is RETAINED, and a span does not fit yet (R119). -/
def RingMonitor.tooSmall (R span : Nat) (m : RingMonitor) : Bool :=
  m.freeSpace R < span && (m.queue.head?.map QueueEntry.isRetained).getD false

theorem RingMonitor.makeRoom_eq_trimWhile (R span fuel : Nat) (m : RingMonitor) :
    m.makeRoom R span fuel = m.trimWhile R (RingMonitor.tooSmall R span) fuel := by
  induction fuel generalizing m with
  | zero => rfl
  | succ fuel ih =>
    unfold RingMonitor.makeRoom RingMonitor.trimWhile
    simp only [ih]
    rfl

/-- A ring monitor `m` trimmed to `m'`, with `kept` of its RETAINED run left. -/
structure RingMonitor.TrimmedTo (m m' : RingMonitor) (kept : List QueueEntry) : Prop where
  queue : m'.queue = m.joinedRun ++ kept
  suffix : kept <:+ m.retainedRun
  rest : m' = { m with queue := m'.queue, releaseFront := m'.releaseFront, drainAhead := m'.drainAhead }
  same : kept = m.retainedRun → m' = m
  front : kept ≠ m.retainedRun → m'.releaseFront = (m'.queue.head?.map QueueEntry.offset).getD m.writeFront
  key : kept ≠ m.retainedRun → ∀ e q, kept = e :: q → e.kind = .videoKey

theorem RingMonitor.TrimmedTo.refl (m : RingMonitor) : m.TrimmedTo m m.retainedRun :=
  ⟨m.joinedRun_append_retainedRun.symm, List.suffix_refl _, rfl, fun _ => rfl, fun h => absurd rfl h, fun h => absurd rfl h⟩

/-- A run of RETAINED entries behind the joined run stands apart from it. -/
theorem RingMonitor.runs_of_queue {q : List QueueEntry} (hq : m'.queue = m.joinedRun ++ q) (hr : ∀ e ∈ q, e.state = .retained) :
    m'.joinedRun = m.joinedRun ∧ m'.retainedRun = q := by
  have joined : ∀ e ∈ m.joinedRun, e.isJoined = true := fun _ he => List.mem_takeWhile_imp he
  have apart : ∀ e ∈ q, e.isJoined = false := fun e he => by simp [QueueEntry.isJoined, QueueEntry.isRetained, hr e he]
  have none : q.takeWhile QueueEntry.isJoined = [] ∧ q.dropWhile QueueEntry.isJoined = q := by
    cases q with
    | nil => exact ⟨rfl, rfl⟩
    | cons e q =>
      have first := apart e (List.mem_cons_self ..)
      exact ⟨List.takeWhile_cons_of_neg (by simp [first]), List.dropWhile_cons_of_neg (by simp [first])⟩
  unfold RingMonitor.joinedRun RingMonitor.retainedRun at *
  rw [hq, List.takeWhile_append_of_pos joined, List.dropWhile_append_of_pos joined, none.1, none.2, List.append_nil]
  exact ⟨rfl, rfl⟩

/-- What is left behind a GOP begins with a VIDEO_KEY. -/
theorem afterGop_key {q : List QueueEntry} {e : QueueEntry} {rest : List QueueEntry} (h : afterGop q = e :: rest) :
    e.kind = .videoKey := by
  cases q with
  | nil => cases h
  | cons x q =>
    have first := List.head?_dropWhile_not (fun e : QueueEntry => decide (e.kind ≠ .videoKey)) q
    rw [show q.dropWhile (fun e => decide (e.kind ≠ .videoKey)) = e :: rest from h] at first
    simpa using first

/-- A run that begins with a VIDEO_KEY past the oldest entry outlasts the oldest GOP. -/
theorem suffix_afterGop {q rest : List QueueEntry} {e : QueueEntry} (h : e :: rest <:+ q) (hk : e.kind = .videoKey)
    (hne : e :: rest ≠ q) : e :: rest <:+ afterGop q := by
  cases q with
  | nil => exact nomatch List.suffix_nil.1 h
  | cons x q =>
    obtain ⟨before, hq⟩ := (List.suffix_cons_iff.1 h).resolve_left hne
    have stops : (e :: rest).dropWhile (fun e => decide (e.kind ≠ .videoKey)) = e :: rest :=
      List.dropWhile_cons_of_neg (by simp [hk])
    change e :: rest <:+ q.dropWhile _
    rw [← hq, List.dropWhile_append]
    split
    · rw [stops]
    · exact List.suffix_append ..

theorem RingMonitor.trimmedTo_trim (h : m.retainedRun ≠ []) : m.TrimmedTo (m.trim R) (afterGop m.retainedRun) := by
  have shorter : afterGop m.retainedRun ≠ m.retainedRun := fun he => by
    have short := afterGop_length_lt h
    rw [he] at short
    exact Nat.lt_irrefl _ short
  exact ⟨rfl, afterGop_suffix _, rfl, fun he => absurd he shorter, fun _ => rfl, fun _ _ _ he => afterGop_key he⟩

theorem RingMonitor.TrimmedTo.trans (h : m.TrimmedTo m' kept) (h' : m'.TrimmedTo m'' kept') (hj : m'.joinedRun = m.joinedRun)
    (hr : m'.retainedRun = kept) (hne : kept ≠ m.retainedRun) : m.TrimmedTo m'' kept' := by
  have shorter : kept' ≠ m.retainedRun := fun he => by
    have suffix := h'.suffix
    rw [hr, he] at suffix
    exact hne (h.suffix.eq_of_length_le suffix.length_le)
  have rest := h'.rest
  rw [h.rest] at rest
  refine ⟨hj ▸ h'.queue, (hr ▸ h'.suffix).trans h.suffix, rest, fun he => absurd he shorter, fun _ => ?_, fun _ => ?_⟩
  · by_cases hk : kept' = m'.retainedRun
    · rw [h'.same hk]
      exact h.front hne
    · rw [h'.front hk, h.rest]
  · by_cases hk : kept' = m'.retainedRun
    · rw [hk, hr]
      exact h.key hne
    · exact h'.key hk

/-- The trims stop as soon as the condition fails, and every longer run that stands at a GOP's start met it (R119, R122). -/
theorem RingMonitor.trimWhile_spec (hexcess : ∀ m : RingMonitor, excess m = true → m.retainedRun ≠ [])
    (hr : ∀ e ∈ m.retainedRun, e.state = .retained) (hf : m.retainedRun.length ≤ fuel) : ∃ kept,
    m.TrimmedTo (m.trimWhile R excess fuel) kept ∧ excess (m.trimWhile R excess fuel) = false ∧
    (excess m = true → kept ≠ m.retainedRun) ∧
    ∀ e q, e :: q <:+ m.retainedRun → (e.kind = .videoKey ∨ e :: q = m.retainedRun) → kept.length < (e :: q).length →
      ∃ m', m.TrimmedTo m' (e :: q) ∧ excess m' = true := by
  induction fuel generalizing m with
  | zero =>
    have empty : m.retainedRun = [] := List.length_eq_zero_iff.1 (Nat.le_zero.1 hf)
    have fits : ¬excess m = true := fun h => hexcess m h empty
    refine ⟨_, .refl m, Bool.not_eq_true _ ▸ fits, fun h => absurd h fits, fun e q h => ?_⟩
    rw [empty] at h
    exact nomatch List.suffix_nil.1 h
  | succ fuel ih =>
    unfold RingMonitor.trimWhile
    by_cases ho : excess m = true
    · rw [if_pos ho]
      have run := hexcess m ho
      have once := RingMonitor.trimmedTo_trim (R := R) run
      have short := afterGop_length_lt run
      have left : ∀ e ∈ afterGop m.retainedRun, e.state = .retained := fun e he => hr e ((afterGop_suffix _).subset he)
      obtain ⟨joined, retained⟩ := RingMonitor.runs_of_queue (m := m) (m' := m.trim R) rfl left
      have differs : afterGop m.retainedRun ≠ m.retainedRun := fun he => Nat.lt_irrefl _ (he ▸ short)
      obtain ⟨kept, trimmed, fits, -, least⟩ := ih (m := m.trim R) (retained ▸ left) (by rw [retained]; omega)
      have shorter : kept.length < m.retainedRun.length :=
        (trimmed.suffix.length_le.trans_eq (congrArg List.length retained)).trans_lt short
      refine ⟨kept, once.trans trimmed joined retained differs, fits, fun _ he => Nat.lt_irrefl _ (he ▸ shorter),
        fun e q hs hk hl => ?_⟩
      by_cases hw : e :: q = m.retainedRun
      · exact ⟨m, hw ▸ .refl m, ho⟩
      · obtain ⟨m', met, stillOver⟩ := least e q (retained ▸ suffix_afterGop hs (hk.resolve_right hw) hw)
          (.inl (hk.resolve_right hw)) hl
        exact ⟨m', once.trans met joined retained differs, stillOver⟩
    · rw [if_neg ho]
      exact ⟨_, .refl m, Bool.not_eq_true _ ▸ ho, fun h => absurd h ho, fun e q hs _ hl => absurd hs.length_le (Nat.not_le.2 hl)⟩

end

end Sys2Proof.Machine

end

section
/-! PROOFS. What the trims for depth and for room leave of the chunk queue (07 sections 7.3 and 7.4). -/

namespace Sys2Proof.Machine

section

variable {R span : Nat} {m m' : RingMonitor} {kept : List QueueEntry}

theorem ChunkKind.isVideo_iff {k : ChunkKind} : k.isVideo = true ↔ k = .videoKey ∨ k = .videoDelta := by
  cases k <;> simp [ChunkKind.isVideo]

theorem RingMonitor.TrimmedTo.retained (h : m.TrimmedTo m' kept) (hr : ∀ e ∈ m.retainedRun, e.state = .retained) :
    ∀ e ∈ kept, e.state = .retained := fun e he => hr e (h.suffix.subset he)

/-- The VIDEO frames that count for the depth are those of the run kept (R122). -/
theorem RingMonitor.TrimmedTo.videoFrames (h : m.TrimmedTo m' kept) (hr : ∀ e ∈ m.retainedRun, e.state = .retained) :
    m'.videoFrames = kept.countP fun x => x.kind = .videoKey ∨ x.kind = .videoDelta := by
  have joined : m.joinedRun.countP (fun e => e.isRetained && e.kind.isVideo) = 0 := by
    refine List.countP_eq_zero.2 fun e he => ?_
    have apart : e.isJoined = true := List.mem_takeWhile_imp he
    simp only [QueueEntry.isJoined, Bool.not_eq_true'] at apart
    simp [apart]
  have counted : kept.countP (fun e => e.isRetained && e.kind.isVideo) =
      kept.countP fun x => x.kind = .videoKey ∨ x.kind = .videoDelta := by
    refine List.countP_congr fun e he => ?_
    have held : e.isRetained = true := decide_eq_true (h.retained hr e he)
    rw [held, Bool.true_and, ChunkKind.isVideo_iff, decide_eq_true_iff]
  unfold RingMonitor.videoFrames
  rw [h.queue, List.countP_append, joined, counted, Nat.zero_add]

theorem RingMonitor.retainedRun_length_le (m : RingMonitor) : m.retainedRun.length ≤ m.queue.length :=
  (List.dropWhile_suffix _).length_le

/-- Trim for depth: no GOP is removed that the depth would have allowed (R122). -/
theorem RingMonitor.trimDepth_least (hr : ∀ e ∈ m.retainedRun, e.state = .retained) (hd : m.depth < m.videoFrames) : ∃ kept,
    m.TrimmedTo (m.trimDepth R) kept ∧ kept ≠ m.retainedRun ∧
    ∀ e q, e :: q <:+ m.retainedRun → e.kind = .videoKey → kept.length < (e :: q).length →
      m.depth < (e :: q).countP fun x => x.kind = .videoKey ∨ x.kind = .videoDelta := by
  obtain ⟨kept, trimmed, -, shorter, least⟩ := RingMonitor.trimWhile_spec (R := R)
    (excess := fun m => decide (m.depth < m.videoFrames))
    (fun m h => RingMonitor.retainedRun_of_videoFrames (Nat.zero_lt_of_lt (of_decide_eq_true h))) hr m.retainedRun_length_le
  rw [← RingMonitor.trimDepthFor_eq_trimWhile] at trimmed
  refine ⟨kept, trimmed, shorter (decide_eq_true hd), fun e q hs hk hl => ?_⟩
  obtain ⟨m', met, excess⟩ := least e q hs (.inl hk) hl
  have deeper := of_decide_eq_true excess
  rw [met.videoFrames hr, congrArg RingMonitor.depth met.rest] at deeper
  exact deeper

/-- A queue RETAINED throughout has no joined run. -/
theorem RingMonitor.joinedRun_of_retained (hr : ∀ e ∈ m.queue, e.state = .retained) :
    m.joinedRun = [] ∧ m.retainedRun = m.queue := by
  have runs := RingMonitor.runs_of_queue (m := { m with queue := [] }) (m' := m) (q := m.queue) rfl hr
  exact ⟨runs.1, runs.2⟩

/-- The free space behind a queue trimmed to a run that begins with an entry (R114). -/
theorem RingMonitor.TrimmedTo.freeSpace {e : QueueEntry} {q : List QueueEntry} (h : m.TrimmedTo m' (e :: q))
    (hj : m.joinedRun = []) (hne : e :: q ≠ m.retainedRun) :
    m'.releaseFront = e.offset ∧ m'.freeSpace R = (e.offset + R - m.writeFront) % R := by
  have queue := h.queue
  rw [hj, List.nil_append] at queue
  have front := h.front hne
  rw [queue] at front
  have release : m'.releaseFront = e.offset := front
  refine ⟨release, ?_⟩
  unfold RingMonitor.freeSpace
  rw [queue, release, congrArg RingMonitor.writeFront h.rest]
  rfl

theorem RingMonitor.makeRoom_of_fits (h : span ≤ m.freeSpace R) (fuel : Nat) : m.makeRoom R span fuel = m := by
  cases fuel with
  | zero => rfl
  | succ fuel =>
    refine if_neg ?_
    rw [decide_eq_false (Nat.not_lt.2 h), Bool.false_and]
    exact Bool.false_ne_true

/-- Joined entries at the front of the queue are not trimmed for room (R119). -/
theorem RingMonitor.makeRoom_of_joined {e : QueueEntry} {q : List QueueEntry} (hq : m.queue = e :: q) (he : e.state ≠ .retained)
    (fuel : Nat) : m.makeRoom R span fuel = m := by
  have joined : (m.queue.head?.map QueueEntry.isRetained).getD false = false := by
    rw [hq]
    exact decide_eq_false he
  cases fuel with
  | zero => rfl
  | succ fuel =>
    refine if_neg ?_
    rw [joined, Bool.and_false]
    exact Bool.false_ne_true

/-- Room made in a queue that is RETAINED throughout: the span fits then, and no GOP is removed behind one that left room
(R119). -/
theorem RingMonitor.makeRoom_least (hr : ∀ e ∈ m.queue, e.state = .retained) (hs : span ≤ R) (hne : m.queue ≠ [])
    (hf : m.freeSpace R < span) : ∃ kept,
    m.TrimmedTo (m.makeRoom R span m.queue.length) kept ∧ (m.makeRoom R span m.queue.length).queue = kept ∧
    kept <:+ m.queue ∧ kept.length < m.queue.length ∧ span ≤ (m.makeRoom R span m.queue.length).freeSpace R ∧
    (∀ e q, kept = e :: q → e.kind = .videoKey ∧ span ≤ (e.offset + R - m.writeFront) % R ∧
      (m.makeRoom R span m.queue.length).releaseFront = e.offset) ∧
    (kept = [] → (m.makeRoom R span m.queue.length).releaseFront = m.writeFront) ∧
    ∀ e q, e :: q <:+ m.queue → e.kind = .videoKey → kept.length < (e :: q).length → (e :: q).length < m.queue.length →
      (e.offset + R - m.writeFront) % R < span := by
  obtain ⟨joined, retained⟩ := RingMonitor.joinedRun_of_retained hr
  have held : ∀ m : RingMonitor, RingMonitor.tooSmall R span m = true → m.retainedRun ≠ [] := by
    intro m h
    obtain ⟨-, first⟩ := Bool.and_eq_true_iff.1 h
    cases hq : m.queue with
    | nil => rw [hq] at first; cases first
    | cons e q =>
      rw [hq] at first
      exact RingMonitor.retainedRun_ne_nil (hq ▸ List.mem_cons_self ..) first
  have tooSmall : RingMonitor.tooSmall R span m = true := by
    refine Bool.and_eq_true_iff.2 ⟨decide_eq_true hf, ?_⟩
    cases hq : m.queue with
    | nil => exact absurd hq hne
    | cons e q => exact decide_eq_true (hr e (hq ▸ List.mem_cons_self ..))
  obtain ⟨kept, trimmed, fits, shorter, least⟩ := RingMonitor.trimWhile_spec (R := R) held (retained.symm ▸ hr)
    m.retainedRun_length_le
  rw [← RingMonitor.makeRoom_eq_trimWhile] at trimmed fits
  have queue := trimmed.queue
  rw [joined, List.nil_append] at queue
  have differs := shorter tooSmall
  have suffix := retained ▸ trimmed.suffix
  have short : kept.length < m.queue.length := by
    refine lt_of_le_of_ne suffix.length_le fun he => differs ?_
    rw [suffix.eq_of_length he, retained]
  have keptRetained := trimmed.retained (retained.symm ▸ hr)
  have space : span ≤ (m.makeRoom R span m.queue.length).freeSpace R := by
    cases hk : kept with
    | nil =>
      unfold RingMonitor.freeSpace
      rw [queue, hk]
      exact hs
    | cons e q =>
      unfold RingMonitor.tooSmall at fits
      have first : (kept.head?.map QueueEntry.isRetained).getD false = true := by
        rw [hk]
        exact decide_eq_true (keptRetained e (hk ▸ List.mem_cons_self ..))
      rw [queue, first, Bool.and_true] at fits
      exact Nat.not_lt.1 (of_decide_eq_false fits)
  refine ⟨kept, trimmed, queue, suffix, short, space, fun e q hk => ?_, fun hk => ?_, fun e q hs hk hl hw => ?_⟩
  · subst hk
    obtain ⟨release, free⟩ := trimmed.freeSpace (R := R) joined differs
    exact ⟨trimmed.key differs e q rfl, free ▸ space, release⟩
  · have front := trimmed.front differs
    rw [queue, hk] at front
    exact front
  · have notAll : e :: q ≠ m.retainedRun := fun he => Nat.ne_of_lt hw (congrArg List.length (he.trans retained))
    obtain ⟨m', met, small⟩ := least e q (retained.symm ▸ hs) (.inl hk) hl
    obtain ⟨-, free⟩ := met.freeSpace (R := R) joined notAll
    obtain ⟨lacks, -⟩ := Bool.and_eq_true_iff.1 small
    rw [free] at lacks
    exact of_decide_eq_true lacks

end

end Sys2Proof.Machine

end

section
/-! PROOFS. Publication attempts (07 sections 7.3 and 7.5): the header in the front shadow, and one equation per judgement. -/

namespace Sys2Proof.Machine

/-! ### A granted beat of the record ring -/

section

variable {s : State} {a offset : Nat} {data : List Byte} {enables : List Bool} {r : Recorder} {asked : List Out}

/-- A granted ring beat with the card engine at rest after it: its demands on the bus, and the recording side. -/
theorem exec_ringBeat (h : LinkIsNext s.part (.write a data enables (.ring offset)))
    (hj : (Job.start s.part.recd).ringBeat s.part.map offset data enables = ⟨r, asked.map RecOut.bus⟩) (hr : r.card.Rests) :
    exec .linkRequestGrant s = .next { s with
      part := { s.part with
        bus := s.part.bus.meetAll asked
        recd := r
        link := LinkPort.endBeat none false { s.part.link with request := none }
        lastGrant := .link }
      mem := s.mem.writeMasked a data enables } := by
  have watched : s.part.linkGranted.watch (.ring offset) data enables =
      { s.part.linkGranted with recd := r, bus := s.part.bus.meetAll asked } := by
    refine (Part.onRecorder_rests (p := s.part.linkGranted)
      (f := fun r => (Job.start r).ringBeat s.part.map offset data enables) hj hr).trans ?_
    exact Part.deliverAll_bus ..
  rw [exec_linkGrant_write h, watched]
  rfl

end

/-! ### The header (R117, 7.1) -/

section

variable {r : Recorder} {map : RegionMap} {data : List Byte} {j : RecWork} {kind : ChunkKind} {d d' : Disposition}
  {m : RingMonitor}

theorem fieldAt_four {o : Nat} (hd : data.length = 32) (ho : o + 4 ≤ 32) : fieldAt data o 4 = leNat ((data.drop o).take 4) :=
  congrArg leNat (bytesAt_eq_drop_take (hd ▸ ho))

theorem fieldAt_code (hd : data.length = 32) : fieldAt data 4 1 = ((data.drop 4).headD 0).toNat := by
  have code : bytesAt data 4 1 = [(data.drop 4).headD 0] := by
    have one : (data.drop 4).length = 28 := by rw [List.length_drop, hd]
    rw [bytesAt_eq_drop_take (by omega)]
    cases hx : data.drop 4 with
    | nil => rw [hx] at one; cases one
    | cons x xs => rfl
  unfold fieldAt
  rw [code]
  exact Nat.add_zero _

/-- A whole front beat is an attempt on its own bytes, once it holds a length (R117). -/
theorem Job.ringBeat_attempt (h : ∀ e ∈ r.ring.queue, e.touched map.ringSize r.ring.writeFront (List.replicate 32 true) = false)
    (hd : data.length = 32) (hs : r.ring.shadow.length = 32) (hl : 0 < leNat ((data.drop 8).take 4)) :
    (Job.start r).ringBeat map r.ring.writeFront data (List.replicate 32 true) =
      (Job.start { r with ring := { r.ring with shadow := data } }).attempt map := by
  have untouched : r.ring.queue.any (QueueEntry.touched map.ringSize r.ring.writeFront (List.replicate 32 true)) = false :=
    QueueEntry.any_touched_eq_false fun e he => by rw [h e he]; exact Bool.false_ne_true
  have merged : mergeBytes r.ring.shadow data (List.replicate 32 true) = data := by
    refine mergeBytes_eq (hs.trans hd.symm) rfl (by rw [List.length_replicate, hd]) fun i hi => ?_
    rw [hd] at hi
    rw [List.getD_replicate _ hi, if_pos rfl]
  have covered : (coversAt (List.replicate 32 true) 8 4 && decide (fieldAt data 8 4 ≠ 0)) = true := by
    rw [fieldAt_four hd (by decide), decide_eq_true (Nat.ne_of_gt hl)]
    rfl
  unfold Job.ringBeat
  rw [if_neg (by rw [show (Job.start r : RecWork).st.ring.queue = r.ring.queue from rfl, untouched]; nofun),
    if_pos (show r.ring.writeFront = (Job.start r : RecWork).st.ring.writeFront from rfl)]
  unfold Job.ring Job.change
  dsimp only [Job.start]
  rw [merged]
  exact if_pos covered

/-- A header in the front shadow that passes the tests of form (R118). -/
structure RingMonitor.Sound (m : RingMonitor) (kind : ChunkKind) : Prop where
  marker : fieldAt m.shadow 0 4 = chunkMarker
  code : chunkKindOf (fieldAt m.shadow 4 1) = some kind
  length : fieldAt m.shadow 8 4 ≤ longestPayload

/-- A header of bad form is rejected (R118). -/
theorem Job.attempt_unsound (h : ∀ kind, ¬j.st.ring.Sound kind) : j.attempt map = j.reject := by
  unfold Job.attempt
  dsimp only
  split
  · rfl
  next marker =>
    split
    · rfl
    next kind code =>
      split
      · rfl
      next length => exact absurd ⟨not_not.1 marker, code, Nat.not_lt.1 length⟩ (h kind)

theorem Job.ring_congr {f : RingMonitor → RingMonitor} (h : f j.st.ring = m) : j.ring f = j.ring fun _ => m :=
  congrArg (fun m => (⟨{ j.st with ring := m }, j.out⟩ : RecWork)) h

/-- A sound header for which there is no room, nor can be made, is rejected (R119). -/
theorem Job.attempt_short (h : j.st.ring.Sound kind)
    (hm : j.st.ring.makeRoom map.ringSize (chunkSpan (fieldAt j.st.ring.shadow 8 4)) j.st.ring.queue.length = j.st.ring)
    (hf : j.st.ring.freeSpace map.ringSize < chunkSpan (fieldAt j.st.ring.shadow 8 4)) :
    j.attempt map = if j.st.card.recState = .recording then j.reject.gap else j.reject := by
  have same : (j.ring fun m =>
      m.makeRoom map.ringSize (chunkSpan (fieldAt j.st.ring.shadow 8 4)) m.queue.length) = j := Job.ring_congr hm
  unfold Job.attempt
  dsimp only
  rw [if_neg (not_not.2 h.marker), h.code]
  dsimp only
  rw [if_neg (Nat.not_lt.2 h.length), same]
  exact if_pos hf

/-- A sound header for which there is room is published under its disposition (R120). -/
theorem Job.attempt_fits (h : j.st.ring.Sound kind)
    (hm : j.st.ring.makeRoom map.ringSize (chunkSpan (fieldAt j.st.ring.shadow 8 4)) j.st.ring.queue.length = m)
    (hf : chunkSpan (fieldAt j.st.ring.shadow 8 4) ≤ m.freeSpace map.ringSize)
    (hd : dispositionOf j.st.card.recState kind m.hasRetained = d) (he : m.findEntry map.ringSize kind d = (m, d')) :
    j.attempt map = (j.ring fun _ => m).publish map kind (fieldAt j.st.ring.shadow 8 4) (fieldAt j.st.ring.shadow 0x0C 4) d' := by
  have room : (j.ring fun m =>
      m.makeRoom map.ringSize (chunkSpan (fieldAt j.st.ring.shadow 8 4)) m.queue.length) = j.ring fun _ => m :=
    Job.ring_congr hm
  unfold Job.attempt
  dsimp only
  rw [if_neg (not_not.2 h.marker), h.code]
  dsimp only
  rw [if_neg (Nat.not_lt.2 h.length), room]
  refine (if_neg (Nat.not_lt.2 hf)).trans ?_
  let found := m.findEntry map.ringSize kind (dispositionOf j.st.card.recState kind m.hasRetained)
  have entry : found = (m, d') := by
    unfold found
    rw [hd, he]
  change ((j.ring fun _ => m).ring fun _ => found.1).publish map kind _ _ found.2 = _
  rw [entry]
  rfl

theorem RingMonitor.findEntry_passOver (R : Nat) (kind : ChunkKind) (m : RingMonitor) :
    m.findEntry R kind .passOver = (m, .passOver) := rfl

theorem RingMonitor.findEntry_room (R : Nat) (kind : ChunkKind) (d : Disposition) (h : m.queue.length < 256) :
    m.findEntry R kind d = (m, d) := by
  cases d with
  | passOver => rfl
  | drop => rfl
  | join => exact if_pos h
  | retain => exact if_pos h

/-- A full queue with nothing to trim takes no further entry (R120). -/
theorem RingMonitor.findEntry_full {R : Nat} (h : 256 ≤ m.queue.length) (hr : m.hasRetained = false) :
    m.findEntry R kind .retain = (m, .drop) := by
  refine (if_neg (Nat.not_lt.2 h)).trans ?_
  rw [hr]
  exact if_neg Bool.false_ne_true

end

end Sys2Proof.Machine

end

section
/-! PROOFS. Chunks published while no recording runs (07 sections 7.2 to 7.5). -/

namespace Sys2Proof.Machine

section

variable {r : Recorder} {map : RegionMap} {data : List Byte} {j : RecWork} {kind : ChunkKind} {d d' : Disposition}
  {m m' : RingMonitor} {R span length frame : Nat} {e : QueueEntry}

/-! ### The chunk that a header announces (7.1) -/

/-- Its span. -/
def headerSpan (data : List Byte) : Nat := chunkSpan (leNat ((data.drop 8).take 4))

theorem headerSpan_eq (hd : data.length = 32) : headerSpan data = chunkSpan (fieldAt data 8 4) :=
  congrArg chunkSpan (fieldAt_four hd (by decide)).symm

/-- The entry of the chunk, published now (R121). -/
def Recorder.headerEntry (data : List Byte) (kind : ChunkKind) (joined : Bool) (r : Recorder) : QueueEntry :=
  r.newEntry kind (leNat ((data.drop 8).take 4)) (leNat ((data.drop 12).take 4)) joined

/-! ### One equation per disposition (R121) -/

/-- The write front past a span (R121). -/
def RingMonitor.past (R span : Nat) (m : RingMonitor) : RingMonitor :=
  { m with
    writeFront := (m.writeFront + span) % R
    shadow := List.replicate 32 0
    frameBytes := m.frameBytes + span }

theorem RingMonitor.advance_of_queue (h : m.queue ≠ []) : m.advance R span = m.past R span := by
  refine if_neg ?_
  rw [List.isEmpty_iff]
  exact h

theorem RingMonitor.advance_of_empty (h : m.queue = []) :
    m.advance R span = { m.past R span with releaseFront := (m.writeFront + span) % R, drainAhead := 0 } :=
  if_pos (List.isEmpty_iff.2 h)

theorem RingMonitor.advance_append (e : QueueEntry) (m : RingMonitor) :
    (m.append e).advance R span = (m.append e).past R span :=
  RingMonitor.advance_of_queue (List.append_ne_nil_of_right_ne_nil _ nofun)

theorem Job.publish_retain (h : j.st.card.recState ≠ .armed) : j.publish map kind length frame .retain =
    ⟨{ j.st with ring := ((j.st.ring.append (j.st.newEntry kind length frame false)).past map.ringSize
        (chunkSpan length)).trimDepth map.ringSize }, j.out⟩ := by
  rw [← RingMonitor.advance_append]
  exact if_neg h

theorem Job.publish_drop (h : dispositionOf j.st.card.recState kind false ≠ .join) (hq : j.st.ring.queue ≠ []) :
    j.publish map kind length frame .drop =
      ⟨{ j.st with ring := { j.st.ring with drops := saturate32 j.st.ring.drops }.past map.ringSize (chunkSpan length) },
        j.out ++ [.bus (.raise .queueFull)]⟩ := by
  rw [← RingMonitor.advance_of_queue (m := { j.st.ring with drops := saturate32 j.st.ring.drops }) hq]
  exact congrArg (fun k : RecWork => k.ring (RingMonitor.advance map.ringSize (chunkSpan length))) (if_neg h)

/-- A whole front beat with a sound header of a chunk that fits (R117 to R121). -/
theorem Job.ringBeat_published (h : ∀ e ∈ r.ring.queue, e.touched map.ringSize r.ring.writeFront (List.replicate 32 true) = false)
    (hdata : data.length = 32) (hs : r.ring.shadow.length = 32) (hl : 0 < leNat ((data.drop 8).take 4))
    (sound : ({ r.ring with shadow := data } : RingMonitor).Sound kind)
    (room : ({ r.ring with shadow := data } : RingMonitor).makeRoom map.ringSize (headerSpan data)
      r.ring.queue.length = m)
    (fits : headerSpan data ≤ m.freeSpace map.ringSize)
    (hd : dispositionOf r.card.recState kind m.hasRetained = d) (he : m.findEntry map.ringSize kind d = (m, d')) :
    (Job.start r).ringBeat map r.ring.writeFront data (List.replicate 32 true) =
      (Job.start { r with ring := m }).publish map kind (leNat ((data.drop 8).take 4)) (leNat ((data.drop 12).take 4)) d' := by
  rw [Job.ringBeat_attempt h hdata hs hl]
  rw [headerSpan_eq hdata] at room fits
  rw [← fieldAt_four hdata (by decide), ← fieldAt_four hdata (by decide)]
  exact Job.attempt_fits (j := .start { r with ring := { r.ring with shadow := data } }) sound room fits hd he

theorem dispositionOf_quiet {s : RecState} (h : s = .idle ∨ s = .standby) (kind : ChunkKind) (held : Bool) :
    dispositionOf s kind held = if kind = .videoKey ∨ held = true then .retain else .passOver := by
  obtain rfl | rfl := h <;> simp [dispositionOf]

end

/-! ### The grant of a whole front beat while no recording runs -/

section

variable {s : State} {a : Nat} {data : List Byte} {kind : ChunkKind} {m m' : RingMonitor} {d d' : Disposition}

/-- A whole front beat that touches no entry, is granted next and holds a length (R117). -/
structure WholeBeat (s : State) (a : Nat) (data : List Byte) : Prop where
  next : LinkIsNext s.part (.write a data (List.replicate 32 true) (.ring s.part.recd.ring.writeFront))
  whole : data.length = 32
  shadow : s.part.recd.ring.shadow.length = 32
  positive : 0 < leNat ((data.drop 8).take 4)
  untouched : ∀ e ∈ s.part.recd.ring.queue,
    e.touched s.part.map.ringSize s.part.recd.ring.writeFront (List.replicate 32 true) = false

/-- A header's bytes that pass the tests of form, with the kind they name (R118). -/
structure SoundHeader (data : List Byte) (kind : ChunkKind) : Prop where
  marker : leNat (data.take 4) = 0x5A574348
  code : chunkKindOf ((data.drop 4).headD 0).toNat = some kind
  length : leNat ((data.drop 8).take 4) ≤ 4194272

/-- The tests of form, on a header's bytes (R118). -/
theorem RingMonitor.sound_of (hdata : data.length = 32) (h : SoundHeader data kind) :
    ({ m with shadow := data } : RingMonitor).Sound kind :=
  ⟨(fieldAt_four hdata (by decide)).trans h.marker, (congrArg chunkKindOf (fieldAt_code hdata)).trans h.code,
    (fieldAt_four hdata (by decide)).trans_le h.length⟩

/-- Such a beat with a sound header, while no recording runs and the card engine has nothing to do by itself. -/
structure FrontBeat (s : State) (a : Nat) (data : List Byte) (kind : ChunkKind) : Prop extends
    WholeBeat s a data, SoundHeader data kind where
  quiet : s.part.recd.card.Quiet
  idle : s.part.recd.card.recState = .idle ∨ s.part.recd.card.recState = .standby

/-- The state after a granted front beat that changes only the ring monitor. -/
def State.afterFront (a : Nat) (data : List Byte) (q : RingMonitor) (s : State) : State :=
  { s with
    part := { s.part with
      recd := { s.part.recd with ring := q }
      link := LinkPort.endBeat none false { s.part.link with request := none }
      lastGrant := .link }
    mem := s.mem.writeMasked a data (List.replicate 32 true) }

/-- The chunk of such a beat is published in a ring monitor with room for it. -/
theorem FrontBeat.grants (h : FrontBeat s a data kind)
    (room : ({ s.part.recd.ring with shadow := data } : RingMonitor).makeRoom s.part.map.ringSize (headerSpan data)
      s.part.recd.ring.queue.length = m)
    (fits : headerSpan data ≤ m.freeSpace s.part.map.ringSize)
    (hd : dispositionOf s.part.recd.card.recState kind m.hasRetained = d)
    (he : m.findEntry s.part.map.ringSize kind d = (m, d'))
    (hp : (Job.start { s.part.recd with ring := m }).publish s.part.map kind (leNat ((data.drop 8).take 4))
      (leNat ((data.drop 12).take 4)) d' = ⟨{ s.part.recd with ring := m' }, []⟩) :
    exec .linkRequestGrant s = .next (s.afterFront a data m') := by
  have published := Job.ringBeat_published h.untouched h.whole h.shadow h.positive
    (RingMonitor.sound_of h.whole h.toSoundHeader) room fits hd he
  exact exec_ringBeat (asked := []) h.next (published.trans hp) (.inl h.quiet)

/-- A VIDEO_KEY, or a chunk behind a RETAINED entry, is queued RETAINED, and the queue trimmed for depth (R120 to R122). -/
theorem FrontBeat.grant_retained (h : FrontBeat s a data kind)
    (room : ({ s.part.recd.ring with shadow := data } : RingMonitor).makeRoom s.part.map.ringSize (headerSpan data)
      s.part.recd.ring.queue.length = m)
    (fits : headerSpan data ≤ m.freeSpace s.part.map.ringSize) (hlen : m.queue.length < 256)
    (hk : kind = .videoKey ∨ m.hasRetained = true) :
    exec .linkRequestGrant s = .next (s.afterFront a data
      (((m.append (({ s.part.recd with ring := m } : Recorder).headerEntry data kind false)).past s.part.map.ringSize
        (headerSpan data)).trimDepth s.part.map.ringSize)) := by
  have disposed : dispositionOf s.part.recd.card.recState kind m.hasRetained = .retain :=
    (dispositionOf_quiet h.idle ..).trans (if_pos hk)
  have notArmed : s.part.recd.card.recState ≠ .armed := by
    obtain hi | hi := h.idle <;> rw [hi] <;> exact RecState.noConfusion
  exact h.grants room fits disposed (RingMonitor.findEntry_room _ _ _ hlen)
    (Job.publish_retain (j := .start { s.part.recd with ring := m }) notArmed)

/-- Any other chunk is passed over (R120). -/
theorem FrontBeat.grant_passedOver (h : FrontBeat s a data kind)
    (room : ({ s.part.recd.ring with shadow := data } : RingMonitor).makeRoom s.part.map.ringSize (headerSpan data)
      s.part.recd.ring.queue.length = m)
    (fits : headerSpan data ≤ m.freeSpace s.part.map.ringSize)
    (hk : kind ≠ .videoKey) (hr : m.hasRetained = false) :
    exec .linkRequestGrant s = .next (s.afterFront a data
      (m.advance s.part.map.ringSize (headerSpan data))) := by
  have disposed : dispositionOf s.part.recd.card.recState kind m.hasRetained = .passOver :=
    (dispositionOf_quiet h.idle ..).trans (if_neg fun hx => hx.elim hk fun ht => Bool.noConfusion (hr.symm.trans ht))
  exact h.grants room fits disposed (RingMonitor.findEntry_passOver ..) rfl

end

end Sys2Proof.Machine

end

section
/-! PROOFS. The queue after a publication while no recording runs (07 sections 7.3 and 7.4). -/

namespace Sys2Proof.Machine

section

variable {s : State} {a : Nat} {data : List Byte} {kind : ChunkKind} {m : RingMonitor} {r : Recorder} {R length frame : Nat}

/-- A header in the front shadow takes no space. -/
theorem RingMonitor.makeRoom_front {span : Nat} (data : List Byte) (h : span ≤ m.freeSpace R) (fuel : Nat) :
    ({ m with shadow := data } : RingMonitor).makeRoom R span fuel = { m with shadow := data } :=
  RingMonitor.makeRoom_of_fits (m := { m with shadow := data }) h fuel

/-- A RETAINED entry counts for the depth where it is a VIDEO frame (R122). -/
theorem RingMonitor.videoFrames_newEntry (m : RingMonitor) (r : Recorder) (kind : ChunkKind) (length frame : Nat) :
    (m.append (r.newEntry kind length frame false)).videoFrames =
      m.videoFrames + if kind = .videoKey ∨ kind = .videoDelta then 1 else 0 := by
  unfold RingMonitor.videoFrames RingMonitor.append
  rw [List.countP_append, List.countP_singleton]
  refine congrArg _ (if_congr ?_ rfl rfl)
  exact (Bool.true_and kind.isVideo).symm ▸ ChunkKind.isVideo_iff

/-- The chunk of a front beat queued RETAINED while the depth allows it (R120, R121). -/
theorem FrontBeat.grant_kept (h : FrontBeat s a data kind)
    (fits : headerSpan data ≤ s.part.recd.ring.freeSpace s.part.map.ringSize)
    (hlen : s.part.recd.ring.queue.length < 256) (hk : kind = .videoKey ∨ s.part.recd.ring.hasRetained = true)
    (hd : s.part.recd.ring.videoFrames + (if kind = .videoKey ∨ kind = .videoDelta then 1 else 0) ≤ s.part.recd.ring.depth) :
    exec .linkRequestGrant s = .next (s.afterFront a data
      ((s.part.recd.ring.append (s.part.recd.headerEntry data kind false)).past s.part.map.ringSize (headerSpan data))) := by
  refine (h.grant_retained (m := { s.part.recd.ring with shadow := data }) (RingMonitor.makeRoom_front data fits _) fits hlen
    hk).trans ?_
  rw [RingMonitor.trimDepth_of_le]
  · rfl
  · exact (RingMonitor.videoFrames_newEntry ..).trans_le hd

/-- The chunk of a front beat queued RETAINED beyond the depth: the oldest GOPs are trimmed, and no more than the depth demands
(R122). -/
theorem FrontBeat.grant_trimmed (h : FrontBeat s a data kind)
    (fits : headerSpan data ≤ s.part.recd.ring.freeSpace s.part.map.ringSize)
    (hlen : s.part.recd.ring.queue.length < 256) (hk : kind = .videoKey ∨ s.part.recd.ring.hasRetained = true)
    (hd : s.part.recd.ring.depth < s.part.recd.ring.videoFrames + (if kind = .videoKey ∨ kind = .videoDelta then 1 else 0))
    (hr : ∀ e ∈ s.part.recd.ring.retainedRun, e.state = .retained) :
    let entry := s.part.recd.headerEntry data kind false
    ∃ r kept, exec .linkRequestGrant s = .next (s.afterFront a data r) ∧ r.queue = s.part.recd.ring.joinedRun ++ kept ∧
      kept <:+ s.part.recd.ring.retainedRun ++ [entry] ∧ r.videoFrames ≤ s.part.recd.ring.depth ∧
      (∀ e q, kept = e :: q → e.kind = .videoKey) ∧
      (∀ e q, e :: q <:+ s.part.recd.ring.retainedRun ++ [entry] → e.kind = .videoKey → kept.length < (e :: q).length →
        s.part.recd.ring.depth < (e :: q).countP fun x => x.kind = .videoKey ∨ x.kind = .videoDelta) ∧
      r.writeFront = (s.part.recd.ring.writeFront + headerSpan data) % s.part.map.ringSize ∧
      r.depth = s.part.recd.ring.depth ∧ r.nextEntry = s.part.recd.ring.nextEntry + 1 := by
  intro entry
  let x : RingMonitor := (s.part.recd.ring.append entry).past s.part.map.ringSize (headerSpan data)
  have granted : exec .linkRequestGrant s = .next (s.afterFront a data (x.trimDepth s.part.map.ringSize)) :=
    h.grant_retained (m := { s.part.recd.ring with shadow := data }) (RingMonitor.makeRoom_front data fits _) fits hlen hk
  have queue : x.queue = s.part.recd.ring.joinedRun ++ (s.part.recd.ring.retainedRun ++ [entry]) := by
    rw [← List.append_assoc, RingMonitor.joinedRun_append_retainedRun]
    rfl
  have held : ∀ e ∈ s.part.recd.ring.retainedRun ++ [entry], e.state = .retained := fun e he =>
    (List.mem_append.1 he).elim (hr e) fun he => by rw [List.mem_singleton.1 he]; rfl
  obtain ⟨joined, run⟩ := RingMonitor.runs_of_queue queue held
  have beyond : x.depth < x.videoFrames :=
    hd.trans_eq (RingMonitor.videoFrames_newEntry s.part.recd.ring s.part.recd kind _ _).symm
  obtain ⟨kept, trimmed, shorter, least⟩ := RingMonitor.trimDepth_least (R := s.part.map.ringSize) (run.symm ▸ held) beyond
  have rest := trimmed.rest
  refine ⟨_, kept, granted, joined ▸ trimmed.queue, run ▸ trimmed.suffix, RingMonitor.trimDepth_videoFrames ..,
    trimmed.key shorter, fun e q hs => least e q (run.symm ▸ hs), ?_, ?_, ?_⟩
  · rw [rest]; rfl
  · rw [rest]; rfl
  · rw [rest]; rfl

/-- A VIDEO_KEY for which room must be made behind a queue RETAINED throughout (R119). -/
theorem FrontBeat.grant_roomMade (h : FrontBeat s a data .videoKey)
    (hs : headerSpan data ≤ s.part.map.ringSize)
    (hr : ∀ e ∈ s.part.recd.ring.queue, e.state = .retained) (hne : s.part.recd.ring.queue ≠ [])
    (hlen : s.part.recd.ring.queue.length ≤ 256)
    (hf : s.part.recd.ring.freeSpace s.part.map.ringSize < headerSpan data)
    (hd : s.part.recd.ring.videoFrames + 1 ≤ s.part.recd.ring.depth) :
    ∃ kept front drain, exec .linkRequestGrant s = .next (s.afterFront a data
        ((({ s.part.recd.ring with queue := kept, releaseFront := front, drainAhead := drain } : RingMonitor).append
          (s.part.recd.headerEntry data .videoKey false)).past s.part.map.ringSize (headerSpan data))) ∧
      kept <:+ s.part.recd.ring.queue ∧ kept.length < s.part.recd.ring.queue.length ∧
      (∀ e q, kept = e :: q → e.kind = .videoKey ∧ headerSpan data ≤
        (e.offset + s.part.map.ringSize - s.part.recd.ring.writeFront) % s.part.map.ringSize ∧ front = e.offset) ∧
      (kept = [] → front = s.part.recd.ring.writeFront) ∧
      ∀ e q, e :: q <:+ s.part.recd.ring.queue → e.kind = .videoKey → kept.length < (e :: q).length →
        (e :: q).length < s.part.recd.ring.queue.length →
        (e.offset + s.part.map.ringSize - s.part.recd.ring.writeFront) % s.part.map.ringSize < headerSpan data := by
  obtain ⟨kept, trimmed, queue, suffix, short, space, key, empty, least⟩ :=
    RingMonitor.makeRoom_least (m := { s.part.recd.ring with shadow := data }) hr hs hne hf
  have rest := trimmed.rest
  rw [queue] at rest
  generalize hm : RingMonitor.makeRoom s.part.map.ringSize (headerSpan data)
    ({ s.part.recd.ring with shadow := data } : RingMonitor).queue.length { s.part.recd.ring with shadow := data } = m
    at rest space key empty queue
  generalize m.releaseFront = front at rest key empty
  generalize m.drainAhead = drain at rest
  subst rest
  have frames : kept.countP (fun e => e.isRetained && e.kind.isVideo) ≤ s.part.recd.ring.videoFrames :=
    suffix.sublist.countP_le
  have granted := h.grant_retained hm space (Nat.lt_of_lt_of_le short hlen) (.inl rfl)
  rw [RingMonitor.trimDepth_of_le] at granted
  · exact ⟨kept, front, drain, granted, suffix, short, key, empty, least⟩
  · refine (RingMonitor.videoFrames_newEntry ..).trans_le ?_
    exact (Nat.add_le_add_right frames 1).trans hd

end

end Sys2Proof.Machine

end

section
/-! PROOFS. Chunks rejected, dropped and joined (07 sections 7.2, 7.3 and 7.6). -/

namespace Sys2Proof.Machine

/-! ### The card engine at rest with its clip marked -/

section

variable {c : CardEngine} {k : OpenClip}

theorem CardEngine.Rests.marked {f : OpenClip → OpenClip} (h : c.Rests) (hf : ∀ k, (f k).live = k.live) :
    ({ c with clip := c.clip.map f } : CardEngine).Rests := by
  obtain ⟨clip, dirJobs, mount⟩ | ⟨k, clip, inFlight, waits⟩ := h
  · exact .inl ⟨congrArg (Option.map f) clip, dirJobs, mount⟩
  · refine .inr ⟨f k, congrArg (Option.map f) clip, inFlight, ?_⟩
    rw [← hf k] at waits
    exact waits

theorem CardEngine.clip_eta {clip : Option OpenClip} (h : c.clip = clip) : ({ c with clip := clip } : CardEngine) = c := by
  rw [← h]

end

section

variable {r : Recorder} {map : RegionMap} {data : List Byte} {j : RecWork} {kind : ChunkKind} {m : RingMonitor} {R span : Nat}
  {q : List QueueEntry} {e : QueueEntry} {length frame : Nat}

theorem chunkKindOf_isSome {n : Nat} : (∃ k, chunkKindOf n = some k) ↔ 1 ≤ n ∧ n ≤ 4 := by
  refine ⟨fun ⟨k, hk⟩ => ?_, fun ⟨h1, h4⟩ => ?_⟩
  · unfold chunkKindOf at hk
    split at hk
    · decide
    · decide
    · decide
    · decide
    · cases hk
  · interval_cases n <;> exact ⟨_, rfl⟩

/-! ### An entry that joins (R121, R127) -/

/-- The entry published last, joined with its stamp. -/
theorem Job.stampEntry_new {st : Stamp} {r' : Recorder} (hq : j.st.ring.queue = q ++ [e])
    (hn : ∀ x ∈ q, x.number ≠ e.number) (hf : j.st.formStamp e = (st, r')) (hr : r'.ring.queue = j.st.ring.queue) :
    j.stampEntry map e = ⟨{ r' with ring := { r'.ring with
        queue := q ++ [{ e with state := .joined, stamp := some st, stampsWaiting := e.stampsWaiting + 1 }] } },
      j.out ++ [.bus (.request (e.stampWrite map st))]⟩ := by
  have entries : (q ++ [e]).map (fun x => if x.number = e.number then
      { e with state := .joined, stamp := some st, stampsWaiting := e.stampsWaiting + 1 } else x) =
      q ++ [{ e with state := .joined, stamp := some st, stampsWaiting := e.stampsWaiting + 1 }] := by
    rw [List.map_append, List.map_singleton, if_pos rfl, List.map_congr_left fun x hx => if_neg (hn x hx), List.map_id'']
    exact fun _ => rfl
  rw [← entries, ← hq, ← hr]
  unfold Job.stampEntry
  dsimp only
  rw [hf]
  rfl

theorem Recorder.formStamp_freeRun (h : r.tc.mode = .freeRun) (e : QueueEntry) :
    r.formStamp e = (⟨BitVec.ofNat 32 e.freeStamp.toNat, r.tc.rateMode, e.estimated⟩,
      { r with tc := r.tc, ring := { r.ring with lastVideo := r.ring.lastVideo } }) := by
  unfold Recorder.formStamp
  dsimp only
  rw [h]

/-- In RECORD_RUN a VIDEO chunk takes the record-run counter and moves it on, any other chunk the last value taken (R127,
R160). -/
theorem Recorder.formStamp_recordRun (h : r.tc.mode = .recordRun) (e : QueueEntry) :
    r.formStamp e =
      (⟨BitVec.ofNat 32 (if e.kind.isVideo then r.tc.recordRun else r.ring.lastVideo.getD r.tc.recordRun).toNat,
        r.tc.rateMode, false⟩,
      { r with
        tc := if e.kind.isVideo then { r.tc with recordRun := r.tc.recordRun.increment r.tc.rate } else r.tc
        ring := { r.ring with lastVideo := if e.kind.isVideo then some r.tc.recordRun else r.ring.lastVideo } }) := by
  unfold Recorder.formStamp
  dsimp only
  split
  next hm => cases h.symm.trans hm
  next => cases e.kind.isVideo <;> rfl

/-- The chunk published with its entry joined (R121). -/
theorem Job.publish_join {st : Stamp} {t : TimecodeUnit} {v : Option Timecode} (h : r.card.recState = .recording)
    (hn : ∀ x ∈ r.ring.queue, x.number ≠ r.ring.nextEntry)
    (hf : (⟨(r.ring.append (r.newEntry kind length frame true)).past map.ringSize (chunkSpan length), r.card, r.tc⟩ :
        Recorder).formStamp (r.newEntry kind length frame true) =
      (st, { r with
        tc := t
        ring := { (r.ring.append (r.newEntry kind length frame true)).past map.ringSize (chunkSpan length) with
          lastVideo := v } })) :
    (Job.start r).publish map kind length frame .join = ⟨{ r with
        tc := t
        ring := { (r.ring.append (r.newEntry kind length frame true)).past map.ringSize (chunkSpan length) with
          lastVideo := v
          queue := r.ring.queue ++ [{ r.newEntry kind length frame true with
            state := .joined, stamp := some st, stampsWaiting := 1 }] } },
      [.bus (.request ((r.newEntry kind length frame true).stampWrite map st))]⟩ := by
  let j : RecWork :=
    .start ⟨(r.ring.append (r.newEntry kind length frame true)).past map.ringSize (chunkSpan length), r.card, r.tc⟩
  have moved : (Job.start r).publish map kind length frame .join = j.joinPublished map (r.newEntry kind length frame true) := by
    unfold j
    rw [← RingMonitor.advance_append]
    rfl
  have recording : j.joinPublished map (r.newEntry kind length frame true) =
      j.stampEntry map (r.newEntry kind length frame true) := by
    unfold Job.joinPublished
    rw [if_neg (show ¬j.st.card.recState = .armed from fun ha => RecState.noConfusion (h.symm.trans ha))]
  rw [moved, recording]
  exact Job.stampEntry_new (j := j) rfl hn hf rfl

/-- A job that has changed into RECORDING (R125, R137, R144). -/
theorem Job.startRecording_shows (h : j.st.card.recState = .armed) (map : RegionMap) :
    (j.startRecording map).st.card.recState = .recording ∧
    (∃ c, (j.startRecording map).st.card.clip = some c ∧ c.opened = false) ∧
    (j.startRecording map).st.card.startSlot = j.st.card.startSlot ∧
    (j.startRecording map).st.ring.queue.length = j.st.ring.queue.length ∧
    (j.startRecording map).st.ring.writeFront = j.st.ring.writeFront ∧
    RecOut.bus (.raise .recStarted) ∈ (j.startRecording map).out := by
  obtain ⟨m, n, free, clip, t, v, q, asked, stamps, opens, unopened, size, -, -⟩ := Job.startRecording_eq j map
  have started : RecOut.bus (.raise .recStarted) ∈ recChange j.st.card.recState .recording := by
    rw [h]
    exact List.mem_append_right _ (List.mem_cons_self ..)
  rw [opens]
  exact ⟨rfl, ⟨clip, rfl, unopened⟩, rfl, size, rfl, List.mem_append_left _ (List.mem_append_right _ started)⟩

/-- A VIDEO_KEY published in ARMED opens the clip and ends the start DONE (R121, R125). -/
theorem Job.publish_armed (h : r.card.recState = .armed) : ∃ r' outs x,
    ((Job.start r).publish map kind length frame .join).pump map =
      ⟨r', outs ++ slotEnd r.card.startSlot .done 0 ++ [.bus (.request x)]⟩ ∧
    RecOut.bus (.raise .recStarted) ∈ outs ∧ r'.card.recState = .recording ∧ r'.card.clip ≠ none ∧ r'.card.startSlot = none ∧
    r'.ring.queue.length = r.ring.queue.length + 1 ∧
    r'.ring.writeFront = (r.ring.writeFront + chunkSpan length) % map.ringSize := by
  let e : QueueEntry := r.newEntry kind length frame true
  let j : RecWork := .start ⟨(r.ring.append e).past map.ringSize (chunkSpan length), r.card, r.tc⟩
  obtain ⟨recState, ⟨clip, hasClip, unopened⟩, slot, size, front, started⟩ := Job.startRecording_shows (j := j) h map
  obtain ⟨t, v, st, joined, stamped, -⟩ := Job.stampEntry_eq ((j.startRecording map).endStart .done 0) map e
  have published : (Job.start r).publish map kind length frame .join =
      ((j.startRecording map).endStart .done 0).stampEntry map e := by
    have moved : (Job.start r).publish map kind length frame .join = j.joinPublished map e := by
      unfold j
      rw [← RingMonitor.advance_append]
      rfl
    rw [moved]
    unfold Job.joinPublished
    rw [if_pos (show j.st.card.recState = .armed from h)]
  rw [Job.endStart_eq] at stamped published
  generalize j.startRecording map = k at *
  obtain ⟨request, mount, inFlight, a, b, pumped⟩ := Job.pump_unopened (j := (Job.start r).publish map kind length frame .join)
    (c := clip) (map := map) (by rw [published, stamped]; exact recState.trans_ne RecState.noConfusion)
    (by rw [published, stamped]; exact hasClip) unopened
  rw [pumped, published, stamped]
  refine ⟨_, k.out, e.stampWrite map st, (congrArg (Job.mk _) (by rw [slot]; rfl) : _), started, ?_, ?_, ?_, ?_, ?_⟩
  · exact recState
  · exact ne_of_eq_of_ne hasClip nofun
  · rfl
  · exact (List.length_map _).trans (size.trans List.length_append)
  · exact front

end

end Sys2Proof.Machine

end

section
/-! PROOFS. The grants of front beats that reject, drop or join their chunk (07 sections 7.2, 7.3 and 7.6). -/

namespace Sys2Proof.Machine

section

variable {s : State} {a : Nat} {data : List Byte} {kind : ChunkKind} {m : RingMonitor} {r : Recorder} {asked : List Out}

/-- The state after a granted front beat, by what it leaves of the recording side and asks of the bus. -/
def State.afterBeat (a : Nat) (data : List Byte) (asked : List Out) (r : Recorder) (s : State) : State :=
  { s with
    part := { s.part with
      bus := s.part.bus.meetAll asked
      recd := r
      link := LinkPort.endBeat none false { s.part.link with request := none }
      lastGrant := .link }
    mem := s.mem.writeMasked a data (List.replicate 32 true) }

/-- A whole front beat is one attempt. -/
theorem WholeBeat.grants (h : WholeBeat s a data)
    (hj : (Job.start { s.part.recd with ring := { s.part.recd.ring with shadow := data } }).attempt s.part.map =
      ⟨r, asked.map RecOut.bus⟩) (hr : r.card.Rests) :
    exec .linkRequestGrant s = .next (s.afterBeat a data asked r) :=
  exec_ringBeat h.next ((Job.ringBeat_attempt h.untouched h.whole h.shadow h.positive).trans hj) hr

theorem soundHeader_iff : (∃ kind, SoundHeader data kind) ↔ leNat (data.take 4) = 0x5A574348 ∧
    1 ≤ ((data.drop 4).headD 0).toNat ∧ ((data.drop 4).headD 0).toNat ≤ 4 ∧ leNat ((data.drop 8).take 4) ≤ 4194272 := by
  refine ⟨fun ⟨kind, h⟩ => ?_, fun ⟨marker, low, high, length⟩ => ?_⟩
  · obtain ⟨low, high⟩ := chunkKindOf_isSome.1 ⟨kind, h.code⟩
    exact ⟨h.marker, low, high, h.length⟩
  · obtain ⟨kind, code⟩ := chunkKindOf_isSome.2 ⟨low, high⟩
    exact ⟨kind, marker, code, length⟩

/-- A header of bad form (R118). -/
theorem WholeBeat.grant_unsound (h : WholeBeat s a data) (hr : s.part.recd.card.Rests) (hs : ∀ kind, ¬SoundHeader data kind) :
    exec .linkRequestGrant s = .next (s.afterBeat a data [.raise .chunkReject]
      { s.part.recd with ring := { s.part.recd.ring with shadow := data } }) := by
  refine h.grants (Job.attempt_unsound fun kind sound => hs kind ?_) hr
  exact ⟨(fieldAt_four h.whole (by decide)).symm.trans sound.marker,
    (congrArg chunkKindOf (fieldAt_code h.whole)).symm.trans sound.code,
    (fieldAt_four h.whole (by decide)).symm.trans_le sound.length⟩

/-- A span that does not fit behind joined entries (R119). -/
theorem WholeBeat.grant_short (h : WholeBeat s a data) (hr : s.part.recd.card.Rests) (hs : SoundHeader data kind)
    (hf : s.part.recd.ring.freeSpace s.part.map.ringSize < headerSpan data)
    (hj : ∃ e q, s.part.recd.ring.queue = e :: q ∧ e.state ≠ .retained) :
    exec .linkRequestGrant s = .next (s.afterBeat a data [.raise .chunkReject]
      { s.part.recd with
        ring := { s.part.recd.ring with shadow := data }
        card := { s.part.recd.card with clip :=
          if s.part.recd.card.recState = .recording then
            (s.part.recd.card.clip.map fun k => { k with flags := { k.flags with gap := true } })
          else s.part.recd.card.clip } }) := by
  obtain ⟨e, q, queue, joined⟩ := hj
  have short := Job.attempt_short (map := s.part.map)
    (j := .start { s.part.recd with ring := { s.part.recd.ring with shadow := data } }) (RingMonitor.sound_of h.whole hs)
    (RingMonitor.makeRoom_of_joined (m := { s.part.recd.ring with shadow := data }) queue joined _)
    (hf.trans_eq (headerSpan_eq h.whole))
  by_cases recording : s.part.recd.card.recState = .recording
  · rw [if_pos recording]
    exact h.grants (short.trans (if_pos recording)) (hr.marked fun _ => rfl)
  · rw [if_neg recording]
    exact h.grants (short.trans (if_neg recording)) hr

variable {d d' : Disposition}

/-- A chunk that fits as the queue stands is published in it (R120). -/
theorem WholeBeat.attempt_published (h : WholeBeat s a data) (hs : SoundHeader data kind)
    (hf : headerSpan data ≤ s.part.recd.ring.freeSpace s.part.map.ringSize)
    (hd : dispositionOf s.part.recd.card.recState kind s.part.recd.ring.hasRetained = d)
    (he : ({ s.part.recd.ring with shadow := data } : RingMonitor).findEntry s.part.map.ringSize kind d =
      ({ s.part.recd.ring with shadow := data }, d')) :
    (Job.start { s.part.recd with ring := { s.part.recd.ring with shadow := data } }).attempt s.part.map =
      (Job.start { s.part.recd with ring := { s.part.recd.ring with shadow := data } }).publish s.part.map kind
        (leNat ((data.drop 8).take 4)) (leNat ((data.drop 12).take 4)) d' := by
  rw [headerSpan_eq h.whole] at hf
  rw [← fieldAt_four h.whole (by decide), ← fieldAt_four h.whole (by decide)]
  exact Job.attempt_fits (j := .start { s.part.recd with ring := { s.part.recd.ring with shadow := data } })
    (RingMonitor.sound_of h.whole hs) (RingMonitor.makeRoom_front data hf _) hf hd he

/-- A VIDEO_KEY for which a full queue has no room (R120). -/
theorem FrontBeat.grant_dropped (h : FrontBeat s a data .videoKey)
    (hf : headerSpan data ≤ s.part.recd.ring.freeSpace s.part.map.ringSize)
    (hlen : 256 ≤ s.part.recd.ring.queue.length) (hr : s.part.recd.ring.hasRetained = false) :
    exec .linkRequestGrant s = .next (s.afterBeat a data [.raise .queueFull]
      { s.part.recd with
        ring := ({ s.part.recd.ring with shadow := data, drops := saturate32 s.part.recd.ring.drops } : RingMonitor).past
          s.part.map.ringSize (headerSpan data) }) := by
  have disposed : dispositionOf s.part.recd.card.recState .videoKey s.part.recd.ring.hasRetained = .retain :=
    (dispositionOf_quiet h.idle ..).trans (if_pos (.inl rfl))
  have apart : dispositionOf s.part.recd.card.recState .videoKey false ≠ .join := by
    rw [← hr, disposed]
    exact Disposition.noConfusion
  have queued : s.part.recd.ring.queue ≠ [] := fun hq => by
    rw [hq] at hlen
    exact absurd hlen (by decide)
  refine h.toWholeBeat.grants ((h.attempt_published h.toSoundHeader hf disposed
    (RingMonitor.findEntry_full hlen hr)).trans ?_) (.inl h.quiet)
  exact Job.publish_drop (j := .start { s.part.recd with ring := { s.part.recd.ring with shadow := data } }) apart queued

/-- A chunk that joins in RECORDING, its stamp formed (R120, R121, R127). -/
theorem WholeBeat.grant_joined {k : OpenClip} {st : Stamp} {t : TimecodeUnit} {v : Option Timecode} (h : WholeBeat s a data)
    (hs : SoundHeader data kind) (hw : s.part.recd.card.Waits k) (hrec : s.part.recd.card.recState = .recording)
    (hf : headerSpan data ≤ s.part.recd.ring.freeSpace s.part.map.ringSize)
    (hlen : s.part.recd.ring.queue.length < 256) (hn : ∀ e ∈ s.part.recd.ring.queue, e.number ≠ s.part.recd.ring.nextEntry)
    (hst : let entry := s.part.recd.headerEntry data kind true
      let ring := (s.part.recd.ring.append entry).past s.part.map.ringSize (headerSpan data)
      ({ s.part.recd with ring := ring } : Recorder).formStamp entry =
        (st, { s.part.recd with ring := { ring with lastVideo := v }, tc := t })) :
    exec .linkRequestGrant s = .next (s.afterBeat a data
      [.request ((s.part.recd.headerEntry data kind true).stampWrite s.part.map st)]
      { s.part.recd with
        tc := t
        ring := { (s.part.recd.ring.append (s.part.recd.headerEntry data kind true)).past s.part.map.ringSize
            (headerSpan data) with
          lastVideo := v
          queue := s.part.recd.ring.queue ++ [{ s.part.recd.headerEntry data kind true with
            state := .joined, stamp := some st, stampsWaiting := 1 }] } }) := by
  have disposed : dispositionOf s.part.recd.card.recState kind s.part.recd.ring.hasRetained = .join := by
    rw [hrec]
    rfl
  refine h.grants ((h.attempt_published hs hf disposed (RingMonitor.findEntry_room _ _ _ hlen)).trans ?_) (.inr ⟨k, hw⟩)
  exact Job.publish_join (r := { s.part.recd with ring := { s.part.recd.ring with shadow := data } }) hrec hn hst

/-- A VIDEO_KEY in ARMED opens the clip and ends the start DONE (R121, R125). -/
theorem WholeBeat.grant_armed (h : WholeBeat s a data) (hs : SoundHeader data .videoKey)
    (hrec : s.part.recd.card.recState = .armed)
    (hf : headerSpan data ≤ s.part.recd.ring.freeSpace s.part.map.ringSize)
    (hlen : s.part.recd.ring.queue.length < 256) :
    ∃ t, exec .linkRequestGrant s = .next t ∧ t.part.recd.card.recState = .recording ∧ t.part.recd.card.clip ≠ none ∧
      t.part.recd.card.startSlot = none ∧ t.part.bus.report.pending &&& Factor.recStarted.bit ≠ 0 ∧
      t.part.recd.ring.queue.length = s.part.recd.ring.queue.length + 1 ∧
      t.part.recd.ring.writeFront = (s.part.recd.ring.writeFront + headerSpan data) % s.part.map.ringSize ∧
      ∀ k : CmdSlot, s.part.recd.card.startSlot = some k → t.part.bus.cmd.slots[k].last = .done := by
  have disposed : dispositionOf s.part.recd.card.recState .videoKey s.part.recd.ring.hasRetained = .join := by
    rw [hrec]
    rfl
  obtain ⟨r, outs, x, pumped, started, recState, clip, slot, queue, front⟩ := Job.publish_armed (map := s.part.map)
    (kind := .videoKey) (length := leNat ((data.drop 8).take 4)) (frame := leNat ((data.drop 12).take 4))
    (r := { s.part.recd with ring := { s.part.recd.ring with shadow := data } }) hrec
  have judged := (Job.ringBeat_attempt (map := s.part.map) h.untouched h.whole h.shadow h.positive).trans
    (h.attempt_published hs hf disposed (RingMonitor.findEntry_room _ _ _ hlen))
  rw [← judged] at pumped
  have watched : s.part.linkGranted.watch (.ring s.part.recd.ring.writeFront) data (List.replicate 32 true) =
      (outs ++ slotEnd s.part.recd.card.startSlot .done 0 ++ [RecOut.bus (.request x)]).foldl Part.deliverRec
        { s.part.linkGranted with recd := r } :=
    Part.onRecorder_pumped (p := s.part.linkGranted)
      (f := fun r => (Job.start r).ringBeat s.part.map s.part.recd.ring.writeFront data (List.replicate 32 true)) pumped
  refine ⟨_, exec_linkGrant_write h.next, ?_⟩
  dsimp only [Part.endBeat]
  rw [watched, Part.deliverAll_recd]
  refine ⟨recState, clip, slot, ?_, queue, front, fun k hk => ?_⟩
  · exact Part.deliverAll_raised (f := .recStarted)
      (List.mem_append_left _ (List.mem_append_left _ started)) { s.part.linkGranted with recd := r }
  · rw [List.foldl_append, List.foldl_append, show slotEnd s.part.recd.card.startSlot .done 0 = [.bus (.finish k .done 0)] by
      rw [hk]; rfl]
    exact Bus.answer_last k ⟨.done, 0⟩ 0 _

end

end Sys2Proof.Machine

end

section
/-! PROOFS. Overruns (07 section 7.5, R123, R124). -/

namespace Sys2Proof.Machine

section

variable {r : Recorder} {map : RegionMap} {j : RecWork} {e e' : QueueEntry} {offset : Nat} {enables : List Bool}
  {q : List QueueEntry} {hit : QueueEntry → Bool}

/-! ### One joined entry overrun for the first time (R124) -/

theorem filter_eq_singleton (hq : q.Nodup) (he : e ∈ q) (hit : QueueEntry → Bool) (h : hit e = true)
    (hu : ∀ x ∈ q, hit x = true → x = e) : q.filter hit = [e] := by
  have same : q.filter hit = q.filter (· == e) := by
    refine List.filter_congr fun x hx => ?_
    by_cases hxe : x = e
    · rw [hxe, h, beq_self_eq_true]
    · rw [beq_eq_false_iff_ne.2 hxe]
      exact Bool.eq_false_iff.2 fun ht => hxe (hu x hx ht)
  rw [same, List.filter_beq, List.count_eq_one_of_mem hq he]
  rfl

/-- The one entry of a number in a queue replaced. -/
theorem map_number_eq (hu : ∀ x ∈ q, x.number = e.number → x = e) (f : QueueEntry → QueueEntry) :
    (q.map fun x => if x.number = e.number then f x else x) = q.map fun x => if x = e then f e else x := by
  refine List.map_congr_left fun x hx => ?_
  by_cases hn : x.number = e.number
  · rw [if_pos hn, if_pos (hu x hx hn), hu x hx hn]
  · rw [if_neg hn, if_neg fun hxe => hn (congrArg QueueEntry.number hxe)]

/-- The queue with one joined entry replaced by another joined one has the same RETAINED run. -/
theorem RingMonitor.retainedRun_replaced {m m' : RingMonitor} (hm : m'.queue = m.queue.map fun x => if x = e then e' else x)
    (he : e.isJoined = true) (he' : e'.isJoined = true) (hr : ∀ x ∈ m.retainedRun, x.state = .retained) :
    m'.retainedRun = m.retainedRun := by
  have kind : (QueueEntry.isJoined ∘ fun x => if x = e then e' else x) = QueueEntry.isJoined := by
    funext x
    rw [Function.comp_apply]
    by_cases hx : x = e
    · rw [if_pos hx, hx, he, he']
    · rw [if_neg hx]
  have apart : ∀ x ∈ m.retainedRun, ¬x = e := fun x hx hxe => by
    have held : x.isJoined = false := by simp [QueueEntry.isJoined, QueueEntry.isRetained, hr x hx]
    rw [hxe, he] at held
    cases held
  unfold RingMonitor.retainedRun at *
  rw [hm, List.dropWhile_map, kind, List.map_congr_left fun x hx => if_neg (apart x hx)]
  exact List.map_id _

/-- An overrun of one joined entry alone. -/
theorem Job.ringBeat_overrun (data : List Byte) (hq : r.ring.queue.Nodup) (he : e ∈ r.ring.joinedRun)
    (hr : ∀ x ∈ r.ring.retainedRun, x.state = .retained) (hov : e.overwritten = false)
    (hhit : e.touched map.ringSize offset enables = true)
    (hu : ∀ x ∈ r.ring.queue, x.touched map.ringSize offset enables = true → x = e)
    (hj : (Job.start r).overrunJoined map e = j) (hjq : j.st.ring.queue = r.ring.queue.map fun x => if x = e then e' else x)
    (he' : e'.isJoined = true) : (Job.start r).ringBeat map offset data enables = j := by
  have joined : e.isJoined = true := List.mem_takeWhile_imp he
  have inQueue : e ∈ r.ring.queue := (List.takeWhile_prefix _).subset he
  have touched : r.ring.queue.any (QueueEntry.touched map.ringSize offset enables) = true :=
    List.any_eq_true.2 ⟨e, inQueue, hhit⟩
  have fresh : (r.ring.queue.filter fun e => e.isJoined && e.touched map.ringSize offset enables && !e.overwritten) = [e] := by
    refine filter_eq_singleton hq inQueue _ ?_ fun x hx hh => hu x hx ?_
    · rw [joined, hhit, hov]
      rfl
    · simp only [Bool.and_eq_true] at hh
      exact hh.1.2
  have run := RingMonitor.retainedRun_replaced hjq joined he' hr
  have spared : j.st.ring.retainedRun.any (QueueEntry.touched map.ringSize offset enables) = false := by
    rw [run]
    refine QueueEntry.any_touched_eq_false fun x hx hh => ?_
    have held : x.isJoined = false := by simp [QueueEntry.isJoined, QueueEntry.isRetained, hr x hx]
    rw [hu x ((List.dropWhile_suffix _).subset hx) hh, joined] at held
    cases held
  unfold Job.ringBeat
  rw [show (Job.start r : RecWork).st.ring.queue = r.ring.queue from rfl, if_pos touched]
  unfold Job.overrun
  dsimp only
  rw [show (Job.start r : RecWork).st.ring.queue = r.ring.queue from rfl, fresh]
  change ((Job.start r).overrunJoined map e).ring _ = j
  rw [hj]
  refine (Job.ring_congr (m := j.st.ring) ?_).trans rfl
  rw [spared]
  exact if_neg Bool.false_ne_true

/-- The ring monitor with one entry overrun (R124). -/
def RingMonitor.overrunBy (e e' : QueueEntry) (m : RingMonitor) : RingMonitor :=
  { m with
    queue := m.queue.map fun x => if x = e then e' else x
    overruns := saturate32 m.overruns }

/-- A clip with its GAP flag set. -/
def OpenClip.gapped (k : OpenClip) : OpenClip := { k with flags := { k.flags with gap := true } }

/-- A joined entry without a stamp in memory: its waiting stamp write carries OVERWRITTEN (R124). -/
theorem Job.overrunJoined_unstamped (hu : ∀ x ∈ r.ring.queue, x.number = e.number → x = e) (hs : e.state ≠ .stamped) :
    (Job.start r).overrunJoined map e = ⟨{ r with
        ring := r.ring.overrunBy e { e with overwritten := true }
        card := { r.card with clip := r.card.clip.map OpenClip.gapped } },
      ([Out.raise .ringOverrun] ++ if e.state = EntryState.joined then [Out.overwrite e.number] else []).map RecOut.bus⟩ := by
  have again (j : RecWork) : j.stampAgain map e = j := by
    unfold Job.stampAgain
    split
    next hst _ => exact absurd hst hs
    next => rfl
  unfold Job.overrunJoined RingMonitor.overrunBy
  dsimp only
  rw [again, ← map_number_eq hu fun x => { x with overwritten := true }]
  unfold Job.overwriteWaiting
  split <;> rfl

theorem Job.stampAgain_stamped {w : Stamp} (hs : e.state = .stamped) (hw : e.stamp = some w) :
    j.stampAgain map e = ((j.ring fun m => { m with queue := m.queue.map fun x => if x.number = e.number then
        { e with state := .joined, overwritten := true, stampsWaiting := e.stampsWaiting + 1 } else x }).withdrawChunk).ask
      (.request (.stamp e.number (map.ringBase + e.offset) w.timecode w.rateMode w.estimated true)) := by
  unfold Job.stampAgain
  split
  next v _ hv =>
    obtain rfl := Option.some.inj (hv.symm.trans hw)
    rfl
  next hne => exact absurd hw (hne w hs)

/-- A STAMPED entry becomes JOINED again with a new stamp write, and a CARD request for chunk bytes is withdrawn (R124;
log 20). -/
theorem Job.overrunJoined_stamped {w : Stamp} (hu : ∀ x ∈ r.ring.queue, x.number = e.number → x = e) (hs : e.state = .stamped)
    (hw : e.stamp = some w) :
    (Job.start r).overrunJoined map e = ⟨{ r with
        ring := r.ring.overrunBy e { e with state := .joined, overwritten := true, stampsWaiting := e.stampsWaiting + 1 }
        card := { r.card with
          clip := r.card.clip.map OpenClip.gapped
          request := match r.card.request with
            | some (.dir a n) => some (.dir a n)
            | _ => none } },
      [Out.raise .ringOverrun, .request (.stamp e.number (map.ringBase + e.offset) w.timecode w.rateMode w.estimated true)].map
        RecOut.bus⟩ := by
  let again : QueueEntry := { e with state := .joined, overwritten := true, stampsWaiting := e.stampsWaiting + 1 }
  have entries : ((r.ring.queue.map fun x => if x.number = e.number then { x with overwritten := true } else x).map fun x =>
      if x.number = e.number then again else x) = r.ring.queue.map fun x => if x = e then again else x := by
    rw [← map_number_eq hu fun _ => again, List.map_map]
    refine List.map_congr_left fun x _ => ?_
    rw [Function.comp_apply]
    by_cases hn : x.number = e.number <;> simp [hn]
  have waiting (j : RecWork) : j.overwriteWaiting e = j := by
    unfold Job.overwriteWaiting
    rw [if_neg (by rw [hs]; exact EntryState.noConfusion)]
  unfold Job.overrunJoined RingMonitor.overrunBy
  dsimp only
  rw [waiting, ← entries, Job.stampAgain_stamped hs hw]
  rfl

end

end Sys2Proof.Machine

end

section
/-! PROOFS. The card engine by itself after an overrun, and overruns of the pre-record (07 section 7.5). -/

namespace Sys2Proof.Machine

section

variable {j : RecWork} {map : RegionMap} {k : OpenClip} {R : Nat} {m : RingMonitor}

/-! ### The next CARD request (R128, R133, R146) -/

theorem RingMonitor.runEnd_unreadable {q : List QueueEntry} (h : ∀ x ∈ q, x.readable = false) (drain : Nat) :
    m.runEnd R drain q = drain := by
  induction q with
  | nil => rfl
  | cons e q ih =>
    unfold RingMonitor.runEnd
    dsimp only
    rw [h e (List.mem_cons_self ..), Bool.and_false, if_neg Bool.false_ne_true]
    split
    · exact ih fun x hx => h x (List.mem_cons_of_mem _ hx)
    · rfl

theorem RingMonitor.nextRun_unreadable (h : ∀ x ∈ m.queue, x.readable = false) : m.nextRun R = none := by
  unfold RingMonitor.nextRun
  dsimp only
  rw [RingMonitor.runEnd_unreadable h, Nat.sub_self, if_pos rfl]

/-- A change of the card engine that keeps its clip's flags and its card command, and nothing else. -/
def Job.Requests (j k : RecWork) : Prop :=
  ∃ c, k = ⟨{ j.st with card := c }, j.out⟩ ∧ c.clip.map OpenClip.flags = j.st.card.clip.map OpenClip.flags ∧
    c.inFlight = j.st.card.inFlight

theorem Job.Requests.refl (j : RecWork) : j.Requests j := ⟨_, rfl, rfl, rfl⟩

theorem Job.requests_requestChunk (j : RecWork) (map : RegionMap) : j.Requests (j.requestChunk map) := by
  unfold Job.requestChunk
  split
  · split
    · split
      next name b new _ =>
        cases new with
        | false => exact ⟨_, rfl, by cases name <;> rfl, by cases name <;> rfl⟩
        | true =>
          have flags (clip : Option OpenClip) : (clip.map fun c => { c with nextBatch := c.nextBatch + 1 }).map OpenClip.flags =
              clip.map OpenClip.flags := by cases clip <;> rfl
          refine ⟨_, rfl, ?_, by cases name <;> rfl⟩
          cases name <;> exact flags _
      · exact .refl j
    · exact .refl j
  · exact .refl j

theorem Job.requests_makeRequest (j : RecWork) (map : RegionMap) : j.Requests (j.makeRequest map) := by
  unfold Job.makeRequest
  dsimp only
  split
  · exact .refl j
  · split
    · split
      · split
        · exact ⟨_, rfl, rfl, rfl⟩
        · exact .refl j
      · exact Job.requests_requestChunk j map
    · exact Job.requests_requestChunk j map

theorem Job.makeRequest_unreadable (hd : j.st.card.dirJobs = []) (h : ∀ x ∈ j.st.ring.queue, x.readable = false) :
    j.makeRequest map = j := by
  have chunk : j.requestChunk map = j := by
    unfold Job.requestChunk
    rw [RingMonitor.nextRun_unreadable h]
    split <;> trivial
  unfold Job.makeRequest
  dsimp only
  rw [hd]
  dsimp only
  rw [chunk, ite_self]

/-- While a card command is in flight and no unit need be taken, the card engine only makes a CARD request. -/
theorem Job.pump_inFlight (hf : j.st.card.inFlight ≠ none) (hs : j.stopProgress map = j) (hu : j.nextUnit map = j) :
    j.pump map = j.makeRequest map := by
  obtain ⟨c, made, -, flies⟩ := Job.requests_makeRequest j map
  unfold Job.pump
  rw [hs, hu]
  unfold Job.issue
  refine if_pos ?_
  rw [made]
  exact Option.isSome_iff_ne_none.2 (ne_of_eq_of_ne flies hf)

theorem Job.stopProgress_unread (h : j.st.ring.unread map.ringSize = true) : j.stopProgress map = j := by
  unfold Job.stopProgress
  split
  · rfl
  · rw [h, Bool.not_true, Bool.and_false, if_neg Bool.false_ne_true]

/-! ### An overrun of RETAINED entries alone (R123) -/

variable {hit : QueueEntry → Bool} {q : List QueueEntry}

/-- What an overrun leaves of the RETAINED run: the end of it that is spared, from a VIDEO_KEY on. -/
theorem overrunRetained_spec (h : ∃ e ∈ q, hit e = true) : overrunRetained hit q <:+ q ∧
    (∀ e ∈ overrunRetained hit q, ¬hit e = true) ∧ ∀ e rest, overrunRetained hit q = e :: rest → e.kind = .videoKey := by
  let spared : List QueueEntry := (q.reverse.takeWhile fun e => !hit e).reverse
  have left : overrunRetained hit q = spared.dropWhile fun e => decide (e.kind ≠ .videoKey) :=
    if_pos (List.any_eq_true.2 h)
  have suffix : spared <:+ q := by
    have reversed : spared <:+ q.reverse.reverse := List.reverse_suffix.2 (List.takeWhile_prefix _)
    rwa [List.reverse_reverse] at reversed
  rw [left]
  refine ⟨(List.dropWhile_suffix _).trans suffix, fun e he hh => ?_, fun e rest hk => ?_⟩
  · have inSpared : e ∈ spared := (List.dropWhile_suffix _).subset he
    have passed := List.mem_takeWhile_imp (List.mem_reverse.1 inSpared)
    rw [hh] at passed
    cases passed
  · have key := List.head?_dropWhile_not (fun e : QueueEntry => decide (e.kind ≠ .videoKey)) spared
    rw [hk] at key
    simpa using key

/-- An overrun that touches RETAINED entries alone (R123). -/
theorem Job.ringBeat_overrunRetained {r : Recorder} {offset : Nat} {enables : List Bool} (data : List Byte)
    (hr : ∀ e ∈ r.ring.retainedRun, e.state = .retained)
    (hj : ∀ e ∈ r.ring.joinedRun, ¬e.touched map.ringSize offset enables = true)
    (hh : ∃ e ∈ r.ring.retainedRun, e.touched map.ringSize offset enables = true) :
    (Job.start r).ringBeat map offset data enables = .start { r with
      ring := r.ring.withQueue map.ringSize
        (r.ring.joinedRun ++ overrunRetained (QueueEntry.touched map.ringSize offset enables) r.ring.retainedRun) } := by
  obtain ⟨x, hx, hxh⟩ := hh
  have touched : r.ring.queue.any (QueueEntry.touched map.ringSize offset enables) = true :=
    List.any_eq_true.2 ⟨x, (List.dropWhile_suffix _).subset hx, hxh⟩
  have run : r.ring.retainedRun.any (QueueEntry.touched map.ringSize offset enables) = true := List.any_eq_true.2 ⟨x, hx, hxh⟩
  have fresh : (r.ring.queue.filter fun e => e.isJoined && e.touched map.ringSize offset enables && !e.overwritten) = [] := by
    rw [List.filter_eq_nil_iff, ← r.ring.joinedRun_append_retainedRun]
    intro e he h
    simp only [Bool.and_eq_true] at h
    obtain ⟨⟨joined, hit⟩, -⟩ := h
    obtain he | he := List.mem_append.1 he
    · exact hj e he hit
    · simp [QueueEntry.isJoined, QueueEntry.isRetained, hr e he] at joined
  unfold Job.ringBeat
  rw [show (Job.start r : RecWork).st.ring.queue = r.ring.queue from rfl, if_pos touched]
  unfold Job.overrun
  dsimp only
  rw [show (Job.start r : RecWork).st.ring.queue = r.ring.queue from rfl, fresh, List.foldl_nil]
  exact Job.ring_congr (if_pos run)

end

end Sys2Proof.Machine

end

section
/-! PROOFS. The publication and the overrun of chunks (07). -/

namespace Sys2Proof.Machine

section

variable {s : State} {a offset : Nat} {data : List Byte} {enables : List Bool} {r : Recorder} {asked : List Out} {e : QueueEntry}
  {w : Stamp} {k : OpenClip}

/-- A granted ring beat, with what the card engine does by itself after it. -/
theorem exec_ringBeat_pumped (h : LinkIsNext s.part (.write a data enables (.ring offset)))
    (hj : ((Job.start s.part.recd).ringBeat s.part.map offset data enables).pump s.part.map = ⟨r, asked.map RecOut.bus⟩) :
    exec .linkRequestGrant s = .next { s with
      part := { s.part with
        bus := s.part.bus.meetAll asked
        recd := r
        link := LinkPort.endBeat none false { s.part.link with request := none }
        lastGrant := .link }
      mem := s.mem.writeMasked a data enables } := by
  have watched : s.part.linkGranted.watch (.ring offset) data enables =
      { s.part.linkGranted with recd := r, bus := s.part.bus.meetAll asked } := by
    refine (Part.onRecorder_pumped (p := s.part.linkGranted)
      (f := fun r => (Job.start r).ringBeat s.part.map offset data enables) hj).trans ?_
    exact Part.deliverAll_bus ..
  rw [exec_linkGrant_write h, watched]
  rfl

/-- The entry that a STAMPED one becomes when it is overrun (R124). -/
def QueueEntry.overrunAgain (e : QueueEntry) : QueueEntry :=
  { e with state := .joined, overwritten := true, stampsWaiting := e.stampsWaiting + 1 }

/-- The overrun of a STAMPED entry while the card engine waits: whatever request it makes next, no other block sees it (R124). -/
theorem Job.pump_overrunStamped {map : RegionMap} {c : CardEngine} {out : List RecOut} {j : RecWork}
    (hj : j = ⟨{ r with ring := r.ring.overrunBy e e.overrunAgain, card := c }, out⟩) (he : e ∈ r.ring.queue)
    (hclip : c.clip = some k) (hf : c.inFlight ≠ none)
    (hwaits : ((c.recState = .recording ∨ c.recState = .stopping) ∧ k.live = true) ∨ c.recState = .closing)
    (hstop : c.recState = .stopping → r.ring.drainAhead < r.ring.ahead map.ringSize e.offset + e.span) :
    ∃ c', j.pump map = ⟨{ r with ring := r.ring.overrunBy e e.overrunAgain, card := c' }, out⟩ ∧
      c'.clip.map OpenClip.flags = some k.flags ∧
      (c.request = none → c.dirJobs = [] → (∀ x ∈ r.ring.queue, x ≠ e → x.readable = false) → c'.request = none) := by
  subst hj
  let j : RecWork := ⟨{ r with ring := r.ring.overrunBy e e.overrunAgain, card := c }, out⟩
  have stops : j.stopProgress map = j := by
    by_cases hs : c.recState = .stopping
    · refine Job.stopProgress_unread (List.any_eq_true.2 ⟨e.overrunAgain, List.mem_map.2 ⟨e, he, if_pos rfl⟩, ?_⟩)
      exact Bool.and_eq_true_iff.2 ⟨rfl, decide_eq_true (hstop hs)⟩
    · exact Job.stopProgress_going (j := j) hs map
  have unit : j.nextUnit map = j := by
    obtain ⟨-, live⟩ | closing := hwaits
    · exact Job.nextUnit_live (j := j) hclip live map
    · exact Job.nextUnit_undrained (j := j) (by rw [show j.st.card.recState = .closing from closing]; rfl) map
  have pumped := Job.pump_inFlight (j := j) hf stops unit
  obtain ⟨c', made, flags, -⟩ := Job.requests_makeRequest j map
  refine ⟨c', pumped.trans made, flags.trans (congrArg (Option.map OpenClip.flags) hclip), fun hr hd hu => ?_⟩
  have unreadable : ∀ x ∈ j.st.ring.queue, x.readable = false := by
    intro x hx
    obtain ⟨y, hy, rfl⟩ := List.mem_map.1 hx
    by_cases hye : y = e
    · rw [if_pos hye]
      rfl
    · rw [if_neg hye]
      exact hu y hy hye
  have same := (Job.makeRequest_unreadable (j := j) (map := map) hd unreadable).symm.trans made
  have engine : c = c' := congrArg (fun j : RecWork => j.st.card) same
  rw [← engine]
  exact hr

/-- An overrun of a joined entry that is not STAMPED (R124). -/
theorem exec_overrunUnstamped (h : LinkIsNext s.part (.write a data enables (.ring offset))) (hr : s.part.recd.card.Rests)
    (hret : ∀ e ∈ s.part.recd.ring.retainedRun, e.state = .retained) (he : e ∈ s.part.recd.ring.joinedRun)
    (hs : e.state ≠ .stamped) (hov : e.overwritten = false) (hh : e.touched s.part.map.ringSize offset enables = true)
    (hq : s.part.recd.ring.queue.Nodup)
    (hu : ∀ x ∈ s.part.recd.ring.queue,
      x.touched s.part.map.ringSize offset enables = true ∨ x.number = e.number → x = e) :
    exec .linkRequestGrant s = .next { s with
      part := { s.part with
        bus := s.part.bus.meetAll
          ([Out.raise .ringOverrun] ++ if e.state = .joined then [Out.overwrite e.number] else [])
        recd := { s.part.recd with
          ring := s.part.recd.ring.overrunBy e { e with overwritten := true }
          card := { s.part.recd.card with clip := s.part.recd.card.clip.map OpenClip.gapped } }
        link := LinkPort.endBeat none false { s.part.link with request := none }
        lastGrant := .link }
      mem := s.mem.writeMasked a data enables } :=
  exec_ringBeat h (Job.ringBeat_overrun data hq he hret hov hh (fun x hx hxh => hu x hx (.inl hxh))
    (Job.overrunJoined_unstamped (map := s.part.map) (fun x hx hn => hu x hx (.inr hn)) hs) rfl (List.mem_takeWhile_imp he :))
    (hr.marked fun _ => rfl)

/-- An overrun of a STAMPED entry while the card engine waits with its clip (R124; log 20). -/
theorem exec_overrunStamped (h : LinkIsNext s.part (.write a data enables (.ring offset)))
    (hret : ∀ e ∈ s.part.recd.ring.retainedRun, e.state = .retained) (he : e ∈ s.part.recd.ring.joinedRun)
    (hs : e.state = .stamped) (hw : e.stamp = some w) (hov : e.overwritten = false)
    (hh : e.touched s.part.map.ringSize offset enables = true) (hq : s.part.recd.ring.queue.Nodup)
    (hu : ∀ x ∈ s.part.recd.ring.queue,
      x.touched s.part.map.ringSize offset enables = true ∨ x.number = e.number → x = e)
    (hk : s.part.recd.card.Waits k)
    (hstop : s.part.recd.card.recState = .stopping →
      s.part.recd.ring.drainAhead < s.part.recd.ring.ahead s.part.map.ringSize e.offset + e.span) :
    ∃ card, exec .linkRequestGrant s = .next { s with
        part := { s.part with
          bus := s.part.bus.meetAll [.raise .ringOverrun,
            .request (.stamp e.number (s.part.map.ringBase + e.offset) w.timecode w.rateMode w.estimated true)]
          recd := { s.part.recd with ring := s.part.recd.ring.overrunBy e e.overrunAgain, card := card }
          link := LinkPort.endBeat none false { s.part.link with request := none }
          lastGrant := .link }
        mem := s.mem.writeMasked a data enables } ∧
      card.clip.map OpenClip.flags = some { k.flags with gap := true } ∧
      ((∀ b n, s.part.recd.card.request ≠ some (.dir b n)) → s.part.recd.card.dirJobs = [] →
        (∀ x ∈ s.part.recd.ring.queue, x ≠ e → x.readable = false) → card.request = none) := by
  obtain ⟨clip, inFlight, waits⟩ := hk
  have joined := Job.overrunJoined_stamped (map := s.part.map) (fun x hx hn => hu x hx (.inr hn)) hs hw
  have overrun := Job.ringBeat_overrun (e' := e.overrunAgain) data hq he hret hov hh (fun x hx hxh => hu x hx (.inl hxh))
    joined rfl rfl
  have drained : ((s.part.recd.card.recState = .recording ∨ s.part.recd.card.recState = .stopping) ∧ k.gapped.live = true) ∨
      s.part.recd.card.recState = .closing :=
    waits.imp (fun ⟨drains, live, _⟩ => ⟨drains, live⟩) fun ⟨closing, _⟩ => closing
  obtain ⟨card, pumped, flags, request⟩ := Job.pump_overrunStamped overrun ((List.takeWhile_prefix _).subset he)
    (congrArg (Option.map OpenClip.gapped) clip) inFlight drained hstop
  refine ⟨card, exec_ringBeat_pumped h pumped, flags, fun hdir hd hx => request ?_ hd hx⟩
  dsimp only
  split
  next b n hb => exact absurd hb (hdir b n)
  next => rfl

end

/-- Settles O17, by the judgement of the beat: retained, rejected, dropped or joined, room made for it, or an overrun. -/
theorem chunksArePublished : Obligations.ChunksArePublished := by
  unfold Obligations.ChunksArePublished
  refine ⟨?_, ?_, ?_, ?_⟩
  · intro s a data enables kind length frame m R span hnext hquiet hidle hdata hen hshadow hmarker hcode hlength hpos hmax
      hframe hun hfits hlen moved done entry frames
    subst hen hlength hframe
    have code : chunkKindOf ((data.drop 4).headD 0).toNat = some kind := by
      rw [hcode]
      cases kind <;> rfl
    have beat : FrontBeat s a data kind := ⟨⟨hnext, hdata, hshadow, hpos, hun⟩, ⟨hmarker, code, hmax⟩, hquiet, hidle⟩
    have passes (hk : kind ≠ .videoKey) (hr : m.hasRetained = false) :=
      beat.grant_passedOver (m := { m with shadow := data }) (RingMonitor.makeRoom_front data hfits _) hfits hk hr
    refine ⟨fun hk => ⟨fun hd => beat.grant_kept hfits hlen hk hd, fun hd hr => beat.grant_trimmed hfits hlen hk hd hr⟩,
      fun hk hr hne => ?_, fun hk he => ?_⟩
    · have granted := passes hk hr
      rw [RingMonitor.advance_of_queue (m := { m with shadow := data }) hne] at granted
      exact granted
    · have granted := passes hk (by unfold RingMonitor.hasRetained; rw [he]; rfl)
      rw [RingMonitor.advance_of_empty (m := { m with shadow := data }) he] at granted
      exact granted
  · intro s a data m c R enables hnext hdata hshadow hun marker kind length frame span sound hpos granted done gapped moved
    let published (kd : ChunkKind) : RingMonitor := (m.append (s.part.recd.headerEntry data kd true)).past R span
    have beat : WholeBeat s a data := ⟨hnext, hdata, hshadow, hpos, hun⟩
    have header : sound → ∃ k, SoundHeader data k := soundHeader_iff.2
    have named {kd : ChunkKind} (hs : sound)
        (hk : (kind = 1 ∧ kd = .videoKey) ∨ (kind = 2 ∧ kd = .videoDelta) ∨ (kind = 3 ∧ kd = .audio) ∨
          (kind = 4 ∧ kd = .metadata)) : SoundHeader data kd ∧ decide (kind ≤ 2) = kd.isVideo := by
      obtain ⟨hmarker, -, -, hmax⟩ := hs
      obtain ⟨hk, rfl⟩ | ⟨hk, rfl⟩ | ⟨hk, rfl⟩ | ⟨hk, rfl⟩ := hk <;>
        exact ⟨⟨hmarker, by rw [show ((data.drop 4).headD 0).toNat = kind from rfl, hk]; rfl, hmax⟩, by rw [hk]; rfl⟩
    refine ⟨fun hr hs => ?_, fun hr hs hf hj => ?_, fun hq hs hf hlen hr hk hidle => ?_,
      fun k kd hw hrec hs hf hlen hn hmode hk => ?_, fun k kd hw hrec hs hf hlen hn hmode hk => ?_,
      fun harm hclip hs hk hf hlen => ?_⟩
    · exact beat.grant_unsound hr fun k hk => hs (soundHeader_iff.1 ⟨k, hk⟩)
    · obtain ⟨k, hk⟩ := header hs
      exact beat.grant_short hr hk hf hj
    · obtain ⟨hk, -⟩ := named hs (.inl ⟨hk, rfl⟩)
      have dropped := FrontBeat.grant_dropped ⟨beat, hk, hq, hidle⟩ hf hlen hr
      exact dropped.trans (congrArg (fun card => Host.Outcome.next (s.afterBeat a data [.raise .queueFull]
        ⟨_, card, s.part.recd.tc⟩)) (CardEngine.clip_eta hq.1).symm)
    · obtain ⟨hk, -⟩ := named hs hk
      have joined := beat.grant_joined hk hw hrec hf hlen hn
        (Recorder.formStamp_freeRun (r := ⟨published kd, s.part.recd.card, s.part.recd.tc⟩) hmode _)
      intro free words
      exact joined.trans (congrArg (fun card => Host.Outcome.next (s.afterBeat a data [_] ⟨_, card, s.part.recd.tc⟩))
        (CardEngine.clip_eta hw.1).symm)
    · obtain ⟨hk, video⟩ := named hs hk
      have joined := beat.grant_joined hk hw hrec hf hlen hn
        (Recorder.formStamp_recordRun (r := ⟨published kd, s.part.recd.card, s.part.recd.tc⟩) hmode _)
      intro tc free isVideo words
      have kept : (s.part.recd.headerEntry data kd true).kind.isVideo =
          isVideo := video.symm
      rw [kept] at joined
      exact joined
    · obtain ⟨hk, -⟩ := named hs (.inl ⟨hk, rfl⟩)
      exact beat.grant_armed hk harm hf hlen
  · intro s a data m R enables length span hnext hquiet hidle hdata hshadow hmarker hcode hpos hmax hsR hqueue hne hlen hf hd room
    have header : SoundHeader data .videoKey := ⟨hmarker, by rw [hcode]; rfl, hmax⟩
    have beat : FrontBeat s a data .videoKey :=
      ⟨⟨hnext, hdata, hshadow, hpos, fun e he => (hqueue e he).1⟩, header, hquiet, hidle⟩
    obtain ⟨kept, front, drain, granted, suffix, short, key, empty, least⟩ :=
      beat.grant_roomMade hsR (fun e he => (hqueue e he).2) hne hlen hf hd
    exact ⟨_, kept, granted, rfl, rfl, suffix, short, key, empty, least, rfl, rfl, rfl, rfl, rfl⟩
  · intro s a offset data enables m c hit hnext hrests hret done
    refine ⟨fun e he hst hov hh hnodup hu => ?_, fun e he w k hst hw hov hh hnodup hu hwaits hstop => ?_, fun hj hh => ?_⟩
    · intro raised
      have asked : s.part.bus.meetAll ([Out.raise .ringOverrun] ++ if e.state = .joined then [Out.overwrite e.number] else []) =
          if e.state = .joined then { raised with
            partQ := raised.partQ.map fun r => match r with
              | .stamp n b tc rm est ov => .stamp n b tc rm est (ov || decide (n = e.number))
              | r => r } else raised := by
        split
        · exact congrArg (fun f => ({ raised with partQ := raised.partQ.map f } : Bus)) (funext fun r => by cases r <;> rfl)
        · rfl
      have granted := exec_overrunUnstamped hnext hrests hret he hst hov hh hnodup hu
      rw [asked] at granted
      exact granted
    · obtain ⟨card, granted, flags, request⟩ := exec_overrunStamped hnext hret he hst hw hov hh hnodup hu hwaits hstop
      exact ⟨_, granted, rfl, rfl, flags, request⟩
    · obtain ⟨suffix, spared, key⟩ := overrunRetained_spec hh
      have granted := exec_ringBeat (asked := []) hnext (Job.ringBeat_overrunRetained data hret hj hh) hrests
      exact ⟨_, _, granted, rfl, suffix, spared, key, rfl, rfl⟩

end Sys2Proof.Machine

end
